-- ==== Sys2Proof/Types.lean ====
section
/-! DEFINITION. The plain data types that commands and state share: the columns of the register tables (R12 to R14),
register fields and registers, the three masters, ledger records, slice queue entries and what the block sends out. -/

namespace Sys2Proof

/-- The Access column (R12). `rlh` marks a field whose low-word read latches its high word. -/
inductive Acc where
  | ro | rw | rwd | w1c | w1s | rc | rlh | wo
  deriving DecidableEq, Repr

/-- The Reset column (R14). -/
inductive Cls where
  | po | wr | st | bk
  deriving DecidableEq, Repr

/-- The Prot column (R13). -/
inductive Prot where
  | none | tmr | inv
  deriving DecidableEq, Repr

/-- One field of the register tables: the BAR0 offset of its register (BAR2 offsets stand at 0x0400_0000, R555),
its lowest bit and width, its reset value, its columns, and the stride of an array of registers. -/
structure Fld where
  off : Nat
  lo : Nat
  width : Nat
  rst : Nat
  acc : Acc
  cls : Cls
  prot : Prot
  stride : Nat
  deriving DecidableEq, Repr

/-- The key under which State.fields holds the field. -/
def Fld.key (f : Fld) : Nat := f.off * 64 + f.lo
/-- The same field of the register `d` bytes further on (an instance or an array element). -/
def Fld.shift (f : Fld) (d : Nat) : Fld := { f with off := f.off + d }
/-- Element `i` of a register array. -/
def Fld.idx (f : Fld) (i : Nat) : Fld := f.shift (f.stride * i)

/-- A register, or an array of `count` registers `stride` bytes apart, of `words` 32-bit words. -/
structure RegDef where
  name : String
  off : Nat
  count : Nat
  stride : Nat
  words : Nat
  fields : List Fld
  deriving DecidableEq, Repr

/-- The masters that reach the registers (R555), in the order in which one register serves them (R557). -/
inductive Master where
  | yardmaster | host | debug
  deriving DecidableEq, Repr

/-- The code of GLB_ACC_ADDR.MASTER (R572). -/
def Master.code : Master → Nat
  | .yardmaster => 0
  | .host => 1
  | .debug => 2

/-- A ledger record (R485) but for its CRC, which its bytes carry. Times are nanoseconds of device time. -/
structure LedgerRec where
  code : Nat
  rep : Nat
  seq : Nat
  time : Nat
  tq : Nat
  closed : Bool
  firmware : Bool
  backup : Bool
  source : Nat
  beat : Nat
  p1 : Nat
  p2 : Nat
  p3 : Nat
  p4 : Nat
  lastTime : Nat
  deriving DecidableEq, Repr

/-- A time as structures hold it: 4 bytes of nanoseconds, then 6 bytes of seconds, little-endian (R10). -/
def timeBytes (t : Nat) : List Byte := leBytes 4 (t % 1000000000) ++ leBytes 6 (t / 1000000000)

/-- Bytes 0 to 59 of a ledger record (R485). -/
def LedgerRec.body (r : LedgerRec) : List Byte :=
  leBytes 2 r.code ++ leBytes 2 r.rep ++ leBytes 4 r.seq ++ timeBytes r.time ++ leBytes 1 (r.tq % 8)
    ++ leBytes 1 (b2n r.closed + 2 * b2n r.firmware + 4 * b2n r.backup) ++ leBytes 2 r.source ++ leBytes 2 0
    ++ leBytes 8 r.beat ++ leBytes 4 r.p1 ++ leBytes 4 r.p2 ++ leBytes 4 r.p3 ++ leBytes 4 r.p4
    ++ timeBytes r.lastTime ++ leBytes 2 0

/-- The 64 bytes of a ledger record, CRC-32C last (R485). -/
def LedgerRec.bytes (r : LedgerRec) : List Byte := r.body ++ leBytes 4 (crc32c r.body)

/-- An event raised in the present datapath cycle (R474): code, interrupt source, parameters, and the slices whose
event rings it reaches (R483). -/
structure Ev where
  code : Nat
  source : Nat
  p1 : Nat
  p2 : Nat
  p3 : Nat
  p4 : Nat
  firmware : Bool
  backup : Bool
  slices : List Nat
  deriving DecidableEq, Repr

/-- An event record for a slice's event ring (R483); PHASE is set when it is written. -/
structure EventRec where
  code : Nat
  tq : Nat
  p1 : Nat
  p2 : Nat
  p3 : Nat
  p4 : Nat
  beat : Nat
  seq : Nat
  deriving DecidableEq, Repr

/-- A completion queue entry (R348); PHASE is set when it is written. `body` holds the bytes of a HOST entry. -/
structure Cqe where
  typ : Nat
  cmdId : Nat
  status : Nat
  len : Nat
  aux : Nat
  payload : List Byte
  body : List Byte
  deriving DecidableEq, Repr

/-- The energies that the meters read for the beat or millisecond that ends (R514, R515, R517), in nJ: of the 20
domains, of AON with BKP, of the GHASH network, and of slices in their six meters. -/
structure Meters where
  doms : List Nat
  aon : Nat
  ghash : Nat
  slices : List (Nat × List Nat)
  deriving DecidableEq, Repr

/-- What an emission report says of a frame (R275): owner slice, KIND, PUB, SEQ, RUN_BEAT, IV, KEY, whether it is a
repetition and the LAN B copy, and whether a timestamp is wanted. -/
structure EmitInfo where
  slice : Nat
  kind : Nat
  pub : Nat
  seq : Nat
  beat : Nat
  iv : List Byte
  key : Nat
  rep : Bool
  lanB : Bool
  ts : Bool
  deriving DecidableEq, Repr

/-- An output frame on its way out of a port: its egress queue (7 first), its bytes, and its report where one is due
(R272, R274, R275). -/
structure OutFrame where
  prio : Nat
  info : Option EmitInfo
  bytes : List Byte
  deriving DecidableEq, Repr

/-- The fields that a security extension or a tag trailer gives a frame (R84, R85): the algorithm as its HRS code, the
authenticated timestamp in ns, the authenticated span and its length. -/
structure Sec where
  keyId : Nat
  alg : Nat
  ts : Nat
  iv : List Byte
  tag : List Byte
  tagLen : Nat
  span : List Byte
  encrypted : Bool
  deriving DecidableEq, Repr

/-- One sampled-value ASDU (R113, R114). -/
structure Asdu where
  smpCnt : Nat
  smpSynch : Nat
  data : List Byte
  deriving DecidableEq, Repr

/-- The fields of an IEC 61850 APDU that the rules use (R95, R113, R125). -/
structure Apdu where
  stNum : Nat
  sqNum : Nat
  ttl : Nat
  test : Bool
  ndsCom : Bool
  sim : Bool
  entries : Nat
  confRev : Nat
  allData : List Byte
  asdus : List Asdu
  spdu : Nat
  deriving DecidableEq, Repr

/-- A flow-path frame as the port hands it on (R54 to R57): port (96 + j for Tudel link j), arrival time in ns, kind and
transport as R79 numbers them, VID, stream ID, the 16 bytes of SOURCE, sender's MAC address, RCT or HSR sequence number
with its LAN, and PDU (R143). -/
structure RxFrame where
  port : Nat
  arr : Nat
  kind : Nat
  transport : Nat
  vid : Nat
  stream : Nat
  source : List Byte
  mac : Nat
  tag : Option (Nat × Nat)
  pdu : List Byte
  deriving DecidableEq, Repr

/-- What a memory's SECDED code finds in a read (R159, R177, R371): nothing, a corrected or an uncorrectable data error,
or a corrected or an uncorrectable tag error. -/
inductive MemErr where
  | none | ce | ue | tagCe | tagUe
  deriving DecidableEq, Repr

/-- What the block sends to the world outside. Addresses of host writes are those the rule names. -/
inductive Output where
  /-- A completion entry of a slice written at a queue index with its phase (R348). -/
  | cqWrite (slice index : Nat) (phase bodyLost : Bool) (e : Cqe)
  /-- An event record of a slice written at a ring index with its phase (R483). -/
  | evWrite (slice index : Nat) (phase : Bool) (e : EventRec)
  /-- A DMA write: `pasid` none for an address without PASID or a yardmaster address. -/
  | dmaWrite (pasid : Option Nat) (addr : Nat) (bytes : List Byte)
  /-- An MSI-X message of a vector (R340). -/
  | msix (vector addr data : Nat)
  /-- A PM_PME message (R365). -/
  | pmPme
  /-- An LTR message with its value in microseconds (R364). -/
  | ltr (us : Nat)
  /-- A frame handed to the transmitter of a port. -/
  | frameTx (port : Nat) (bytes : List Byte)
  /-- A pair frame of a type with its payload (R283). -/
  | pairTx (typ : Nat) (payload : List Byte)
  /-- The transmit time of a PTP event message that left a port, for the yardmaster (R57). -/
  | txStamp (port time : Nat) (bytes : List Byte)
  /-- A frame on a Tudel link (R333). -/
  | tudelTx (link typ : Nat) (payload : List Byte)
  /-- A pulse on PPS_OUT (R43). -/
  | ppsPulse
  deriving DecidableEq, Repr

/-- A memory that the MTEST block tests (R608): a logical yard bank, a bank of shed memory, a stall-local memory, the tag
store beside one of them, or yardmaster SRAM. -/
inductive MemUnit where
  | yard (bank : Nat)
  | shedMem (p bank : Nat)
  | localMem (k : Nat)
  | yardTag (bank : Nat)
  | shedTag (p : Nat)
  | localTag (k : Nat)
  | ym
  deriving DecidableEq, Repr

end Sys2Proof
end

