-- ==== Sys2Proof/Syntax.lean ====
section
/-! DEFINITION. The commands of the block: one constructor per row of spec/opcode_table.json, with its operands. A
register command names its master (R555) and the word written; what the environment supplies (a frame, a sensor
reading, the outcome of a DMA, the bytes a host or flash returns) and the time that has passed stand as operands. An operand
with a default stands last: no memory error, no wait, no frame of the yardmaster. -/

namespace Sys2Proof

inductive Instr where
  /-- BEAT_EDGE (R17): The edge of a beat is asserted: the outputs of the previous run beat are released or discarded, its result is published, due windows are cut and new windows open. -/
  | beatEdge (e : Meters) (late : List Nat) (degraded : Bool)
  /-- CUT_SETTLE_END (R120): At 0.160 µs after the edge, unfinished placements are abandoned, the cut slabs are closed and digested, and dispatch opens. -/
  | cutSettleEnd
  /-- RUN_DEADLINE (R196): At L − S every stall with an item in service receives the stop, and items not handed over end under R216. -/
  | runDeadline (late : List Nat)
  /-- DELTA_CLOSE (R258): At L − S + 0.100 µs the delta of the beat is closed, its size tested against the budget, and its copy and the frame builds begin. -/
  | deltaClose
  /-- ACK_CUTOFF (R259): At L − 0.250 µs the emit decision of the beat is fixed and the active device toggles ACT_OUT_N. -/
  | ackCutoff (readback : Bool)
  /-- PROVISIONAL_TOGGLE (R289): At c + 0.080 µs a PROMOTING device toggles ACT_OUT_N when ACT_IN_N has shown no transition since c − 0.060 µs. -/
  | provisionalToggle (readback : Bool)
  /-- EGRESS_GATE_SAMPLE (R290): At L − 0.020 µs the egress gate is evaluated for the release at the next edge. -/
  | egressGateSample
  /-- SYNC_TMO_EXPIRY (R35): SYNC_TMO seconds pass in LOCKED without a write to BEAT_FREQ_ADJ, and HOLDOVER becomes due. -/
  | syncTmoExpiry (dt : Nat)
  /-- HOLD_TIME_EXPIRY (R35): The hold timer reaches HOLD_TIME seconds and FREE becomes due. -/
  | holdTimeExpiry (dt : Nat)
  /-- START_WAIT_EXPIRY (R35): START_WAIT seconds pass in UNSET with FREE_START = 1 and FREE becomes due. -/
  | startWaitExpiry (dt : Nat)
  /-- BEAT_ENABLE (R21): A write of BEAT_CTRL.EN starts the beat generator in UNSET when the configuration is in range, or stops it. -/
  | beatEnable (m : Master) (d : Nat)
  /-- RESEAT_REQUEST (R40): A write of 1 to BEAT_CTRL.RESEAT takes the offset and requests a reseat at the next edge. -/
  | reseatRequest (m : Master) (d : Nat)
  /-- TQ_REQUEST (R35): A non-zero write of BEAT_TQ.REQ requests a quality for the next edge. -/
  | tqRequest (m : Master) (d : Nat)
  /-- FREQ_ADJ_WRITE (R37): A write of BEAT_FREQ_ADJ sets the frequency adjustment for the next edge, clamped to ±200,000 ppb. -/
  | freqAdjWrite (m : Master) (v dt : Nat)
  /-- PPS_IN_EDGE (R44): A rising edge of PPS_IN is timestamped and its offset from the nearest second stored. -/
  | ppsInEdge (dt : Nat)
  /-- PPS_OUT_PULSE (R43): PPS_OUT rises at every whole second of device time for 1 ms. -/
  | ppsOutPulse (dt : Nat)
  /-- BEAT_TIME_READ (R562): A read of BEAT_TIME_NS latches the seconds registers for that master. -/
  | beatTimeRead (m : Master) (dt : Nat)
  /-- FRAME_RX (R54): A frame received on a port is checked, parsed for tags, routed to the flow, small-traffic or stray path, and taken through the gate to engine admission. -/
  | frameRx (n : Fin 104) (bs : List Byte) (fcsOk : Bool) (dt : Nat) (uncorr : Nat := 0)
  /-- VERIFY_COMPLETE (R74): Stage 6 of a frame completes, and stages 7 to 11 run: timestamp, replay, commit, duplicate discard and hand-over. -/
  | verifyComplete (j dt : Nat)
  /-- SAMPLE_PLACE (R118): The marshalling yard places the sample instants of an accepted frame into slabs, or refuses them. -/
  | samplePlace (j : Nat)
  /-- LOFT_RECORD_WRITE (R141): A buffered record entry is written to HBM, closing and opening segments as needed. -/
  | loftRecordWrite
  /-- PORT_ENABLE (R70): A write of PORT_CTRL.EN starts the port in TRAINING when its configuration is valid, or disables it. -/
  | portEnable (m : Master) (n : Fin 96) (d : Nat)
  /-- PORT_UNHOLD (R59): A write of PORT_CTRL.UNHOLD ends HELD at once. -/
  | portUnhold (m : Master) (n : Fin 96) (d : Nat)
  /-- PCS_LOCK (R59): PCS lock and FEC alignment are reached without local fault, and the port enters UP_PENDING. -/
  | pcsLock (n : Fin 96) (dt : Nat)
  /-- LINK_TRAINING_DONE (R619): Link training of a port's lanes completes. -/
  | linkTrainingDone (n : Fin 96)
  /-- UP_HOLD_EXPIRY (R59): The hold timer reaches UP_HOLD without fault and the port enters UP. -/
  | upHoldExpiry (n : Fin 96) (dt : Nat)
  /-- LINK_FAULT (R59): A fault (loss of lock, alignment, signal, or local fault) appears on a port. -/
  | linkFault (n : Fin 96) (kind : Fin 4) (dt : Nat) (lanes : Nat := 0)
  /-- DOWN_DEB_EXPIRY (R59): A fault lasts DOWN_DEB and the port leaves UP for TRAINING or HELD. -/
  | downDebExpiry (n : Fin 96) (dt : Nat)
  /-- FLAP_HOLD_EXPIRY (R59): The flap timer reaches FLAP_HOLD and a HELD port returns to TRAINING. -/
  | flapHoldExpiry (n : Fin 96) (dt : Nat)
  /-- REMOTE_FAULT (R59): A remote fault is received and reported without taking the port down. -/
  | remoteFault (n : Fin 96) (present : Bool)
  /-- LREF_FAULT (R67): LREFg is absent or outside its limits, so the lanes of its group do not lock. -/
  | lrefFault (g : Fin 8) (absent : Bool)
  /-- PLL_LOSS_OF_LOCK (R68): A lane's PLL loses lock and its port takes the fault path. -/
  | pllLossOfLock (l : Fin 128) (dt : Nat)
  /-- PORT_GLB_ENABLE (R69): A write of PORT_GLB_CTRL.EN enables the global port registers and redundancy table, or refuses an invalid pair. -/
  | portGlbEnable (m : Master) (d : Nat)
  /-- LANE_ENABLE (R71): A write of LANE_CTRL.EN powers and starts the lane, or stops it. -/
  | laneEnable (m : Master) (l : Fin 128) (d : Nat)
  /-- SUPERVISION_TX (R61): Supervision frames are sent on both ports of a pair every LIFE_CHECK seconds. -/
  | supervisionTx (m : Fin 48) (dt : Nat)
  /-- NODE_FORGET_EXPIRY (R61): A node entry is removed after NODE_FORGET seconds without a frame. -/
  | nodeForgetExpiry (m : Fin 48) (mac dt : Nat)
  /-- ENTRY_FORGET_EXPIRY (R61): A sequence number in a node entry is forgotten after ENTRY_FORGET ms. -/
  | entryForgetExpiry (m : Fin 48) (mac dt : Nat)
  /-- FRAME_TX_DONE (R273): A frame finishes transmission on a port, its timestamp is taken, and the next frame of the highest non-empty queue starts. -/
  | frameTxDone (n : Fin 96) (dt : Nat) (ym : List (Bool × List Byte) := [])
  /-- GATE_ENABLE (R102): A write of GATE_CTRL.EN enables the check gate, or disables it so flow-path frames are discarded. -/
  | gateEnable (m : Master) (d : Nat)
  /-- GATE_READ (R102): GATE_FACC READ returns the bytes of a flow entry. -/
  | gateRead (m : Master)
  /-- GATE_WRITE (R102): GATE_FACC WRITE writes a platform flow entry while EN = 0. -/
  | gateWrite (m : Master)
  /-- GATE_INVALIDATE (R103): GATE_FACC INVALIDATE invalidates a flow entry and discards its replay state and instances. -/
  | gateInvalidate (m : Master)
  /-- RESET_REPLAY (R98): GATE_FACC RESET_REPLAY empties a flow's replay state. -/
  | resetReplay (m : Master)
  /-- SET_QUAR (R77): GATE_FACC SET_QUAR sets a flow's QUARANTINE bit. -/
  | setQuar (m : Master)
  /-- CLEAR_QUAR (R77): GATE_FACC CLEAR_QUAR clears a flow's QUARANTINE bit. -/
  | clearQuar (m : Master)
  /-- READ_STATS (R104): GATE_FACC READ_STATS places a flow's counters in the data registers. -/
  | readStats (m : Master)
  /-- READ_REPLAY (R104): GATE_FACC READ_REPLAY places a flow's replay record in the data registers. -/
  | readReplay (m : Master)
  /-- SET_NEXT (R94): GATE_FACC SET_NEXT sets KEY_NEXT and NEXT_VALID of a flow. -/
  | setNext (m : Master)
  /-- READ_META (R89): GATE_KACC READ_META returns the metadata of a key cache entry. -/
  | readMeta (m : Master)
  /-- RETIRE (R104): GATE_KACC RETIRE sets a key cache entry RETIRED, or is refused for an EMPTY entry. -/
  | retire (m : Master)
  /-- INSTANCE_IDLE_EXPIRY (R83): An instance is removed after IDLE seconds without an accepted frame. -/
  | instanceIdleExpiry (n dt : Nat)
  /-- TEMPLATE_KEY_PROPAGATE (R83): A write of a template's KEY_NEXT is applied to every instance within 1 ms. -/
  | templateKeyPropagate
  /-- MAC_JOB_DONE (R100): A slice MAC job completes on an idle engine cycle and its result is delivered. -/
  | macJobDone (j : Nat) (data : Option (List Byte))
  /-- MAC_JOB_TIMEOUT (R101): A MAC job not started within TMO µs completes with TIMEOUT. -/
  | macJobTimeout (j dt : Nat)
  /-- MYARD_ENABLE (R128): A write of MYARD_CTRL.EN allocates rings and member indices, or is refused when capacity is short. -/
  | myardEnable (m : Master) (d : Nat)
  /-- MYARD_READ (R136): MYARD_GACC READ returns a group entry. -/
  | myardRead (m : Master)
  /-- MYARD_WRITE (R107): MYARD_GACC WRITE writes a group entry while EN = 0. -/
  | myardWrite (m : Master)
  /-- MYARD_INVALIDATE (R136): MYARD_GACC INVALIDATE invalidates a group entry while EN = 0. -/
  | myardInvalidate (m : Master)
  /-- MYARD_READ_STATS (R136): MYARD_GACC READ_STATS places a group's counters in the data registers. -/
  | myardReadStats (m : Master)
  /-- LOFT_ENABLE (R162): A write of LOFT_CTRL.EN initialises or recovers the Loft, or is refused under R139. -/
  | loftEnable (m : Master) (d : Nat) (failA failB : Bool)
  /-- LOFT_INIT_DONE (R162): Loft initialisation completes, INIT_BUSY clears and recording starts. -/
  | loftInitDone (ce : Nat := 0) (ue : List Nat := [])
  /-- TRIGGER (R150): LOFT_FRZ_CMD TRIGGER requests a freeze into a free slot. -/
  | triggerLoft (m : Master)
  /-- RELEASE (R150): LOFT_FRZ_CMD RELEASE returns a held slot to FREE and lowers pin counts. -/
  | releaseLoft (m : Master) (slot : Fin 16)
  /-- READ_SLOT (R151): LOFT_FRZ_CMD READ_SLOT returns a slot record. -/
  | readSlot (m : Master) (slot : Fin 16)
  /-- LOFT_EXPORT_GO (R152): A write of LOFT_EXP_CMD.GO starts the export of a held freeze. -/
  | loftExportGo (m : Master) (d : Nat)
  /-- LOFT_EXPORT_COMPLETE (R154): An export finishes, or ends on a guard refusal, and writes its signed manifest. -/
  | loftExportComplete (fault : Option Nat) (ce : Nat := 0) (ue : List (Nat × List Byte) := [])
  /-- LOFT_TEST_STEP (R160): Background test saves, tests and restores one 64 KiB Loft region, repairing or retiring on failure. -/
  | loftTestStep (hist : Bool) (idx : Nat) (pass repaired : Bool)
  /-- RV32_COMPUTE (R170): A stall executes a base RV32IMFC, Zba or Zbb instruction that is neither a memory access nor a service call. -/
  | rv32Compute (p : Fin 68) (l : Fin 16) (dt : Nat) (err : MemErr := .none)
  /-- EBREAK (R191): A breakpoint trap ends the item as FAULT. -/
  | ebreak (p : Fin 68) (l : Fin 16) (dt : Nat)
  /-- LOAD (R179): A stall load is checked against the store buffer and the guard, then forwarded, made or made to wait. -/
  | loadWord (p : Fin 68) (l : Fin 16) (dt : Nat)
  /-- LOAD_DATA_RETURN (R176): A pending load's data returns and the stall resumes issue. -/
  | loadDataReturn (p : Fin 68) (l : Fin 16) (err : MemErr) (dt : Nat) (waits : Nat := 0)
  /-- STORE (R178): A store enters the store buffer, or the stall waits for a free entry. -/
  | storeWord (p : Fin 68) (l : Fin 16) (dt : Nat)
  /-- STORE_DRAIN (R178): The head entry of a store buffer is accepted by its target memory and leaves the buffer. -/
  | storeDrain (p : Fin 68) (l : Fin 16) (dt : Nat) (waits : Nat := 0)
  /-- FENCE (R180): FENCE waits until the store buffer is empty. -/
  | fence (p : Fin 68) (l : Fin 16) (dt : Nat)
  /-- FENCE_I (R173): FENCE.I drains the store buffer and invalidates the stall's instruction cache. -/
  | fenceI (p : Fin 68) (l : Fin 16) (dt : Nat)
  /-- CSR_ACCESS (R182): A CSR instruction reads or writes a counter or Xdlp CSR. -/
  | csrAccess (p : Fin 68) (l : Fin 16) (dt : Nat)
  /-- QADD (R181): Saturating 32-bit add. -/
  | qadd (p : Fin 68) (l : Fin 16) (dt : Nat)
  /-- QSUB (R181): Saturating 32-bit subtract. -/
  | qsub (p : Fin 68) (l : Fin 16) (dt : Nat)
  /-- QMUL (R181): Saturating rounded Q31 multiply. -/
  | qmul (p : Fin 68) (l : Fin 16) (dt : Nat)
  /-- QADD16 (R181): Saturating add of each 16-bit half. -/
  | qadd16 (p : Fin 68) (l : Fin 16) (dt : Nat)
  /-- QSUB16 (R181): Saturating subtract of each 16-bit half. -/
  | qsub16 (p : Fin 68) (l : Fin 16) (dt : Nat)
  /-- QMUL16 (R181): Saturating rounded Q15 multiply of each half. -/
  | qmul16 (p : Fin 68) (l : Fin 16) (dt : Nat)
  /-- QABS (R181): Saturating absolute value. -/
  | qabs (p : Fin 68) (l : Fin 16) (dt : Nat)
  /-- QNEG (R181): Saturating negation. -/
  | qneg (p : Fin 68) (l : Fin 16) (dt : Nat)
  /-- CMAC (R181): Complex multiply-accumulate into an accumulator. -/
  | cmac (p : Fin 68) (l : Fin 16) (dt : Nat)
  /-- CMACJ (R181): Conjugate complex multiply-accumulate into an accumulator. -/
  | cmacj (p : Fin 68) (l : Fin 16) (dt : Nat)
  /-- CMSU (R181): Complex multiply-subtract from an accumulator. -/
  | cmsu (p : Fin 68) (l : Fin 16) (dt : Nat)
  /-- CMSUJ (R181): Conjugate complex multiply-subtract from an accumulator. -/
  | cmsuj (p : Fin 68) (l : Fin 16) (dt : Nat)
  /-- ACLR (R181): Clear an accumulator. -/
  | aclr (p : Fin 68) (l : Fin 16) (dt : Nat)
  /-- ARDRE (R181): Read the rounded, saturated real part of an accumulator. -/
  | ardre (p : Fin 68) (l : Fin 16) (dt : Nat)
  /-- ARDIM (R181): Read the rounded, saturated imaginary part of an accumulator. -/
  | ardim (p : Fin 68) (l : Fin 16) (dt : Nat)
  /-- APK16 (R181): Read an accumulator packed as a Q15 complex value. -/
  | apk16 (p : Fin 68) (l : Fin 16) (dt : Nat)
  /-- LSH (R185): Load a sign-extended halfword of a slab slot by member and slot. -/
  | lsh (p : Fin 68) (l : Fin 16) (dt : Nat)
  /-- LSW (R185): Load a word of a slab slot by member and slot. -/
  | lsw (p : Fin 68) (l : Fin 16) (dt : Nat)
  /-- LSP (R185): Load the presence bit of a slab slot. -/
  | lsp (p : Fin 68) (l : Fin 16) (dt : Nat)
  /-- DONE (R190): The DONE service, or the exit stub, ends the item as DONE with its result code. -/
  | doneSvc (p : Fin 68) (l : Fin 16) (ue : Option (Fin 4096)) (dt : Nat)
  /-- OUTPUT (R249): The OUTPUT service queues an output record whole, or refuses it, or reports the queue full. -/
  | outputSvc (p : Fin 68) (l : Fin 16) (ue : Option (Fin 4096)) (dt : Nat)
  /-- TIME (R190): The TIME service returns device time. -/
  | timeSvc (p : Fin 68) (l : Fin 16) (ue : Option (Fin 4096)) (dt : Nat)
  /-- FAIL (R190): The FAIL service ends the item as FAILED. -/
  | failSvc (p : Fin 68) (l : Fin 16) (ue : Option (Fin 4096)) (dt : Nat)
  /-- BAD_SERVICE (R190): An ECALL with an unknown service number returns 0xFFFF_FFFF and is counted. -/
  | badService (p : Fin 68) (l : Fin 16) (ue : Option (Fin 4096)) (dt : Nat)
  /-- SEMAPHORE_ACQUIRE (R199): A read of a shed semaphore attempts to acquire it. -/
  | semaphoreAcquire (p : Fin 68) (l : Fin 16) (dt : Nat)
  /-- SEMAPHORE_RELEASE (R200): A write to a shed semaphore by its holder releases it. -/
  | semaphoreRelease (p : Fin 68) (l : Fin 16) (dt : Nat)
  /-- HAND_OVER (R230): The Groom hands a ready item to an idle stall, which clears scratch, writes the entry block and enters U mode. -/
  | handOver (dt : Nat)
  /-- SHED_ENABLE (R205): A write of SHED_CTRL.EN = 1 starts the shed's enable sequence; a write of 0 ends items in service as LOST. -/
  | shedEnable (m : Master) (p : Fin 68) (d : Nat)
  /-- SHED_INIT_DONE (R205): A shed's ROM check, memory zeroing and cache invalidation complete. -/
  | shedInitDone (p : Fin 68) (romOk : Bool)
  /-- CNT_CLR (R208): A write of SHED_CTRL.CNT_CLR clears every counter of the shed. -/
  | cntClr (m : Master) (p : Fin 68)
  /-- SEM_FORCE (R202): A write of SHED_SEM_FORCE releases semaphores orphaned. -/
  | semForce (m : Master) (p : Fin 68) (d : Nat)
  /-- BANK_PWR_WRITE (R204): A write of SHED_BANK_PWR sets bank states, refusing OFF for live banks. -/
  | bankPwrWrite (m : Master) (p : Fin 68) (d : Nat)
  /-- STALL_PWR_WRITE (R203): A write of SHED_STALL_PWR sets the SRAM states of stall-local memories. -/
  | stallPwrWrite (m : Master) (p : Fin 68) (d : Nat)
  /-- SRAM_WAKE_DONE (R203): A memory in RETAIN or OFF returns to ON and the waiting access or dispatch proceeds. -/
  | sramWakeDone (p : Fin 68) (j : Fin 32) (dt : Nat)
  /-- GROOM_ENABLE (R245): A write of GROOM_CTRL.EN allocates state pages, or is refused when a descriptor or record is invalid. -/
  | groomEnable (m : Master) (d : Nat)
  /-- GROOM_IACC_READ (R247): GROOM_IACC READ returns an item table entry. -/
  | groomIaccRead (m : Master)
  /-- GROOM_IACC_WRITE (R212): GROOM_IACC WRITE writes an item descriptor, or refuses it with its code. -/
  | groomIaccWrite (m : Master)
  /-- GROOM_IACC_INVALIDATE (R247): GROOM_IACC INVALIDATE invalidates an item table entry. -/
  | groomIaccInvalidate (m : Master)
  /-- GROOM_FACC_READ (R217): GROOM_FACC READ returns a flow record. -/
  | groomFaccRead (m : Master)
  /-- GROOM_FACC_WRITE (R217): GROOM_FACC WRITE writes a flow record while EN = 0. -/
  | groomFaccWrite (m : Master)
  /-- MOVE (R236): GROOM_FACC MOVE requests that a flow's page be moved. -/
  | movePage (m : Master) (dest : Fin 128)
  /-- SSTAT_LATCH (R247): A write of GROOM_SSTAT_IDX latches a slice's statistics. -/
  | sstatLatch (m : Master) (n : Fin 256)
  /-- BLOG_LATCH (R247): A write of GROOM_BLOG_IDX latches a borrow log entry. -/
  | blogLatch (m : Master) (n : Fin 8192)
  /-- FRAME_BUILD_DONE (R268): The egress tag engine finishes building a frame, which enters its egress queue or leaves at once when released. -/
  | frameBuildDone (dt : Nat)
  /-- GOOSE_REPETITION (R270): A GOOSE repetition falls due on its curve and enters its egress queue with sqNum raised. -/
  | gooseRepetition (p : Fin 8192) (dt : Nat)
  /-- SEAL_ENABLE (R276): A write of SEAL_CTRL.EN zeroes hardware fields and draws SEAL_IV_FIXED, or is refused. -/
  | sealEnable (m : Master) (d : Nat)
  /-- SEAL_READ (R277): SEAL_PACC READ returns a publication entry. -/
  | sealRead (m : Master)
  /-- SEAL_WRITE (R253): SEAL_PACC WRITE writes a publication entry while EN = 0. -/
  | sealWrite (m : Master)
  /-- SEAL_INVALIDATE (R277): SEAL_PACC INVALIDATE invalidates a publication entry. -/
  | sealInvalidate (m : Master)
  /-- TACC_DATA_WRITE (R254): A write of SEAL_TACC_DATA writes four template bytes and advances the offset by 4. -/
  | taccDataWrite (m : Master) (d : Nat)
  /-- PAIR_ENABLE (R311): A write of PAIR_CTRL.EN enters SOLO or LISTEN, or disables the block and releases ACT_OUT_N. -/
  | pairEnable (m : Master) (d : Nat)
  /-- PAIR_HANDOVER (R308): PAIR_CTRL.HANDOVER requests a planned hot handover in the next delta. -/
  | pairHandover (m : Master)
  /-- PAIR_HANDOVER_COLD (R309): PAIR_CTRL.HANDOVER_COLD requests a cold handover at the next whole second. -/
  | pairHandoverCold (m : Master)
  /-- PAIR_RESYNC (R302): PAIR_CTRL.RESYNC starts a full resync of the partner. -/
  | pairResync (m : Master)
  /-- PAIR_FAILING (R301): PAIR_CTRL.FAILING, or a lockstep failure, sends FAILING, stops toggling and enters FAILED. -/
  | pairFailing (m : Option Master)
  /-- HELLO_TX (R283): A HELLO pair frame is sent every 10 µs in LISTEN and every 1 ms otherwise. -/
  | helloTx (dt : Nat)
  /-- HEARTBEAT_TX (R284): A HEARTBEAT is sent when no frame has been sent for PERIOD. -/
  | heartbeatTx (dt : Nat)
  /-- HEARTBEAT_MISS (R284): No frame arrives for MISS × PERIOD and the partner is lost. -/
  | heartbeatMiss (dt : Nat)
  /-- PAIR_LINK_LOCK (R284): The pair link PCS gains or loses lock; a loss for 0.1 µs loses the partner. -/
  | pairLinkLock (up : Bool) (dt : Nat)
  /-- HELLO_RX (R313): A received HELLO drives the LISTEN transitions and the strap and PAIR_SIG checks. -/
  | helloRx (bs : List Byte) (dt : Nat)
  /-- HEARTBEAT_RX (R291): A received HEARTBEAT updates PAIR_SKEW and the partner's health. -/
  | heartbeatRx (bs : List Byte) (dt : Nat)
  /-- DELTA_RX (R287): The standby receives a DELTA frame and, at its END, acknowledges, stages or discards the delta. -/
  | deltaRx (bs : List Byte) (dt : Nat)
  /-- ACK_RX (R259): The active device receives an ACK and records its status for the emit decision, or handles it late under R27. -/
  | ackRx (bs : List Byte) (dt : Nat)
  /-- OUTCOME_RX (R288): The standby commits or discards the PUBSTATE records of the beat named. -/
  | outcomeRx (bs : List Byte) (dt : Nat)
  /-- DIGEST_RX (R295): The standby compares received slab digests with its own. -/
  | digestRx (bs : List Byte) (dt : Nat)
  /-- NOTICE_RX (R293): A standby creates or removes a template instance from a NOTICE record. -/
  | noticeRx (bs : List Byte) (dt : Nat)
  /-- RESYNC_RX (R303): A standby applies received resync records. -/
  | resyncRx (bs : List Byte) (dt : Nat)
  /-- FAILING_RX (R284): A FAILING frame arrives and the partner is lost. -/
  | failingRx (bs : List Byte) (dt : Nat)
  /-- SLICES_RX (R296): A standby holds the received frozen-slice mask in PAIR_PFROZEN. -/
  | slicesRx (bs : List Byte) (dt : Nat)
  /-- RESYNC_FRAME_SEND (R302): The active device sends a RESYNC frame when the link is otherwise idle, within its rate per beat. -/
  | resyncFrameSend (dt : Nat)
  /-- ACT_IN_TRANSITION (R290): A level change held for 10 ns on ACT_IN_N is registered for the gate and IL_QUIET. -/
  | actInTransition (dt : Nat)
  /-- LISTEN_TMO (R313): LISTEN_TMO passes without HELLO and the device enters SOLO or stays in LISTEN. -/
  | listenTmo (dt : Nat)
  /-- PROBE_DONE (R305): A standby probe item finishes its known-answer sequence. -/
  | probeDone (ok : Bool) (dt : Nat)
  /-- DRIVER_TEST (R306): Once every 4,096 beats a standby drives ACT_OUT_N to the opposite level and reads it back. -/
  | driverTest (readback : Bool)
  /-- DRIVER_TEST_END (R306): After 1.0 µs the standby drives ACT_OUT_N back and reads it back. -/
  | driverTestEnd (readback : Bool)
  /-- TUDEL_ENABLE (R326): A write of TUDEL_CTRL.EN starts the enabled links, or is refused by an invalid forwarding table. -/
  | tudelEnable (m : Master) (d : Nat)
  /-- TUDEL_FACC_READ (R338): TUDEL_FACC READ returns a forwarding entry. -/
  | tudelFaccRead (m : Master)
  /-- TUDEL_FACC_WRITE (R325): TUDEL_FACC WRITE writes a forwarding entry while EN = 0. -/
  | tudelFaccWrite (m : Master)
  /-- TUDEL_FACC_INVALIDATE (R338): TUDEL_FACC INVALIDATE invalidates a forwarding entry. -/
  | tudelFaccInvalidate (m : Master)
  /-- TUDEL_FRZ_GO (R338): A write of TUDEL_FRZ_CMD.GO sends a FREEZE yard frame on a publication. -/
  | tudelFrzGo (m : Master) (d : Nat)
  /-- TUDEL_LOCK (R334): A Tudel link's PCS and FEC lock and the link enters HELLO_WAIT. -/
  | tudelLock (j : Fin 8) (dt : Nat)
  /-- TUDEL_TRAIN_TMO (R334): TRAIN_TMO passes in TRAINING and the link enters ALONE. -/
  | tudelTrainTmo (j : Fin 8) (dt : Nat)
  /-- TUDEL_ALONE_RETRY (R334): After 1 s in ALONE the link retrains. -/
  | tudelAloneRetry (j : Fin 8) (dt : Nat)
  /-- TUDEL_HELLO_TX (R334): A Tudel HELLO is sent every 100 µs in UP and every 10 µs in HELLO_WAIT. -/
  | tudelHelloTx (j : Fin 8) (dt : Nat)
  /-- TUDEL_HELLO_RX (R334): A received Tudel HELLO brings the link UP or MISWIRED and updates its skew. -/
  | tudelHelloRx (j : Fin 8) (bs : List Byte) (crcOk : Bool) (dt : Nat)
  /-- TUDEL_LINK_LOSS (R334): A Tudel link loses lock or receives no frame for 400 µs and returns to TRAINING. -/
  | tudelLinkLoss (j : Fin 8) (lock : Bool) (dt : Nat)
  /-- SQ_TAIL_DOORBELL (R350): A write of SLICE_SQ_TAIL makes new submission entries available for fetch. -/
  | sqTailDoorbell (m : Master) (n : Fin 256) (d : Nat)
  /-- COMMAND_FETCH (R350): The device fetches a slice's next submission entry within its command rate. -/
  | commandFetch (n : Fin 256) (e : Option (List Byte)) (dt : Nat)
  /-- SUBMIT (R212): A SUBMIT command offers a descriptor, which is accepted, held or refused. -/
  | submit (n : Fin 256) (dt : Nat)
  /-- MAC_JOB (R99): A MAC_JOB command queues a MAC job for the verification engines. -/
  | macJob (n : Fin 256) (dt : Nat)
  /-- PK_JOB (R430): A PK_JOB command queues a public-key job in the slice's queue. -/
  | pkJob (n : Fin 256) (dt : Nat)
  /-- FLOW_INSTALL (R349): FLOW_INSTALL writes a runtime flow entry of the slice. -/
  | flowInstall (n : Fin 256) (dt : Nat)
  /-- FLOW_REMOVE (R349): FLOW_REMOVE invalidates a runtime flow entry of the slice. -/
  | flowRemove (n : Fin 256) (dt : Nat)
  /-- FLOW_SET_NEXT (R349): FLOW_SET_NEXT sets KEY_NEXT of a flow owned by the slice. -/
  | flowSetNext (n : Fin 256) (dt : Nat)
  /-- FLOW_STATS (R349): FLOW_STATS returns the counters of a flow owned by the slice. -/
  | flowStats (n : Fin 256) (dt : Nat)
  /-- REPLAY_RESET (R349): REPLAY_RESET empties the replay state of a runtime flow. -/
  | replayReset (n : Fin 256) (dt : Nat)
  /-- ITEM_WRITE (R351): ITEM_WRITE writes a runtime item descriptor, taking effect at the next edge. -/
  | itemWrite (n : Fin 256) (dt : Nat)
  /-- ITEM_INVALIDATE (R349): ITEM_INVALIDATE invalidates a runtime item entry. -/
  | itemInvalidate (n : Fin 256) (dt : Nat)
  /-- KEY_LOAD (R399): KEY_LOAD loads a blob into a key cache entry of the slice. -/
  | keyLoad (n : Fin 256) (dt : Nat)
  /-- KEY_RETIRE (R349): KEY_RETIRE retires a key cache entry of the slice. -/
  | keyRetire (n : Fin 256) (dt : Nat)
  /-- KEY_META (R349): KEY_META returns the metadata of a key cache entry of the slice. -/
  | keyMeta (n : Fin 256) (dt : Nat)
  /-- HIST_READ (R349): HIST_READ copies slice history to host memory. -/
  | histRead (n : Fin 256) (dt : Nat)
  /-- HIST_WRITE (R349): HIST_WRITE copies host memory into slice history and colours its granules. -/
  | histWrite (n : Fin 256) (dt : Nat)
  /-- PROGRAM_LOAD (R173): PROGRAM_LOAD writes history and requests code-cache invalidation at the next edge. -/
  | programLoad (n : Fin 256) (dt : Nat)
  /-- LOFT_FREEZE (R349): LOFT_FREEZE requests a freeze owned by the slice. -/
  | loftFreeze (n : Fin 256) (dt : Nat)
  /-- LOFT_EXPORT (R152): LOFT_EXPORT starts a slice-scoped export of a held freeze. -/
  | loftExport (n : Fin 256) (dt : Nat)
  /-- LOFT_RELEASE (R349): LOFT_RELEASE releases a freeze owned by the slice. -/
  | loftRelease (n : Fin 256) (dt : Nat)
  /-- LOFT_SLOT (R349): LOFT_SLOT returns a freeze slot record. -/
  | loftSlot (n : Fin 256) (dt : Nat)
  /-- DMA_COMMAND_DONE (R351): A slice command that moves data completes and its completion entry is written. -/
  | dmaCommandDone (n : Fin 256) (data : List Byte) (dt : Nat) (ce : Nat := 0) (ue : List Nat := [])
  /-- CQ_HEAD_DOORBELL (R353): A write of SLICE_CQ_HEAD frees completion entries and may raise the vector. -/
  | cqHeadDoorbell (m : Master) (n : Fin 256) (d : Nat)
  /-- EVR_HEAD_DOORBELL (R353): A write of SLICE_EVR_HEAD frees event records and may raise the vector. -/
  | evrHeadDoorbell (m : Master) (n : Fin 256) (d : Nat)
  /-- DR_HEAD_DOORBELL (R348): A write of SLICE_DR_HEAD frees data ring room. -/
  | drHeadDoorbell (m : Master) (n : Fin 256) (d : Nat)
  /-- STAGED_DELIVERY (R361): A staged completion entry or event record is written once delivery is possible. -/
  | stagedDelivery (n : Fin 256) (fault : Option (Fin 3)) (dt : Nat)
  /-- SLICE_ENABLE (R363): A write of SLICE_CTRL.EN enables the queues from index zero, or ends fetching. -/
  | sliceEnable (m : Master) (n : Fin 256) (d : Nat)
  /-- FREEZE (R354): SLICE_MIG_CMD FREEZE freezes the slice from the next edge. -/
  | freeze (m : Master) (n : Fin 256)
  /-- THAW (R343): SLICE_MIG_CMD THAW returns a frozen slice to RUNNING from the next edge. -/
  | thaw (m : Master) (n : Fin 256)
  /-- SAVE (R357): SLICE_MIG_CMD SAVE writes the slice blob to host memory. -/
  | saveSlice (m : Master) (n : Fin 256)
  /-- SAVE_DONE (R357): A SAVE completes or is refused, and the slice returns to FROZEN. -/
  | saveDone (n : Fin 256) (fault : Option Nat) (dt : Nat) (ce : Nat := 0) (ue : List Nat := [])
  /-- RESTORE (R358): SLICE_MIG_CMD RESTORE reads and checks a slice blob. -/
  | restoreSlice (m : Master) (n : Fin 256)
  /-- RESTORE_DONE (R358): A RESTORE is applied or refused and the slice returns to FROZEN, raising epochs. -/
  | restoreDone (n : Fin 256) (b : List Byte) (ok : Bool) (dt : Nat)
  /-- SLICE_CLEAR_DONE (R344): The clearing of a slice at bind or unbind completes. -/
  | sliceClearDone (n : Fin 256) (dt : Nat)
  /-- LTR_SEND (R364): A new LTR message is sent within 10 µs of a change of the smallest HOST_TOL. -/
  | ltrSend (dt : Nat)
  /-- PERST_ASSERT (R365): PERST_N is asserted: the host interface is reset and the function enters D3COLD. -/
  | perstAssert (dt : Nat)
  /-- PERST_DEASSERT (R365): PERST_N is deasserted: PD19 is brought ON and the link trains. -/
  | perstDeassert (dt : Nat)
  /-- FUNCTION_LEVEL_RESET (R341): A Function Level Reset resets the host interface only. -/
  | functionLevelReset (dt : Nat)
  /-- HOT_RESET (R341): A hot reset of the link resets the host interface only. -/
  | hotReset (dt : Nat)
  /-- D3HOT_ENTRY (R365): The host writes D3hot: fetching stops and completions are staged. -/
  | d3hotEntry (dt : Nat)
  /-- D0_ENTRY (R365): The host writes D0 and staged entries are delivered. -/
  | d0Entry (dt : Nat)
  /-- PCIE_LINK_UP (R365): The link reaches L0 with PD19 initialised and the function enters D0. -/
  | pcieLinkUp (dt : Nat)
  /-- GUARD_ENABLE (R385): A write of GUARD_CTRL.EN enables the guards, or is refused for invalid regions or colours. -/
  | guardEnable (m : Master) (d : Nat)
  /-- GUARD_RACC_READ (R386): GUARD_RACC READ returns a slice region entry. -/
  | guardRaccRead (m : Master)
  /-- GUARD_RACC_WRITE (R375): GUARD_RACC WRITE writes a slice region entry while EN = 0. -/
  | guardRaccWrite (m : Master)
  /-- GUARD_RACC_INVALIDATE (R386): GUARD_RACC INVALIDATE invalidates a slice region entry. -/
  | guardRaccInvalidate (m : Master)
  /-- FILL (R373): GUARD_TAG_CMD FILL writes a colour into the tags of a range. -/
  | fillTags (m : Master) (colour : Nat)
  /-- TAG_READ (R386): GUARD_TAG_CMD READ returns the tag of a granule. -/
  | tagRead (m : Master) (colour : Nat)
  /-- REP_POP (R386): A write of GUARD_REP_POP discards the oldest report record. -/
  | repPop (m : Master) (d : Nat)
  /-- POL_CLR (R384): A write of GUARD_POL.CLR zeroes COUNT and clears ARMED. -/
  | polClr (m : Master) (n : Fin 256) (d : Nat)
  /-- VAULT_ENABLE (R404): A write of VAULT_CTRL.EN enables vault commands, or is refused for a bad migration slot. -/
  | vaultEnable (m : Master) (d : Nat)
  /-- VAULT_LOAD (R399): Vault command LOAD loads a blob into a key cache entry. -/
  | vaultLoad (m : Master)
  /-- LOAD_PLAIN (R623): Vault command LOAD_PLAIN loads plain key material and writes its blob. -/
  | loadPlain (m : Master)
  /-- GENERATE (R623): Vault command GENERATE draws a key into an entry and writes its blob. -/
  | generate (m : Master)
  /-- WRAP_OUT (R397): Vault command WRAP_OUT writes a blob of an entry's key. -/
  | wrapOut (m : Master)
  /-- ATTEST (R405): Vault command ATTEST writes a signed attestation statement. -/
  | attest (m : Master)
  /-- SLOT_GEN (R394): Vault command SLOT_GEN generates a key into a persistent slot under dual control. -/
  | slotGen (m : Master)
  /-- SLOT_IMPORT (R394): Vault command SLOT_IMPORT imports a blob into a persistent slot under dual control. -/
  | slotImport (m : Master)
  /-- SLOT_META (R403): Vault command SLOT_META returns a slot's metadata and load state. -/
  | slotMeta (m : Master)
  /-- RNG_READ (R403): Vault command RNG_READ writes DRBG bytes to the destination. -/
  | rngRead (m : Master)
  /-- RESEED (R403): Vault command RESEED reseeds a DRBG instance. -/
  | reseed (m : Master)
  /-- CERT_READ (R391): Vault command CERT_READ returns the slot 0 certificate when its digest matches. -/
  | certRead (m : Master)
  /-- VAULT_CMD_DONE (R403): A vault command ends with its code and releases its power holds. -/
  | vaultCmdDone (src : Option (List Byte)) (ok : Bool) (dt : Nat)
  /-- HOLD_BOUND_EXPIRY (R416): A hold outlasts the bound of its command or job, which ends with HOLD_TIMEOUT. -/
  | holdBoundExpiry (e : Option (Fin 8)) (dt : Nat)
  /-- VAULT_START_DONE (R418): The vault start sequence completes: root key, derivations, tests, sources, DRBGs and slots. -/
  | vaultStartDone (kat : Option Nat) (bad : List (Fin 4 × Bool)) (dt : Nat)
  /-- NOISE_HEALTH_TEST (R410): Raw noise bits pass the repetition count and adaptive proportion tests, and a failure removes or counts the source. -/
  | noiseHealthTest (j : Fin 4) (bits : List Bool) (dt : Nat)
  /-- RNG_RETEST (R411): After RETEST seconds a removed source runs its start-up test and may be readmitted. -/
  | rngRetest (j : Fin 4) (dt : Nat)
  /-- DRBG_RESEED (R413): An instance near 2^20 requests reseeds itself in the background. -/
  | drbgReseed (j : Fin 258) (dt : Nat)
  /-- RNG_RAW_READ (R409): A read of VAULT_RNG_RAW returns 32 raw bits of the selected source when allowed. -/
  | rngRawRead (m : Master) (bits : Word)
  /-- PK_SIGN (R426): A SIGN job signs a message or digest and verifies the signature before release. -/
  | pkSign (e : Fin 8) (blob msg : List Byte) (ok good : Bool) (dt : Nat)
  /-- PK_VERIFY (R426): A VERIFY job verifies a signature against a public key. -/
  | pkVerify (e : Fin 8) (peer msg sig : List Byte) (ok : Bool) (dt : Nat)
  /-- PK_KEYGEN (R426): A KEYGEN job draws and self-tests a key pair and writes its public form and blob. -/
  | pkKeygen (e : Fin 8) (ok good : Bool) (dt : Nat)
  /-- PK_DERIVE (R426): A DERIVE job validates the peer key and computes a shared secret. -/
  | pkDerive (e : Fin 8) (blob peer : List Byte) (ok good : Bool) (dt : Nat)
  /-- PK_ATTEST (R426): An ATTEST job builds an attestation statement for an entry or blob of the slice. -/
  | pkAttest (e : Fin 8) (blob nonce : List Byte) (ok good : Bool) (dt : Nat)
  /-- PK_RANDOM (R426): A RANDOM job draws bytes from the DRBG. -/
  | pkRandom (e : Fin 8) (ok : Bool) (dt : Nat)
  /-- PK_JOB_TIMEOUT (R430): A job not started within VAULT_PK_CFG.TMO ends with TIMEOUT. -/
  | pkJobTimeout (j : Nat) (dt : Nat)
  /-- CHALLENGE (R437): VAULT_DC_CMD CHALLENGE draws and holds a 32-byte challenge, or is refused with CHAL_FULL. -/
  | challenge (m : Master) (d : Nat)
  /-- CANCEL (R437): VAULT_DC_CMD CANCEL drops every open challenge. -/
  | cancelChal (m : Master) (d : Nat)
  /-- CHALLENGE_EXPIRY (R437): An open challenge expires WINDOW seconds after it was drawn. -/
  | challengeExpiry (dt : Nat)
  /-- IMAGE_ACCEPT (R544): An IMAGE_ACCEPT envelope is checked and accepts a slot on trial in the boot record. -/
  | imageAccept (e : List Byte) (dt : Nat)
  /-- KEY_IMPORT (R440): A KEY_IMPORT envelope runs SLOT_GEN or SLOT_IMPORT under dual control. -/
  | keyImport (e : List Byte) (src : Option (List Byte)) (ok : Bool) (dt : Nat)
  /-- SLICE_BIND (R440): A SLICE_BIND envelope binds an UNBOUND slice to a tenant. -/
  | sliceBind (e : List Byte) (dt : Nat)
  /-- SLICE_UNBIND (R440): A SLICE_UNBIND envelope unbinds a slice. -/
  | sliceUnbind (e : List Byte) (dt : Nat)
  /-- TRIP_SET (R442): A TRIP_SET envelope makes a change of a TRIP item's ARGS pending for its effective beat. -/
  | tripSet (e : List Byte) (dt : Nat)
  /-- LIFE_TRANSITION (R452): A LIFE_TRANSITION envelope starts the OTP programming of a life-cycle transition. -/
  | lifeTransition (e : List Byte) (dt : Nat)
  /-- TAMPER_REARM (R470): A TAMPER_REARM envelope clears the records of reviewed sources and releases LOCKED and ALERT_N. -/
  | tamperRearm (e : List Byte) (dt : Nat)
  /-- LEDGER_CLEAR (R495): A LEDGER_CLEAR envelope starts the clear of exported ledger slots. -/
  | ledgerClear (e : List Byte) (dt : Nat)
  /-- CUST_IDX_WRITE (R446): A write of VAULT_CUST_IDX latches a custodian entry into CUST_DATA. -/
  | custIdxWrite (m : Master) (d : Nat)
  /-- TO_BENCH (R451): LIFE_CMD TO_BENCH starts the transition from BLANK to BENCH with its token. -/
  | toBench (m : Master)
  /-- SET_DIGEST (R451): LIFE_CMD SET_DIGEST programs a FIELD, RETURN, SCRAP or owner debug digest in BENCH. -/
  | setDigest (m : Master) (ok : Bool)
  /-- DBG_END (R462): LIFE_CMD DBG_END ends the debug grant in force. -/
  | dbgEnd (m : Master)
  /-- TO_SCRAP (R451): LIFE_CMD TO_SCRAP starts the transition from BLANK to SCRAP with its token. -/
  | toScrap (m : Master)
  /-- OTP_TRANSITION_DONE (R450): The third OTP copy is written and the life-cycle transition takes effect, ending debug grants. -/
  | otpTransitionDone (failed : Option (Fin 3)) (dt : Nat)
  /-- SCRAP_RESET (R453): 1 ms after entry into SCRAP a warm reset starts. -/
  | scrapReset (dt : Nat)
  /-- TAMPER_OCCURRENCE (R465): A tamper source's condition begins, and the source triggers when its N-th occurrence falls within WINDOW. -/
  | tamperOccurrence (n : Option (Fin 32)) (param : Nat) (ended : List (Fin 32)) (dt : Nat)
  /-- REFCLK_LOSS (R464): REFCLK_LOW persists for 2 µs and the clocks of every domain but AON and BKP stop. -/
  | refclkLoss (dt : Nat)
  /-- REFCLK_RECOVERED (R464): REFCLK_SYS has been within limits for 1 ms after a loss and a warm reset starts. -/
  | refclkRecovered (dt : Nat)
  /-- INV_FIELD_READ (R469): A read of an INV field compares it with its inverted shadow and takes the safe value on a mismatch. -/
  | invFieldRead (m : Master) (a : Nat)
  /-- TAMP_ENABLE (R472): A write of TAMP_CTRL.EN applies the source configuration; EN = 0 is ignored in BENCH, FIELD and RETURN. -/
  | tampEnable (m : Master) (d : Nat)
  /-- GRANT_EXPIRY (R462): A debug grant's DURATION passes on the vault timer and the grant ends. -/
  | grantExpiry (dt : Nat)
  /-- IDCODE (R459): TAP instruction IDCODE selects the identification register. -/
  | idcode
  /-- EXTEST (R459): TAP instruction EXTEST drives boundary-scan values, at SCAN level. -/
  | extest (v : Nat)
  /-- SAMPLE_PRELOAD (R459): TAP instruction SAMPLE/PRELOAD samples or preloads the boundary register. -/
  | samplePreload (pins v : Nat)
  /-- CLAMP (R459): TAP instruction CLAMP, at SCAN level. -/
  | clamp
  /-- HIGHZ (R459): TAP instruction HIGHZ, at SCAN level. -/
  | highz
  /-- EXTEST_PULSE (R459): TAP instruction EXTEST_PULSE of IEEE 1149.6, at SCAN level. -/
  | extestPulse (v : Nat)
  /-- EXTEST_TRAIN (R459): TAP instruction EXTEST_TRAIN of IEEE 1149.6, at SCAN level. -/
  | extestTrain (v : Nat)
  /-- DBG_CHAL (R460): TAP instruction DBG_CHAL shifts out a fresh 32-byte debug challenge. -/
  | dbgChal
  /-- DBG_RESP (R461): TAP instruction DBG_RESP shifts in a grant block, which is checked and accepted or refused. -/
  | dbgResp (b : List Byte)
  /-- DBG_STATUS (R459): TAP instruction DBG_STATUS reads LIFE_STATE and LIFE_DBG. -/
  | dbgStatus
  /-- DBG_ACCESS (R555): TAP instruction DBG_ACCESS reaches registers through the debug port at OBSERVE or above. -/
  | dbgAccess (wr : Bool) (a d : Nat) (ok : Bool)
  /-- BYPASS (R459): TAP instruction BYPASS, also selected by any instruction beyond the level in force. -/
  | bypass
  /-- TAP_RESET (R592): TRST_N low resets the TAP. -/
  | tapReset
  /-- EVT_CLAIM (R478): A read of EVT_CLAIM returns the winning source, pushes it on the stack and clears its pending bit. -/
  | evtClaim (m : Master)
  /-- EVT_EOI (R479): A write of EVT_EOI pops the source at the top of the stack, or records an order fault. -/
  | evtEoi (m : Master) (src : Nat)
  /-- FW_EVENT (R475): A write of EVT_FW_CODE raises a firmware event with its parameters. -/
  | fwEvent (m : Master) (code : Nat)
  /-- SOFT_RAISE (R476): A write of EVT_SOFT raises firmware interrupt sources. -/
  | softRaise (m : Master) (mask : Nat)
  /-- EVT_ENABLE (R498): A write of EVT_CTRL.EN enables the yardmaster interrupt line. -/
  | evtEnable (m : Master) (d : Nat)
  /-- LDG_ENABLE (R492): A write of EVT_CTRL.LDG_EN = 1 starts ledger recovery and flash programming. -/
  | ldgEnable (m : Master) (d : Nat)
  /-- LEDGER_RECOVERY_DONE (R492): Ledger recovery finds the write position, writing a RECOVERY record after a torn slot. -/
  | ledgerRecoveryDone (agree : Bool)
  /-- LEDGER_PROGRAM_DONE (R488): One ledger slot is programmed from the buffer and the next starts. -/
  | ledgerProgramDone
  /-- FOLD_EXPIRY (R487): FOLD_MS passes since the open ledger record opened and it closes, with a closing copy when folded. -/
  | foldExpiry (dt : Nat)
  /-- EVENT_RING_WRITE (R483): A slice event record is written to the slice's event ring within 10 µs of its event. -/
  | eventRingWrite (n : Fin 256)
  /-- LDG_RD_LATCH (R499): A write of LDG_RD_IDX latches a ledger slot into LDG_RD_DATA. -/
  | ldgRdLatch (m : Master) (k : Nat)
  /-- LDG_EXPORT_GO (R493): A write of LDG_EXP_CMD.GO starts a ledger export. -/
  | ldgExportGo (m : Master) (d : Nat)
  /-- LDG_EXPORT_DONE (R493): A ledger export finishes and writes its manifest. -/
  | ldgExportDone (fault : Bool)
  /-- LEDGER_ERASE_DONE (R495): A sector erase of a ledger clear completes and the next starts, or the CLEARED record is written. -/
  | ledgerEraseDone
  /-- PWR_ENABLE (R518): A write of PWR_CTRL.EN starts power control, or is refused for an invalid FLOOR. -/
  | pwrEnable (m : Master) (d : Nat)
  /-- TOLERANCE_CHANGE (R504): A change of any tolerance source re-evaluates a domain's target within 1 µs and starts any wake. -/
  | toleranceChange (d : Fin 20) (l1 : Bool) (src dt : Nat)
  /-- DWELL_EXPIRY (R505): A lower target has held for DWELL µs and the domain starts its entry. -/
  | dwellExpiry (d : Fin 20) (dt : Nat)
  /-- DOMAIN_ENTRY_DONE (R501): A domain reaches a lower power state. -/
  | domainEntryDone (d : Fin 20) (dt : Nat)
  /-- DOMAIN_WAKE_DONE (R508): A domain returns to ON and waiting accesses proceed. -/
  | domainWakeDone (d : Fin 20) (dt : Nat)
  /-- YM_WFI (R507): Both yardmaster cores execute WFI with no source qualifying and PD20 enters GATED. -/
  | ymWfi
  /-- BANK_IDLE_EXPIRY (R510): A bank idle for BANK_IDLE (or 16 × BANK_IDLE) beats is placed in RETAIN or OFF. -/
  | bankIdleExpiry (p : Fin 68) (j : Fin 32) (dt : Nat)
  /-- TEMP_SAMPLE (R512): The junction sensors are read every 100 µs and the thermal warning is set or released. -/
  | tempSample (tj : Int) (sensor : Fin 64) (dt : Nat)
  /-- METER_LATCH_MS (R514): While the beat is disabled the energy meters latch every 1 ms. -/
  | meterLatchMs (e : Meters) (dt : Nat)
  /-- SMTR_LATCH (R519): A write of PWR_SMTR_IDX latches a slice's meters. -/
  | smtrLatch (m : Master) (n : Nat)
  /-- POR_ASSERT (R589): POR_N held low with rails in range resets the device. -/
  | porAssert (off : Bool) (lost : Option (BitVec 64)) (dt : Nat)
  /-- POR_RELEASE (R523): POR_N is released: OTP is voted, the canary checked, the boot record read and a slot chosen. -/
  | porRelease (mode : Fin 4) (strapB flashOk : Bool) (dt : Nat)
  /-- WRST_ASSERT (R588): A low pulse of WRST_N of at least 1 µs starts a warm reset. -/
  | wrstAssert (dt : Nat)
  /-- WRST_RELEASE (R526): The warm reset is released and the start of R523 runs with its differences. -/
  | wrstRelease (mode : Fin 4) (strapB flashOk : Bool) (dt : Nat)
  /-- BOOT_OPERATIONAL (R523): Image loading and enables complete and OPERATIONAL is set, or the slot is refused. -/
  | bootOperational (readOk failA failB : Bool) (romBad : List (Fin 68)) (dt : Nat)
  /-- ERASE (R553): GLB_IMG_CMD ERASE erases an image slot and makes its descriptor EMPTY. -/
  | eraseImg (m : Master) (d : Nat)
  /-- IMG_WRITE (R553): GLB_IMG_CMD WRITE programs bytes into a slot, or a boot record copy in RECOVERY. -/
  | imgWrite (m : Master) (d : Nat)
  /-- IMG_DIGEST (R553): GLB_IMG_CMD DIGEST computes IMAGE_DIGEST of a slot. -/
  | imgDigest (m : Master) (d : Nat)
  /-- CONFIRM (R548): GLB_IMG_CMD CONFIRM confirms the image on trial, raising floors and installing its custodians. -/
  | confirm (m : Master) (d : Nat)
  /-- PREFER (R553): GLB_IMG_CMD PREFER makes a CONFIRMED slot preferred. -/
  | preferImg (m : Master) (d : Nat)
  /-- RESTART (R545): GLB_IMG_CMD RESTART starts a warm reset and leaves RECOVERY. -/
  | restartImg (m : Master) (d : Nat)
  /-- IMG_CMD_DONE (R553): A flash image command completes or fails with its ERR code. -/
  | imgCmdDone (data : Option (List Byte)) (ok : Bool) (dt : Nat)
  /-- CONFIRM_AUTO_EXPIRY (R548): GLB_CONFIRM_LEFT reaches zero with CONFIRM_AUTO = 1 and the trial image is confirmed. -/
  | confirmAutoExpiry (dt : Nat)
  /-- REGISTER_WRITE (R559): A write to a register with no row of its own takes effect under its access codes and gating enable, setting WIGN when RWD fields would change. -/
  | registerWrite (m : Master) (a d len : Nat) (whole ok : Bool)
  /-- LOW_WORD_READ (R562): A read of the low word of an RLH register latches the high word into that master's shadow. -/
  | lowWordRead (m : Master) (a dt : Nat)
  /-- READ_CLEAR (R12): A read of an RC field returns its value and clears it, except from the debug port. -/
  | readClear (m : Master) (a : Nat)
  /-- TMR_SCRUB (R564): The background scrub votes every TMR field at least once every 1 ms and rewrites disagreeing copies. -/
  | tmrScrub (dt : Nat)
  /-- MTEST_ENABLE (R613): A write of MTEST_CTRL.EN starts memory test and repair, or is refused for a zero setting. -/
  | mtestEnable (m : Master) (d : Nat)
  /-- MTEST_STEP (R608): Memory test saves, tests and restores one 256-byte region and repairs a defective word. -/
  | mtestStep (u : MemUnit) (fault : Option Nat) (last : Bool) (dt : Nat)
  /-- AGE_TICK (R606): Once an hour IDENT_AGE_H advances by the temperature factor and IDENT_POH_H by one. -/
  | ageTick (dt : Nat)
  /-- AGE_LOG_EXPIRY (R607): Every AGE_LOG_H hours the age counters are recorded in the ledger. -/
  | ageLogExpiry (dt : Nat)
  /-- PK_CMD_GO (R446): A write of VAULT_PK_CMD.GO queues the descriptor in VAULT_PK_DESC as a platform public-key job. -/
  | pkCmdGo (m : Master) (d : Nat)
  /-- REGISTER_READ_REFUSED (R566): A host or yardmaster register read that meets a domain not ON, or breaks the size rules of R556, returns zero, sets DOM_OFF or SIZE, records GLB_ACC_ADDR and counts in GLB_ACC_CNT. -/
  | registerReadRefused (m : Master) (a len : Nat)
  /-- PE_REFCLK_CHANGE (R368): PE_REFCLK appears or disappears, so that the PCIe link can or cannot train. -/
  | peRefclkChange (present : Bool) (dt : Nat)
  deriving DecidableEq, Repr

end Sys2Proof
end

