-- ==== Sys2Proof/Config.lean ====
section
/-! DEFINITION. What an implementation fixes and the values the spec leaves open: opaque constants, which no proof can
look into. Cryptographic algorithms and other quantities of the standards that the spec cites, and does not itself
state, stand here too (assumption log 6). -/

namespace Sys2Proof.Config

/-- A free value: any number at all, a fresh one for each use (State.free names the use; assumption log 5). -/
opaque freeValue : Nat → Nat

/-- SHA-256, SHA-384 (FIPS 180-4) of a byte list. -/
opaque sha256 : List Byte → List Byte
opaque sha384 : List Byte → List Byte

/-- An ECDSA P-384 signature with the key of a vault slot over bytes: 96 bytes, r then s. -/
opaque ecdsaP384Sign : (slot : Nat) → List Byte → List Byte

/-- HMAC-SHA256 (FIPS 198-1) under a key over bytes. -/
opaque hmacSha256 : (key : List Byte) → List Byte → List Byte

/-- AES key wrap with padding (SP 800-38F) of bytes under a key, and its inverse: none when it does not verify. -/
opaque kwpWrap : (key : List Byte) → List Byte → List Byte
opaque kwpUnwrap : (key : List Byte) → List Byte → Option (List Byte)

/-- The private material of a key type (R424) that a DRBG output, given as a number, leads to. -/
opaque drawnKey : (ktype draw : Nat) → List Byte

/-- The public form of a private key (R424), and whether an RSA private key is consistent. -/
opaque publicForm : (ktype : Nat) → List Byte → List Byte
opaque rsaKeyOk : List Byte → Bool

/-- The signature of an algorithm of R423 under a private key over a message (or its digest, when prehashed), with the
random values that a number stands for; and its verification under a public form. -/
opaque pkSignature : (alg : Nat) → (prehashed : Bool) → (key msg : List Byte) → (draw : Nat) → List Byte
opaque pkVerifies : (alg : Nat) → (prehashed : Bool) → (pub msg sig : List Byte) → Bool

/-- A public form is valid under R427 for an algorithm; the shared secret of a private key with it. -/
opaque peerValid : (alg : Nat) → List Byte → Bool
opaque sharedSecret : (alg : Nat) → (key peer : List Byte) → List Byte

/-- Hexmeko's JEDEC manufacturer code, which the BSDL file gives (R459). -/
opaque jedecCode : Nat

/-- The fixed value of mtvec (R187), which the spec does not give. -/
opaque mtvec : Nat

/-- A supervision frame of IEC 62439-3 for a MAC address, a mode (1 PRP, 2 HSR) and a sequence number (R61). -/
opaque supervisionFrame : (mac mode seq : Nat) → List Byte

/-- The check value of a span under an algorithm of R84 (code 1 to 7), key and IV: the standards of its table. -/
opaque checkValue : (alg : Nat) → (key iv span : List Byte) → List Byte

/-- The security extension of IEC 62351-6 in a PDU of a transport (0 layer 2, 1 and 2 UDP): none when it is absent or
malformed. -/
opaque iecSec : (transport : Nat) → List Byte → Option Sec

/-- The APDU of IEC 61850 in a PDU of a kind and transport: none when it does not parse. -/
opaque iecApdu : (kind transport : Nat) → List Byte → Option Apdu

/-- Length, Reserved 1 and Reserved 2 of IEC 61850-8-1 between the APPID and an APDU of ours, as one number of 48 bits: for the
simulation bit and the bytes of the APDU and of its security extension. -/
opaque iecWords : (sim : Bool) → (apdu ext : Nat) → BitVec 48

/-- The security extension of IEC 62351-6 up to the last byte before the check value: for a key identifier, algorithm, time of
formation in ns and IV. -/
opaque iecExt : (keyId alg time : Nat) → (iv : List Byte) → List Byte

/-- Kind (1 GOOSE, 2 SV) and APPID of an IEC 61850-90-5 session header. -/
opaque iec905 : List Byte → Option (Nat × Nat)

end Sys2Proof.Config
end

