-- ==== Sys2Proof/Machine/Maps.lean ====
section
/-! DEFINITION. Sparse tables keyed by number, in one canonical form: keys strictly rising, and no entry equal to what
an unlisted key reads as. Byte memories (Host.Cell lists) are such tables. -/

namespace Sys2Proof

/-- A sparse table: entries by rising key. -/
abbrev Table (α : Type) := List (Nat × α)

/-- What key `k` reads as; `d` where unlisted. -/
def Table.at {α : Type} (d : α) (k : Nat) : Table α → α
  | [] => d
  | (k', v) :: t => if k' = k then v else Table.at d k t

/-- The entry of key `k`, if listed. -/
def Table.find {α : Type} (k : Nat) : Table α → Option α
  | [] => none
  | (k', v) :: t => if k' = k then some v else Table.find k t

/-- Without key `k`. -/
def Table.erase {α : Type} (k : Nat) : Table α → Table α
  | [] => []
  | (k', v) :: t => if k' = k then Table.erase k t else (k', v) :: Table.erase k t

/-- With key `k` listed at its place. -/
def Table.insert {α : Type} (k : Nat) (v : α) : Table α → Table α
  | [] => [(k, v)]
  | (k', v') :: t =>
    if k < k' then (k, v) :: (k', v') :: t
    else if k = k' then (k, v) :: t
    else (k', v') :: Table.insert k v t

/-- Write `v` at `k`, keeping the canonical form: the default value is never listed. -/
def Table.put {α : Type} [DecidableEq α] (d : α) (k : Nat) (v : α) (t : Table α) : Table α :=
  if v = d then Table.erase k t else Table.insert k v t

/-- Change the entry at `k`. -/
def Table.modify {α : Type} [DecidableEq α] (d : α) (k : Nat) (f : α → α) (t : Table α) : Table α :=
  Table.put d k (f (Table.at d k t)) t

/-- Keys strictly rise. -/
def Table.sorted {α : Type} : Table α → Bool
  | [] => true
  | (k, _) :: t => (t.all fun e => decide (k < e.1)) && Table.sorted t

/-- The canonical form: keys strictly rise and no entry is the default. -/
def Table.wf {α : Type} [DecidableEq α] (d : α) (t : Table α) : Bool :=
  Table.sorted t && t.all fun e => decide (e.2 ≠ d)

/-- A byte memory. -/
abbrev Memory := List Host.Cell

/-- The canonical form of a byte memory whose unlisted bytes read `d`. -/
abbrev Memory.wf (d : Byte) (m : Memory) : Bool := Table.wf d m

/-- One byte. -/
def Memory.byte (d : Byte) (m : Memory) (a : Nat) : Byte := Table.at d a m

/-- `n` bytes from `a`. -/
def Memory.bytes (d : Byte) (m : Memory) (a : Nat) : Nat → List Byte
  | 0 => []
  | n + 1 => Memory.byte d m a :: Memory.bytes d m (a + 1) n

/-- Store bytes from `a`. -/
def Memory.store (d : Byte) (m : Memory) (a : Nat) : List Byte → Memory
  | [] => m
  | b :: bs => Memory.store d (Table.put d a b m) (a + 1) bs

/-- Without the bytes of `[a, a + n)`: they read as unlisted bytes do. -/
def Memory.clear (m : Memory) (a n : Nat) : Memory := m.filter fun c => decide (c.1 < a ∨ a + n ≤ c.1)

/-- Tags of granules, as ranges written (first granule, granules, tag), newest first; a granule in no range reads 0x00
(R371, R373). -/
abbrev TagMap := List (Nat × Nat × Nat)

/-- The tag of granule `g`. -/
def TagMap.get (g : Nat) : TagMap → Nat
  | [] => 0
  | (lo, n, v) :: t => if lo ≤ g ∧ g < lo + n then v else TagMap.get g t

/-- Write tag `v` to `n` granules from `lo`; ranges that the new one covers are dropped. -/
def TagMap.set (lo n v : Nat) (m : TagMap) : TagMap :=
  if n = 0 then m else (lo, n, v) :: m.filter fun r => !decide (lo ≤ r.1 ∧ r.1 + r.2.1 ≤ lo + n)

end Sys2Proof
end

