-- ==== Sys2Proof/Machine/RegMap.lean ====
section
/-! DEFINITION. The register fields and registers of the DL9612, transcribed row by row from the register tables
of spec/01 to spec/21 (R12 to R14 give the meaning of the columns, R569 the block bases). A field whose row
states no reset value resets to zero (assumption log 2). -/

namespace Sys2Proof.Machine

namespace F

/-! Block IDENT, base 0x0. -/
def DEVID : Fld := ⟨0x0, 0, 32, 2517762209, .ro, .po, .none, 4⟩
def IDENT_COMPAT : Fld := ⟨0x4, 0, 8, 1, .ro, .po, .tmr, 4⟩
def IDENT_POH_H : Fld := ⟨0x8, 0, 32, 0, .ro, .bk, .none, 4⟩
def IDENT_AGE_H : Fld := ⟨0xC, 0, 32, 0, .ro, .bk, .none, 4⟩
def IDENT_ERASE_IMG : Fld := ⟨0x10, 0, 32, 0, .ro, .bk, .none, 4⟩
def IDENT_ERASE_KEY : Fld := ⟨0x14, 0, 32, 0, .ro, .bk, .none, 4⟩
def IDENT_ERASE_LDG : Fld := ⟨0x18, 0, 32, 0, .ro, .bk, .none, 4⟩
def IDENT_ERASE_BOOT : Fld := ⟨0x1C, 0, 32, 0, .ro, .bk, .none, 4⟩
def IDENT_STATUS : Fld := ⟨0x20, 0, 1, 0, .w1c, .bk, .none, 4⟩
def GLB_ACC_STATUS_DBG_WRITE : Fld := ⟨0x40, 3, 1, 0, .w1c, .wr, .none, 4⟩
def GLB_ACC_STATUS_DOM_OFF : Fld := ⟨0x40, 2, 1, 0, .w1c, .wr, .none, 4⟩
def GLB_ACC_STATUS_SIZE : Fld := ⟨0x40, 1, 1, 0, .w1c, .wr, .none, 4⟩
def GLB_ACC_STATUS_VOTE : Fld := ⟨0x40, 0, 1, 0, .w1c, .st, .none, 4⟩
def GLB_ACC_ADDR_MASTER : Fld := ⟨0x44, 30, 2, 0, .ro, .wr, .none, 4⟩
def GLB_ACC_ADDR_WRITE : Fld := ⟨0x44, 29, 1, 0, .ro, .wr, .none, 4⟩
def GLB_ACC_ADDR_BAR2 : Fld := ⟨0x44, 28, 1, 0, .ro, .wr, .none, 4⟩
def GLB_ACC_ADDR_CAUSE : Fld := ⟨0x44, 26, 2, 0, .ro, .wr, .none, 4⟩
def GLB_ACC_ADDR_OFFSET : Fld := ⟨0x44, 0, 26, 0, .ro, .wr, .none, 4⟩
def GLB_VOTE_ADDR_BAR2 : Fld := ⟨0x48, 28, 1, 0, .ro, .st, .none, 4⟩
def GLB_VOTE_ADDR_OFFSET : Fld := ⟨0x48, 0, 26, 0, .ro, .st, .none, 4⟩
def GLB_VOTE_CNT : Fld := ⟨0x50, 0, 64, 0, .rlh, .st, .none, 4⟩
def GLB_ACC_CNT : Fld := ⟨0x58, 0, 64, 0, .rlh, .wr, .none, 4⟩
def GLB_BOOT_STATUS_SVN : Fld := ⟨0x100, 16, 8, 0, .ro, .wr, .none, 4⟩
def GLB_BOOT_STATUS_REC_REPAIRED : Fld := ⟨0x100, 12, 1, 0, .w1c, .wr, .none, 4⟩
def GLB_BOOT_STATUS_NO_FLASH : Fld := ⟨0x100, 11, 1, 0, .ro, .wr, .none, 4⟩
def GLB_BOOT_STATUS_BOOT_MODE : Fld := ⟨0x100, 9, 2, 0, .ro, .wr, .none, 4⟩
def GLB_BOOT_STATUS_OPERATIONAL : Fld := ⟨0x100, 8, 1, 0, .ro, .wr, .none, 4⟩
def GLB_BOOT_STATUS_FALLBACK : Fld := ⟨0x100, 7, 1, 0, .ro, .st, .none, 4⟩
def GLB_BOOT_STATUS_TRIAL : Fld := ⟨0x100, 6, 1, 0, .ro, .wr, .none, 4⟩
def GLB_BOOT_STATUS_SLOT : Fld := ⟨0x100, 4, 2, 3, .ro, .wr, .none, 4⟩
def GLB_BOOT_STATUS_PHASE : Fld := ⟨0x100, 0, 4, 0, .ro, .wr, .none, 4⟩
def GLB_BOOT_TIME : Fld := ⟨0x104, 0, 16, 0, .ro, .wr, .none, 4⟩
def GLB_BOOT_CAUSE_DETAIL : Fld := ⟨0x108, 16, 16, 0, .ro, .st, .none, 4⟩
def GLB_BOOT_CAUSE_CAUSE : Fld := ⟨0x108, 8, 8, 0, .ro, .st, .none, 4⟩
def GLB_BOOT_CAUSE_SLOT : Fld := ⟨0x108, 0, 2, 0, .ro, .st, .none, 4⟩
def GLB_IMG_FLOOR_FW_FLOOR : Fld := ⟨0x10C, 16, 6, 0, .ro, .po, .none, 4⟩
def GLB_IMG_FLOOR_FLOOR : Fld := ⟨0x10C, 0, 7, 0, .ro, .po, .none, 4⟩
def GLB_IMG_SLOTA_PREFERRED : Fld := ⟨0x110, 16, 1, 0, .ro, .wr, .none, 4⟩
def GLB_IMG_SLOTA_SVN : Fld := ⟨0x110, 8, 8, 0, .ro, .wr, .none, 4⟩
def GLB_IMG_SLOTA_TRIES_LEFT : Fld := ⟨0x110, 4, 2, 0, .ro, .wr, .none, 4⟩
def GLB_IMG_SLOTA_STATE : Fld := ⟨0x110, 0, 2, 0, .ro, .wr, .none, 4⟩
def GLB_IMG_SLOTB_PREFERRED : Fld := ⟨0x114, 16, 1, 0, .ro, .wr, .none, 4⟩
def GLB_IMG_SLOTB_SVN : Fld := ⟨0x114, 8, 8, 0, .ro, .wr, .none, 4⟩
def GLB_IMG_SLOTB_TRIES_LEFT : Fld := ⟨0x114, 4, 2, 0, .ro, .wr, .none, 4⟩
def GLB_IMG_SLOTB_STATE : Fld := ⟨0x114, 0, 2, 0, .ro, .wr, .none, 4⟩
def GLB_IMG_CMD_BUSY : Fld := ⟨0x120, 31, 1, 0, .ro, .wr, .none, 4⟩
def GLB_IMG_CMD_ERR : Fld := ⟨0x120, 24, 7, 0, .ro, .wr, .none, 4⟩
def GLB_IMG_CMD_SLOT : Fld := ⟨0x120, 8, 2, 0, .rw, .wr, .none, 4⟩
def GLB_IMG_CMD_HOST : Fld := ⟨0x120, 5, 1, 0, .rw, .wr, .none, 4⟩
def GLB_IMG_CMD_OP : Fld := ⟨0x120, 0, 4, 0, .wo, .wr, .none, 4⟩
def GLB_IMG_SRC : Fld := ⟨0x124, 0, 64, 0, .rw, .wr, .none, 4⟩
def GLB_IMG_OFS : Fld := ⟨0x12C, 0, 27, 0, .rw, .wr, .none, 4⟩
def GLB_IMG_LEN : Fld := ⟨0x130, 0, 25, 0, .rw, .wr, .none, 4⟩
def GLB_IMG_DIGESTn : Fld := ⟨0x140, 0, 32, 0, .ro, .wr, .none, 4⟩
def GLB_PAIR_SIGn : Fld := ⟨0x180, 0, 32, 0, .ro, .wr, .none, 4⟩
def GLB_CONFIRM_LEFT : Fld := ⟨0x1B0, 0, 16, 0, .ro, .wr, .none, 4⟩
/-! Block BEAT, base 0x100000. -/
def BEAT_CTRL_RESEAT : Fld := ⟨0x100000, 2, 1, 0, .w1s, .wr, .none, 4⟩
def BEAT_CTRL_PPS_OUT_EN : Fld := ⟨0x100000, 1, 1, 0, .rwd, .wr, .none, 4⟩
def BEAT_CTRL_EN : Fld := ⟨0x100000, 0, 1, 0, .rw, .wr, .none, 4⟩
def BEAT_STATUS_CFG_ERR : Fld := ⟨0x100004, 8, 1, 0, .ro, .wr, .none, 4⟩
def BEAT_STATUS_RESEAT_BUSY : Fld := ⟨0x100004, 7, 1, 0, .ro, .wr, .none, 4⟩
def BEAT_STATUS_PPS_SEEN : Fld := ⟨0x100004, 6, 1, 0, .w1c, .wr, .none, 4⟩
def BEAT_STATUS_TQ_REFUSED : Fld := ⟨0x100004, 5, 1, 0, .w1c, .wr, .none, 4⟩
def BEAT_STATUS_ADJ_CLAMP : Fld := ⟨0x100004, 4, 1, 0, .w1c, .wr, .none, 4⟩
def BEAT_STATUS_SYNC_TMO : Fld := ⟨0x100004, 3, 1, 0, .w1c, .st, .none, 4⟩
def BEAT_STATUS_TQ_CHG : Fld := ⟨0x100004, 2, 1, 0, .w1c, .wr, .none, 4⟩
def BEAT_STATUS_RUNNING : Fld := ⟨0x100004, 1, 1, 0, .ro, .wr, .none, 4⟩
def BEAT_STATUS_WIGN : Fld := ⟨0x100004, 0, 1, 0, .w1c, .wr, .none, 4⟩
def BEAT_WIGN_ADDR : Fld := ⟨0x100008, 0, 20, 0, .ro, .wr, .none, 4⟩
def BEAT_CFG_FREE_START : Fld := ⟨0x100010, 17, 1, 0, .rwd, .wr, .tmr, 4⟩
def BEAT_CFG_RATE : Fld := ⟨0x100010, 0, 17, 48000, .rwd, .wr, .tmr, 4⟩
def BEAT_SEAL_WIN : Fld := ⟨0x100014, 0, 12, 300, .rwd, .wr, .tmr, 4⟩
def BEAT_HOLD_CFG_START_WAIT : Fld := ⟨0x100018, 16, 10, 10, .rwd, .wr, .none, 4⟩
def BEAT_HOLD_CFG_SYNC_TMO : Fld := ⟨0x100018, 12, 4, 3, .rwd, .wr, .none, 4⟩
def BEAT_HOLD_CFG_HOLD_TIME : Fld := ⟨0x100018, 0, 12, 10, .rwd, .wr, .none, 4⟩
def BEAT_TQ_RESEAT_TGT : Fld := ⟨0x10001C, 8, 3, 1, .rw, .wr, .none, 4⟩
def BEAT_TQ_REQ : Fld := ⟨0x10001C, 4, 3, 0, .wo, .wr, .none, 4⟩
def BEAT_TQ_TQ : Fld := ⟨0x10001C, 0, 3, 0, .ro, .wr, .none, 4⟩
def BEAT_NUM : Fld := ⟨0x100020, 0, 64, 0, .rlh, .wr, .none, 4⟩
def BEAT_LAST_ISSUED : Fld := ⟨0x100028, 0, 64, 0, .rlh, .st, .tmr, 4⟩
def BEAT_TIME_NS : Fld := ⟨0x100030, 0, 30, 0, .ro, .wr, .none, 4⟩
def BEAT_TIME_SEC : Fld := ⟨0x100034, 0, 48, 0, .ro, .wr, .none, 4⟩
def BEAT_FREQ_ADJ : Fld := ⟨0x100040, 0, 32, 0, .rw, .wr, .none, 4⟩
def BEAT_RESEAT_OFS : Fld := ⟨0x100048, 0, 64, 0, .rw, .wr, .none, 4⟩
def BEAT_RESULT_OVR_ITEMS : Fld := ⟨0x100050, 16, 8, 0, .ro, .wr, .none, 4⟩
def BEAT_RESULT_STANDBY : Fld := ⟨0x100050, 12, 1, 0, .ro, .wr, .none, 4⟩
def BEAT_RESULT_EMITTED : Fld := ⟨0x100050, 11, 1, 0, .ro, .wr, .none, 4⟩
def BEAT_RESULT_WITHHELD : Fld := ⟨0x100050, 10, 1, 0, .ro, .wr, .none, 4⟩
def BEAT_RESULT_ACK_LATE : Fld := ⟨0x100050, 9, 1, 0, .ro, .wr, .none, 4⟩
def BEAT_RESULT_UNCOPIED : Fld := ⟨0x100050, 8, 1, 0, .ro, .wr, .none, 4⟩
def BEAT_RESULT_UNPAIRED : Fld := ⟨0x100050, 7, 1, 0, .ro, .wr, .none, 4⟩
def BEAT_RESULT_SEALED : Fld := ⟨0x100050, 6, 1, 0, .ro, .wr, .none, 4⟩
def BEAT_RESULT_CUT_LATE : Fld := ⟨0x100050, 5, 1, 0, .ro, .wr, .none, 4⟩
def BEAT_RESULT_TQ : Fld := ⟨0x100050, 0, 3, 0, .ro, .wr, .none, 4⟩
def BEAT_RESULT_NUM : Fld := ⟨0x100054, 0, 64, 0, .rlh, .wr, .none, 4⟩
def BEAT_CNT_WITHHELD : Fld := ⟨0x100060, 0, 32, 0, .ro, .st, .none, 4⟩
def BEAT_CNT_UNCOPIED : Fld := ⟨0x100064, 0, 32, 0, .ro, .st, .none, 4⟩
def BEAT_CNT_ACKLATE : Fld := ⟨0x100068, 0, 32, 0, .ro, .st, .none, 4⟩
def BEAT_CNT_CUTLATE : Fld := ⟨0x10006C, 0, 32, 0, .ro, .st, .none, 4⟩
def BEAT_CNT_LOST : Fld := ⟨0x100070, 0, 32, 0, .ro, .st, .none, 4⟩
def BEAT_PPS : Fld := ⟨0x100080, 0, 32, 0, .ro, .wr, .none, 4⟩
/-! Block PORT, base 0x200000. -/
def PORT_CTRL_UNHOLD : Fld := ⟨0x200000, 2, 1, 0, .w1s, .wr, .none, 4⟩
def PORT_CTRL_TX_DISABLE : Fld := ⟨0x200000, 1, 1, 0, .rw, .wr, .none, 4⟩
def PORT_CTRL_EN : Fld := ⟨0x200000, 0, 1, 0, .rw, .wr, .none, 4⟩
def PORT_STATUS_RED_MEMBER : Fld := ⟨0x200004, 9, 1, 0, .ro, .wr, .none, 4⟩
def PORT_STATUS_LSTATE : Fld := ⟨0x200004, 6, 3, 0, .ro, .wr, .none, 4⟩
def PORT_STATUS_REMOTE_FAULT : Fld := ⟨0x200004, 5, 1, 0, .ro, .wr, .none, 4⟩
def PORT_STATUS_LOCAL_FAULT : Fld := ⟨0x200004, 4, 1, 0, .ro, .wr, .none, 4⟩
def PORT_STATUS_FEC_ALIGN : Fld := ⟨0x200004, 3, 1, 0, .ro, .wr, .none, 4⟩
def PORT_STATUS_PCS_LOCK : Fld := ⟨0x200004, 2, 1, 0, .ro, .wr, .none, 4⟩
def PORT_STATUS_LINK_CHG : Fld := ⟨0x200004, 1, 1, 0, .w1c, .wr, .none, 4⟩
def PORT_STATUS_WIGN : Fld := ⟨0x200004, 0, 1, 0, .w1c, .wr, .none, 4⟩
def PORT_WIGN_ADDR : Fld := ⟨0x200008, 0, 12, 0, .ro, .wr, .none, 4⟩
def PORT_CFG_VLAN_MODE : Fld := ⟨0x200010, 22, 2, 0, .rwd, .wr, .tmr, 4⟩
def PORT_CFG_PTP_ROLE : Fld := ⟨0x200010, 20, 2, 0, .rwd, .wr, .tmr, 4⟩
def PORT_CFG_TWO_STEP : Fld := ⟨0x200010, 19, 1, 0, .rwd, .wr, .none, 4⟩
def PORT_CFG_FEC : Fld := ⟨0x200010, 17, 2, 0, .rwd, .wr, .tmr, 4⟩
def PORT_CFG_LANES : Fld := ⟨0x200010, 15, 2, 0, .rwd, .wr, .tmr, 4⟩
def PORT_CFG_BASE_LANE : Fld := ⟨0x200010, 8, 7, 0, .rwd, .wr, .tmr, 4⟩
def PORT_CFG_AN_EN : Fld := ⟨0x200010, 7, 1, 0, .rwd, .wr, .none, 4⟩
def PORT_CFG_SPEED : Fld := ⟨0x200010, 0, 3, 0, .rwd, .wr, .tmr, 4⟩
def PORT_MTU : Fld := ⟨0x200014, 0, 14, 9600, .rwd, .wr, .none, 4⟩
def PORT_PVID_PCP : Fld := ⟨0x200018, 13, 3, 0, .rwd, .wr, .none, 4⟩
def PORT_PVID_PVID : Fld := ⟨0x200018, 0, 12, 1, .rwd, .wr, .none, 4⟩
def PORT_LINK_CFG_UP_HOLD : Fld := ⟨0x200020, 16, 10, 100, .rwd, .wr, .none, 4⟩
def PORT_LINK_CFG_DOWN_DEB : Fld := ⟨0x200020, 0, 8, 10, .rwd, .wr, .none, 4⟩
def PORT_FLAP_CFG_FLAP_N : Fld := ⟨0x200024, 24, 4, 5, .rwd, .wr, .none, 4⟩
def PORT_FLAP_CFG_FLAP_WIN : Fld := ⟨0x200024, 16, 6, 10, .rwd, .wr, .none, 4⟩
def PORT_FLAP_CFG_FLAP_HOLD : Fld := ⟨0x200024, 0, 10, 30, .rwd, .wr, .none, 4⟩
def PORT_TS_ASYM_EGR : Fld := ⟨0x200028, 16, 16, 0, .rwd, .wr, .none, 4⟩
def PORT_TS_ASYM_ING : Fld := ⟨0x200028, 0, 16, 0, .rwd, .wr, .none, 4⟩
def PORT_MAC : Fld := ⟨0x200030, 0, 48, 0, .rwd, .wr, .tmr, 4⟩
def PORT_CNT_RX_FRAMES : Fld := ⟨0x200100, 0, 64, 0, .rlh, .wr, .none, 8⟩
def PORT_CNT_RX_BYTES : Fld := ⟨0x200108, 0, 64, 0, .rlh, .wr, .none, 8⟩
def PORT_CNT_RX_FCS : Fld := ⟨0x200110, 0, 64, 0, .rlh, .wr, .none, 8⟩
def PORT_CNT_RX_RUNT : Fld := ⟨0x200118, 0, 64, 0, .rlh, .wr, .none, 8⟩
def PORT_CNT_RX_LONG : Fld := ⟨0x200120, 0, 64, 0, .rlh, .wr, .none, 8⟩
def PORT_CNT_RX_TAGERR : Fld := ⟨0x200128, 0, 64, 0, .rlh, .wr, .none, 8⟩
def PORT_CNT_RX_L3ERR : Fld := ⟨0x200130, 0, 64, 0, .rlh, .wr, .none, 8⟩
def PORT_CNT_RX_DA : Fld := ⟨0x200138, 0, 64, 0, .rlh, .wr, .none, 8⟩
def PORT_CNT_RX_PENDING : Fld := ⟨0x200140, 0, 64, 0, .rlh, .wr, .none, 8⟩
def PORT_CNT_TX_FRAMES : Fld := ⟨0x200148, 0, 64, 0, .rlh, .wr, .none, 8⟩
def PORT_CNT_TX_BYTES : Fld := ⟨0x200150, 0, 64, 0, .rlh, .wr, .none, 8⟩
def PORT_CNT_TX_DOWN : Fld := ⟨0x200158, 0, 64, 0, .rlh, .wr, .none, 8⟩
def PORT_CNT_LINK_DOWN : Fld := ⟨0x200160, 0, 64, 0, .rlh, .st, .none, 8⟩
def PORT_CNT_FEC_UNCORR : Fld := ⟨0x200168, 0, 64, 0, .rlh, .wr, .none, 8⟩
def PORT_CNT_RX_STRAY : Fld := ⟨0x200170, 0, 64, 0, .rlh, .wr, .none, 8⟩
/-! Block PORT_GLB, base 0x260000. -/
def PORT_GLB_CTRL : Fld := ⟨0x260000, 0, 1, 0, .rw, .wr, .none, 4⟩
def PORT_GLB_STATUS_WIGN : Fld := ⟨0x260004, 0, 1, 0, .w1c, .wr, .none, 4⟩
def PORT_GLB_WIGN_ADDR : Fld := ⟨0x260008, 0, 17, 0, .ro, .wr, .none, 4⟩
def PORT_GLB_ETYPE_HRS_ETYPE : Fld := ⟨0x260010, 16, 16, 34997, .rwd, .wr, .tmr, 4⟩
def PORT_GLB_ETYPE_YARD_ETYPE : Fld := ⟨0x260010, 0, 16, 34998, .rwd, .wr, .tmr, 4⟩
def PORT_GLB_UDP_HRS_UDP : Fld := ⟨0x260014, 16, 16, 49612, .rwd, .wr, .tmr, 4⟩
def PORT_GLB_UDP_SV90_UDP : Fld := ⟨0x260014, 0, 16, 102, .rwd, .wr, .tmr, 4⟩
def PORT_GLB_NODES : Fld := ⟨0x260018, 0, 15, 0, .ro, .wr, .none, 4⟩
/-! Block RED, base 0x270000. -/
def RED_CFG_MODE : Fld := ⟨0x270000, 16, 2, 0, .rwd, .wr, .tmr, 4⟩
def RED_CFG_PORT_B : Fld := ⟨0x270000, 8, 7, 0, .rwd, .wr, .tmr, 4⟩
def RED_CFG_PORT_A : Fld := ⟨0x270000, 0, 7, 0, .rwd, .wr, .tmr, 4⟩
def RED_TIMES_LIFE_CHECK : Fld := ⟨0x270004, 24, 6, 2, .rwd, .wr, .none, 4⟩
def RED_TIMES_NODE_FORGET : Fld := ⟨0x270004, 12, 10, 60, .rwd, .wr, .none, 4⟩
def RED_TIMES_ENTRY_FORGET : Fld := ⟨0x270004, 0, 10, 400, .rwd, .wr, .none, 4⟩
def RED_LIMIT : Fld := ⟨0x270008, 0, 13, 1024, .rwd, .wr, .none, 4⟩
def RED_STATUS_FULL : Fld := ⟨0x27000C, 31, 1, 0, .ro, .wr, .none, 4⟩
def RED_STATUS_NODES : Fld := ⟨0x27000C, 0, 13, 0, .ro, .wr, .none, 4⟩
def RED_CNT_DUP : Fld := ⟨0x270010, 0, 32, 0, .ro, .wr, .none, 4⟩
def RED_CNT_UNAUTH_DUP : Fld := ⟨0x270014, 0, 32, 0, .ro, .wr, .none, 4⟩
def RED_CNT_UNTRACKED : Fld := ⟨0x270018, 0, 32, 0, .ro, .wr, .none, 4⟩
def RED_CNT_WRONG_LAN : Fld := ⟨0x27001C, 0, 32, 0, .ro, .wr, .none, 4⟩
def RED_CNT_SUPERV : Fld := ⟨0x270020, 0, 32, 0, .ro, .wr, .none, 4⟩
/-! Block LANE, base 0x300000. -/
def LANE_CTRL : Fld := ⟨0x300000, 0, 1, 0, .rw, .wr, .none, 4⟩
def LANE_STATUS_SIG_DET : Fld := ⟨0x300004, 5, 1, 0, .ro, .wr, .none, 4⟩
def LANE_STATUS_CDR_LOCK : Fld := ⟨0x300004, 4, 1, 0, .ro, .wr, .none, 4⟩
def LANE_STATUS_PLL_LOCK : Fld := ⟨0x300004, 3, 1, 0, .ro, .wr, .none, 4⟩
def LANE_STATUS_TRAIN_DONE : Fld := ⟨0x300004, 2, 1, 0, .ro, .wr, .none, 4⟩
def LANE_STATUS_ASSIGNED : Fld := ⟨0x300004, 1, 1, 0, .ro, .wr, .none, 4⟩
def LANE_STATUS_WIGN : Fld := ⟨0x300004, 0, 1, 0, .w1c, .wr, .none, 4⟩
def LANE_WIGN_ADDR : Fld := ⟨0x300008, 0, 10, 0, .ro, .wr, .none, 4⟩
def LANE_CFG_TRAIN : Fld := ⟨0x300010, 8, 1, 0, .rwd, .wr, .none, 4⟩
def LANE_CFG_TX_PRESET : Fld := ⟨0x300010, 4, 4, 0, .rwd, .wr, .none, 4⟩
def LANE_CFG_RX_POL : Fld := ⟨0x300010, 2, 1, 0, .rwd, .wr, .none, 4⟩
def LANE_CFG_TX_POL : Fld := ⟨0x300010, 1, 1, 0, .rwd, .wr, .none, 4⟩
def LANE_MARGIN_EYE_H : Fld := ⟨0x300020, 8, 8, 0, .ro, .wr, .none, 4⟩
def LANE_MARGIN_EYE_V : Fld := ⟨0x300020, 0, 8, 0, .ro, .wr, .none, 4⟩
def LANE_CNT_CDR_LOSS : Fld := ⟨0x300028, 0, 32, 0, .ro, .st, .none, 4⟩
/-! Block GATE, base 0x400000. -/
def GATE_CTRL : Fld := ⟨0x400000, 0, 1, 0, .rw, .wr, .none, 4⟩
def GATE_STATUS_FACC_ERR : Fld := ⟨0x400004, 6, 1, 0, .w1c, .wr, .none, 4⟩
def GATE_STATUS_FACC_BUSY : Fld := ⟨0x400004, 5, 1, 0, .ro, .wr, .none, 4⟩
def GATE_STATUS_KEY_MISS : Fld := ⟨0x400004, 4, 1, 0, .w1c, .wr, .none, 4⟩
def GATE_STATUS_TPL_FULL : Fld := ⟨0x400004, 3, 1, 0, .w1c, .wr, .none, 4⟩
def GATE_STATUS_CAP_DROP : Fld := ⟨0x400004, 2, 1, 0, .w1c, .wr, .none, 4⟩
def GATE_STATUS_RUNNING : Fld := ⟨0x400004, 1, 1, 0, .ro, .wr, .none, 4⟩
def GATE_STATUS_WIGN : Fld := ⟨0x400004, 0, 1, 0, .w1c, .wr, .none, 4⟩
def GATE_WIGN_ADDR : Fld := ⟨0x400008, 0, 20, 0, .ro, .wr, .none, 4⟩
def GATE_CFG_STRAY_RATE : Fld := ⟨0x400010, 16, 16, 100, .rwd, .wr, .none, 4⟩
def GATE_CFG_STRAY_SAMPLE : Fld := ⟨0x400010, 0, 16, 1024, .rwd, .wr, .none, 4⟩
def GATE_TPL_POOL : Fld := ⟨0x400014, 0, 16, 49152, .rwd, .wr, .tmr, 4⟩
def GATE_JOB_CFG_TMO : Fld := ⟨0x400018, 16, 16, 1000, .rwd, .wr, .none, 4⟩
def GATE_JOB_CFG_INFLIGHT : Fld := ⟨0x400018, 0, 5, 16, .rwd, .wr, .none, 4⟩
def GATE_SMALL_RATE_PTP_RATE : Fld := ⟨0x40001C, 16, 16, 256, .rwd, .wr, .none, 4⟩
def GATE_SMALL_RATE_OTHER_RATE : Fld := ⟨0x40001C, 0, 16, 64, .rwd, .wr, .none, 4⟩
def GATE_FACC_IDX : Fld := ⟨0x400020, 0, 17, 0, .rw, .wr, .none, 4⟩
def GATE_FACC_CMD_BUSY : Fld := ⟨0x400024, 31, 1, 0, .ro, .wr, .none, 4⟩
def GATE_FACC_CMD_ERR : Fld := ⟨0x400024, 28, 3, 0, .ro, .wr, .none, 4⟩
def GATE_FACC_CMD_OP : Fld := ⟨0x400024, 0, 4, 0, .wo, .wr, .none, 4⟩
def GATE_FACC_DATAn : Fld := ⟨0x400040, 0, 32, 0, .rw, .wr, .none, 4⟩
def GATE_KACC_IDX : Fld := ⟨0x400080, 0, 16, 0, .rw, .wr, .none, 4⟩
def GATE_KACC_CMD_BUSY : Fld := ⟨0x400084, 31, 1, 0, .ro, .wr, .none, 4⟩
def GATE_KACC_CMD_ERR : Fld := ⟨0x400084, 28, 3, 0, .ro, .wr, .none, 4⟩
def GATE_KACC_CMD_OP : Fld := ⟨0x400084, 0, 4, 0, .wo, .wr, .none, 4⟩
def GATE_KACC_DATAn : Fld := ⟨0x400088, 0, 32, 0, .ro, .wr, .none, 4⟩
def GATE_CNT_ACCEPT : Fld := ⟨0x400100, 0, 64, 0, .rlh, .wr, .none, 8⟩
def GATE_CNT_TAG : Fld := ⟨0x400108, 0, 64, 0, .rlh, .wr, .none, 8⟩
def GATE_CNT_REPLAY : Fld := ⟨0x400110, 0, 64, 0, .rlh, .wr, .none, 8⟩
def GATE_CNT_TS : Fld := ⟨0x400118, 0, 64, 0, .rlh, .wr, .none, 8⟩
def GATE_CNT_KEY : Fld := ⟨0x400120, 0, 64, 0, .rlh, .wr, .none, 8⟩
def GATE_CNT_FORM : Fld := ⟨0x400128, 0, 64, 0, .rlh, .wr, .none, 8⟩
def GATE_CNT_CAP : Fld := ⟨0x400130, 0, 64, 0, .rlh, .wr, .none, 8⟩
def GATE_CNT_NOENTRY : Fld := ⟨0x400138, 0, 64, 0, .rlh, .wr, .none, 8⟩
def GATE_CNT_STRAY : Fld := ⟨0x400140, 0, 64, 0, .rlh, .wr, .none, 8⟩
def GATE_CNT_STRAY_DROP : Fld := ⟨0x400148, 0, 64, 0, .rlh, .wr, .none, 8⟩
def GATE_CNT_SMALL : Fld := ⟨0x400150, 0, 64, 0, .rlh, .wr, .none, 8⟩
def GATE_CNT_SMALL_DROP : Fld := ⟨0x400158, 0, 64, 0, .rlh, .wr, .none, 8⟩
def GATE_CNT_REANCHOR : Fld := ⟨0x400160, 0, 64, 0, .rlh, .wr, .none, 8⟩
def GATE_CNT_INST : Fld := ⟨0x400168, 0, 64, 0, .rlh, .wr, .none, 8⟩
def GATE_CNT_JOBS : Fld := ⟨0x400170, 0, 64, 0, .rlh, .wr, .none, 8⟩
def GATE_CNT_OFF : Fld := ⟨0x400178, 0, 64, 0, .rlh, .wr, .none, 8⟩
/-! Block MYARD, base 0x500000. -/
def MYARD_CTRL : Fld := ⟨0x500000, 0, 1, 0, .rw, .wr, .none, 4⟩
def MYARD_STATUS_GACC_ERR : Fld := ⟨0x500004, 5, 1, 0, .w1c, .wr, .none, 4⟩
def MYARD_STATUS_WITHDRAWN : Fld := ⟨0x500004, 4, 1, 0, .w1c, .wr, .none, 4⟩
def MYARD_STATUS_SHRUNK : Fld := ⟨0x500004, 3, 1, 0, .w1c, .st, .none, 4⟩
def MYARD_STATUS_ALLOC_ERR : Fld := ⟨0x500004, 2, 1, 0, .ro, .wr, .none, 4⟩
def MYARD_STATUS_RUNNING : Fld := ⟨0x500004, 1, 1, 0, .ro, .wr, .none, 4⟩
def MYARD_STATUS_WIGN : Fld := ⟨0x500004, 0, 1, 0, .w1c, .wr, .none, 4⟩
def MYARD_WIGN_ADDR : Fld := ⟨0x500008, 0, 20, 0, .ro, .wr, .none, 4⟩
def MYARD_CAP_SPARES_FREE : Fld := ⟨0x500010, 16, 6, 32, .ro, .po, .none, 4⟩
def MYARD_CAP_BANKS : Fld := ⟨0x500010, 0, 10, 768, .ro, .po, .tmr, 4⟩
def MYARD_ALLOC : Fld := ⟨0x500014, 0, 21, 0, .ro, .wr, .none, 4⟩
def MYARD_GACC_IDX : Fld := ⟨0x500020, 0, 12, 0, .rw, .wr, .none, 4⟩
def MYARD_GACC_CMD_BUSY : Fld := ⟨0x500024, 31, 1, 0, .ro, .wr, .none, 4⟩
def MYARD_GACC_CMD_ERR : Fld := ⟨0x500024, 28, 3, 0, .ro, .wr, .none, 4⟩
def MYARD_GACC_CMD_OP : Fld := ⟨0x500024, 0, 4, 0, .wo, .wr, .none, 4⟩
def MYARD_GACC_DATAn : Fld := ⟨0x500040, 0, 32, 0, .rw, .wr, .none, 4⟩
def MYARD_CNT_PLACED : Fld := ⟨0x500100, 0, 64, 0, .rlh, .wr, .none, 8⟩
def MYARD_CNT_LATE : Fld := ⟨0x500108, 0, 64, 0, .rlh, .wr, .none, 8⟩
def MYARD_CNT_FUTURE : Fld := ⟨0x500110, 0, 64, 0, .rlh, .wr, .none, 8⟩
def MYARD_CNT_FORMAT : Fld := ⟨0x500118, 0, 64, 0, .rlh, .wr, .none, 8⟩
def MYARD_CNT_RANGE : Fld := ⟨0x500120, 0, 64, 0, .rlh, .wr, .none, 8⟩
def MYARD_CNT_NOWIN : Fld := ⟨0x500128, 0, 64, 0, .rlh, .wr, .none, 8⟩
def MYARD_CNT_NOMEMBER : Fld := ⟨0x500130, 0, 64, 0, .rlh, .wr, .none, 8⟩
def MYARD_CNT_DUP : Fld := ⟨0x500138, 0, 64, 0, .rlh, .wr, .none, 8⟩
def MYARD_CNT_CONFLICT : Fld := ⟨0x500140, 0, 64, 0, .rlh, .wr, .none, 8⟩
def MYARD_CNT_UNSYNC_DROP : Fld := ⟨0x500148, 0, 64, 0, .rlh, .wr, .none, 8⟩
def MYARD_CNT_MSG_OVF : Fld := ⟨0x500150, 0, 64, 0, .rlh, .wr, .none, 8⟩
def MYARD_CNT_NOSLAB : Fld := ⟨0x500158, 0, 64, 0, .rlh, .wr, .none, 8⟩
def MYARD_CNT_SETTLE : Fld := ⟨0x500160, 0, 64, 0, .rlh, .wr, .none, 8⟩
def MYARD_CNT_OFF : Fld := ⟨0x500168, 0, 64, 0, .rlh, .wr, .none, 8⟩
/-! Block LOFT, base 0x600000. -/
def LOFT_CTRL : Fld := ⟨0x600000, 0, 1, 0, .rw, .wr, .none, 4⟩
def LOFT_STATUS_B_FAILED : Fld := ⟨0x600004, 8, 1, 0, .ro, .st, .none, 4⟩
def LOFT_STATUS_A_FAILED : Fld := ⟨0x600004, 7, 1, 0, .ro, .st, .none, 4⟩
def LOFT_STATUS_EXP_BUSY : Fld := ⟨0x600004, 6, 1, 0, .ro, .wr, .none, 4⟩
def LOFT_STATUS_PIN_FULL : Fld := ⟨0x600004, 5, 1, 0, .w1c, .wr, .none, 4⟩
def LOFT_STATUS_GAP : Fld := ⟨0x600004, 4, 1, 0, .w1c, .wr, .none, 4⟩
def LOFT_STATUS_INIT_BUSY : Fld := ⟨0x600004, 3, 1, 0, .ro, .wr, .none, 4⟩
def LOFT_STATUS_CFG_ERR : Fld := ⟨0x600004, 2, 1, 0, .ro, .wr, .none, 4⟩
def LOFT_STATUS_RUNNING : Fld := ⟨0x600004, 1, 1, 0, .ro, .wr, .none, 4⟩
def LOFT_STATUS_WIGN : Fld := ⟨0x600004, 0, 1, 0, .w1c, .wr, .none, 4⟩
def LOFT_WIGN_ADDR : Fld := ⟨0x600008, 0, 12, 0, .ro, .wr, .none, 4⟩
def LOFT_CFG_PIN_MAX : Fld := ⟨0x600010, 8, 8, 50, .rwd, .wr, .tmr, 4⟩
def LOFT_CFG_SLICE_FRZ : Fld := ⟨0x600010, 4, 4, 2, .rwd, .wr, .none, 4⟩
def LOFT_CFG_HALVES : Fld := ⟨0x600010, 0, 2, 0, .rwd, .wr, .tmr, 4⟩
def LOFT_RING_PINNED : Fld := ⟨0x600014, 16, 16, 0, .ro, .wr, .none, 4⟩
def LOFT_RING_SEGMENTS : Fld := ⟨0x600014, 0, 16, 0, .ro, .wr, .none, 4⟩
def LOFT_HEAD : Fld := ⟨0x600018, 0, 64, 0, .rlh, .wr, .none, 4⟩
def LOFT_SPAN_US : Fld := ⟨0x600020, 0, 32, 0, .ro, .wr, .none, 4⟩
def LOFT_FRZ_CMD_BUSY : Fld := ⟨0x600030, 31, 1, 0, .ro, .wr, .none, 4⟩
def LOFT_FRZ_CMD_ERR : Fld := ⟨0x600030, 28, 3, 0, .ro, .wr, .none, 4⟩
def LOFT_FRZ_CMD_SLOT : Fld := ⟨0x600030, 4, 4, 0, .rw, .wr, .none, 4⟩
def LOFT_FRZ_CMD_OP : Fld := ⟨0x600030, 0, 4, 0, .wo, .wr, .none, 4⟩
def LOFT_FRZ_ARG01 : Fld := ⟨0x600034, 0, 32, 0, .rw, .wr, .none, 4⟩
def LOFT_FRZ_ARG2 : Fld := ⟨0x60003C, 0, 16, 0, .rw, .wr, .none, 4⟩
def LOFT_FRZ_DATAn : Fld := ⟨0x600040, 0, 32, 0, .ro, .st, .none, 4⟩
def LOFT_EXP_CMD_BUSY : Fld := ⟨0x600060, 31, 1, 0, .ro, .wr, .none, 4⟩
def LOFT_EXP_CMD_ERR : Fld := ⟨0x600060, 28, 3, 0, .ro, .wr, .none, 4⟩
def LOFT_EXP_CMD_SCOPE : Fld := ⟨0x600060, 16, 1, 0, .rw, .wr, .none, 4⟩
def LOFT_EXP_CMD_SLICE : Fld := ⟨0x600060, 8, 8, 0, .rw, .wr, .none, 4⟩
def LOFT_EXP_CMD_GO : Fld := ⟨0x600060, 4, 1, 0, .w1s, .wr, .none, 4⟩
def LOFT_EXP_CMD_SLOT : Fld := ⟨0x600060, 0, 4, 0, .rw, .wr, .none, 4⟩
def LOFT_EXP_ADDR : Fld := ⟨0x600064, 0, 64, 0, .rw, .wr, .none, 4⟩
def LOFT_EXP_LEN : Fld := ⟨0x60006C, 0, 32, 0, .rw, .wr, .none, 4⟩
def LOFT_EXP_MAN : Fld := ⟨0x600070, 0, 64, 0, .rw, .wr, .none, 4⟩
def LOFT_EXP_START : Fld := ⟨0x600078, 0, 64, 0, .rw, .wr, .none, 4⟩
def LOFT_EXP_CFG : Fld := ⟨0x600080, 0, 8, 32, .rw, .wr, .none, 4⟩
def LOFT_TEST_CFG : Fld := ⟨0x600084, 0, 8, 24, .rwd, .wr, .none, 4⟩
def LOFT_EXP_SEQ : Fld := ⟨0x600088, 0, 64, 0, .rlh, .st, .none, 4⟩
def LOFT_CNT_ENTRIES : Fld := ⟨0x600100, 0, 64, 0, .rlh, .wr, .none, 8⟩
def LOFT_CNT_BYTES : Fld := ⟨0x600108, 0, 64, 0, .rlh, .wr, .none, 8⟩
def LOFT_CNT_GAP_FRAMES : Fld := ⟨0x600110, 0, 64, 0, .rlh, .wr, .none, 8⟩
def LOFT_CNT_CE : Fld := ⟨0x600118, 0, 64, 0, .rlh, .wr, .none, 8⟩
def LOFT_CNT_UE : Fld := ⟨0x600120, 0, 64, 0, .rlh, .st, .none, 8⟩
def LOFT_CNT_FRZ_REFUSED : Fld := ⟨0x600128, 0, 64, 0, .rlh, .wr, .none, 8⟩
def LOFT_CNT_SEG_RETIRED : Fld := ⟨0x600130, 0, 64, 0, .rlh, .st, .none, 8⟩
def LOFT_CNT_EXPORTS : Fld := ⟨0x600138, 0, 64, 0, .rlh, .wr, .none, 8⟩
def LOFT_CNT_NOREC : Fld := ⟨0x600140, 0, 64, 0, .rlh, .wr, .none, 8⟩
/-! Block GROOM, base 0x700000. -/
def GROOM_CTRL : Fld := ⟨0x700000, 0, 1, 0, .rw, .wr, .none, 4⟩
def GROOM_STATUS_STATE_LOST : Fld := ⟨0x700004, 8, 1, 0, .w1c, .st, .none, 4⟩
def GROOM_STATUS_POOL_CHG : Fld := ⟨0x700004, 7, 1, 0, .w1c, .wr, .none, 4⟩
def GROOM_STATUS_FCAST_MISS : Fld := ⟨0x700004, 6, 1, 0, .w1c, .wr, .none, 4⟩
def GROOM_STATUS_BORROWED : Fld := ⟨0x700004, 5, 1, 0, .w1c, .wr, .none, 4⟩
def GROOM_STATUS_TRIP_SHORT : Fld := ⟨0x700004, 4, 1, 0, .w1c, .wr, .none, 4⟩
def GROOM_STATUS_CFG_ERR : Fld := ⟨0x700004, 3, 1, 0, .ro, .wr, .none, 4⟩
def GROOM_STATUS_ACC_ERR : Fld := ⟨0x700004, 2, 1, 0, .w1c, .wr, .none, 4⟩
def GROOM_STATUS_RUNNING : Fld := ⟨0x700004, 1, 1, 0, .ro, .wr, .none, 4⟩
def GROOM_STATUS_WIGN : Fld := ⟨0x700004, 0, 1, 0, .w1c, .wr, .none, 4⟩
def GROOM_WIGN_ADDR : Fld := ⟨0x700008, 0, 12, 0, .ro, .wr, .none, 4⟩
def GROOM_CFG_CARRY_MAX : Fld := ⟨0x700010, 8, 8, 4, .rwd, .wr, .none, 4⟩
def GROOM_CFG_FIT : Fld := ⟨0x700010, 0, 1, 1, .rwd, .wr, .tmr, 4⟩
def GROOM_POOL_AVAIL : Fld := ⟨0x700014, 16, 11, 0, .ro, .wr, .none, 4⟩
def GROOM_POOL_SVC : Fld := ⟨0x700014, 0, 11, 0, .ro, .wr, .none, 4⟩
def GROOM_FLOOR : Fld := ⟨0x700018, 0, 32, 0, .ro, .wr, .none, 4⟩
def GROOM_RUNCYC : Fld := ⟨0x70001C, 0, 32, 0, .ro, .wr, .none, 4⟩
def GROOM_FCAST_CFG_OFF_AFTER : Fld := ⟨0x700020, 16, 16, 48000, .rwd, .wr, .none, 4⟩
def GROOM_FCAST_CFG_MARGIN : Fld := ⟨0x700020, 8, 8, 25, .rwd, .wr, .none, 4⟩
def GROOM_FCAST_CFG_MIN_Q : Fld := ⟨0x700020, 0, 3, 1, .rwd, .wr, .none, 4⟩
def GROOM_FCAST_OUT_OFF_OK : Fld := ⟨0x700024, 8, 4, 0, .ro, .wr, .none, 4⟩
def GROOM_FCAST_OUT_NEED_B2 : Fld := ⟨0x700024, 4, 4, 0, .ro, .wr, .none, 4⟩
def GROOM_FCAST_OUT_NEED_B1 : Fld := ⟨0x700024, 0, 4, 0, .ro, .wr, .none, 4⟩
def GROOM_IACC_IDX : Fld := ⟨0x700030, 0, 16, 0, .rw, .wr, .none, 4⟩
def GROOM_IACC_CMD_BUSY : Fld := ⟨0x700034, 31, 1, 0, .ro, .wr, .none, 4⟩
def GROOM_IACC_CMD_ERR : Fld := ⟨0x700034, 28, 3, 0, .ro, .wr, .none, 4⟩
def GROOM_IACC_CMD_CODE : Fld := ⟨0x700034, 24, 4, 0, .ro, .wr, .none, 4⟩
def GROOM_IACC_CMD_OP : Fld := ⟨0x700034, 0, 4, 0, .wo, .wr, .none, 4⟩
def GROOM_IACC_DATAn : Fld := ⟨0x700040, 0, 32, 0, .rw, .wr, .none, 4⟩
def GROOM_FACC_IDX : Fld := ⟨0x700080, 0, 17, 0, .rw, .wr, .none, 4⟩
def GROOM_FACC_CMD_BUSY : Fld := ⟨0x700084, 31, 1, 0, .ro, .wr, .none, 4⟩
def GROOM_FACC_CMD_ERR : Fld := ⟨0x700084, 28, 3, 0, .ro, .wr, .none, 4⟩
def GROOM_FACC_CMD_DEST : Fld := ⟨0x700084, 16, 7, 0, .rw, .wr, .none, 4⟩
def GROOM_FACC_CMD_OP : Fld := ⟨0x700084, 0, 4, 0, .wo, .wr, .none, 4⟩
def GROOM_FACC_DATAn : Fld := ⟨0x700088, 0, 32, 0, .rw, .wr, .none, 4⟩
def GROOM_SSTAT_IDX : Fld := ⟨0x7000A0, 0, 8, 0, .rw, .wr, .none, 4⟩
def GROOM_SSTAT_DATAn : Fld := ⟨0x7000C0, 0, 32, 0, .ro, .wr, .none, 4⟩
def GROOM_BLOG_HEAD : Fld := ⟨0x700100, 0, 13, 0, .ro, .wr, .none, 4⟩
def GROOM_BLOG_TAIL : Fld := ⟨0x700104, 0, 13, 0, .rw, .wr, .none, 4⟩
def GROOM_BLOG_IDX : Fld := ⟨0x700108, 0, 13, 0, .rw, .wr, .none, 4⟩
def GROOM_BLOG_DATAn : Fld := ⟨0x700110, 0, 32, 0, .ro, .wr, .none, 4⟩
def GROOM_CNT_DISPATCHED : Fld := ⟨0x700200, 0, 64, 0, .rlh, .wr, .none, 8⟩
def GROOM_CNT_DONE : Fld := ⟨0x700208, 0, 64, 0, .rlh, .wr, .none, 8⟩
def GROOM_CNT_FAILED : Fld := ⟨0x700210, 0, 64, 0, .rlh, .wr, .none, 8⟩
def GROOM_CNT_FAULT : Fld := ⟨0x700218, 0, 64, 0, .rlh, .wr, .none, 8⟩
def GROOM_CNT_OVERRUN : Fld := ⟨0x700220, 0, 64, 0, .rlh, .wr, .none, 8⟩
def GROOM_CNT_LOST : Fld := ⟨0x700228, 0, 64, 0, .rlh, .wr, .none, 8⟩
def GROOM_CNT_NOT_RUN : Fld := ⟨0x700230, 0, 64, 0, .rlh, .wr, .none, 8⟩
def GROOM_CNT_STALE : Fld := ⟨0x700238, 0, 64, 0, .rlh, .wr, .none, 8⟩
def GROOM_CNT_REFUSED : Fld := ⟨0x700240, 0, 64, 0, .rlh, .wr, .none, 8⟩
def GROOM_CNT_TRIP_SHORT : Fld := ⟨0x700248, 0, 64, 0, .rlh, .wr, .none, 8⟩
def GROOM_CNT_BORROW : Fld := ⟨0x700250, 0, 64, 0, .rlh, .wr, .none, 8⟩
def GROOM_CNT_MOVES : Fld := ⟨0x700258, 0, 64, 0, .rlh, .wr, .none, 8⟩
def GROOM_CNT_MOVE_ABANDONED : Fld := ⟨0x700260, 0, 64, 0, .rlh, .wr, .none, 8⟩
def GROOM_CNT_FCAST_MISS : Fld := ⟨0x700268, 0, 64, 0, .rlh, .wr, .none, 8⟩
def GROOM_CNT_BLOG_DROP : Fld := ⟨0x700270, 0, 64, 0, .rlh, .wr, .none, 8⟩
def GROOM_SLICE_CFGn_FROZEN : Fld := ⟨0x700400, 16, 1, 0, .ro, .wr, .none, 4⟩
def GROOM_SLICE_CFGn_CAP : Fld := ⟨0x700400, 8, 8, 0, .rw, .wr, .tmr, 4⟩
def GROOM_SLICE_CFGn_WEIGHT : Fld := ⟨0x700400, 0, 8, 1, .rw, .wr, .tmr, 4⟩
/-! Block SHED, base 0x800000. -/
def SHED_CTRL_CNT_CLR : Fld := ⟨0x800000, 1, 1, 0, .w1s, .wr, .none, 4⟩
def SHED_CTRL_EN : Fld := ⟨0x800000, 0, 1, 0, .rw, .wr, .none, 4⟩
def SHED_STATUS_PWR_REFUSED : Fld := ⟨0x800004, 6, 1, 0, .w1c, .wr, .none, 4⟩
def SHED_STATUS_UE_SEEN : Fld := ⟨0x800004, 5, 1, 0, .w1c, .st, .none, 4⟩
def SHED_STATUS_RETIRED : Fld := ⟨0x800004, 4, 1, 0, .ro, .st, .tmr, 4⟩
def SHED_STATUS_ROM_ERR : Fld := ⟨0x800004, 3, 1, 0, .ro, .wr, .none, 4⟩
def SHED_STATUS_INIT_BUSY : Fld := ⟨0x800004, 2, 1, 0, .ro, .wr, .none, 4⟩
def SHED_STATUS_RUNNING : Fld := ⟨0x800004, 1, 1, 0, .ro, .wr, .none, 4⟩
def SHED_STATUS_WIGN : Fld := ⟨0x800004, 0, 1, 0, .w1c, .wr, .none, 4⟩
def SHED_WIGN_ADDR : Fld := ⟨0x800008, 0, 12, 0, .ro, .wr, .none, 4⟩
def SHED_CFG : Fld := ⟨0x800010, 0, 7, 0, .rwd, .wr, .tmr, 4⟩
def SHED_STALL_OK : Fld := ⟨0x800014, 0, 16, 65535, .rwd, .wr, .tmr, 4⟩
def SHED_BANK_PWR : Fld := ⟨0x800018, 0, 32, 0, .rw, .wr, .none, 4⟩
def SHED_BANK_LIVE : Fld := ⟨0x80001C, 0, 16, 0, .ro, .wr, .none, 4⟩
def SHED_SEM_OWNn_OWN3 : Fld := ⟨0x800020, 24, 8, 0, .rwd, .wr, .tmr, 4⟩
def SHED_SEM_OWNn_OWN2 : Fld := ⟨0x800020, 16, 8, 0, .rwd, .wr, .tmr, 4⟩
def SHED_SEM_OWNn_OWN1 : Fld := ⟨0x800020, 8, 8, 0, .rwd, .wr, .tmr, 4⟩
def SHED_SEM_OWNn_OWN0 : Fld := ⟨0x800020, 0, 8, 0, .rwd, .wr, .tmr, 4⟩
def SHED_SEM_EN : Fld := ⟨0x800040, 0, 32, 0, .rwd, .wr, .none, 4⟩
def SHED_SEM_HELD : Fld := ⟨0x800044, 0, 32, 0, .ro, .wr, .none, 4⟩
def SHED_SEM_ORPH : Fld := ⟨0x800048, 0, 32, 0, .ro, .wr, .none, 4⟩
def SHED_SEM_FORCE : Fld := ⟨0x80004C, 0, 32, 0, .w1s, .wr, .none, 4⟩
def SHED_STALL_PWR : Fld := ⟨0x800050, 0, 32, 0, .rw, .wr, .none, 4⟩
def SHED_STALL_STATn_CODE : Fld := ⟨0x800080, 24, 8, 0, .ro, .wr, .none, 4⟩
def SHED_STALL_STATn_LAST_END : Fld := ⟨0x800080, 16, 3, 0, .ro, .wr, .none, 4⟩
def SHED_STALL_STATn_SLICE : Fld := ⟨0x800080, 8, 8, 0, .ro, .wr, .none, 4⟩
def SHED_STALL_STATn_STATE : Fld := ⟨0x800080, 0, 3, 0, .ro, .wr, .none, 4⟩
def SHED_STALL_PCn : Fld := ⟨0x8000C0, 0, 32, 0, .ro, .wr, .none, 4⟩
def SHED_CNT_MCONFn : Fld := ⟨0x800100, 0, 32, 0, .ro, .wr, .none, 4⟩
def SHED_CNT_SCONFn : Fld := ⟨0x800180, 0, 32, 0, .ro, .wr, .none, 4⟩
def SHED_CNT_CE : Fld := ⟨0x8001C0, 0, 32, 0, .ro, .wr, .none, 4⟩
def SHED_CNT_UE : Fld := ⟨0x8001C4, 0, 32, 0, .ro, .st, .none, 4⟩
def SHED_CNT_STOPLATE : Fld := ⟨0x8001C8, 0, 32, 0, .ro, .st, .none, 4⟩
def SHED_CNT_SEM_ORPH : Fld := ⟨0x8001CC, 0, 32, 0, .ro, .wr, .none, 4⟩
def SHED_CNT_SEM_LEFT : Fld := ⟨0x8001D0, 0, 32, 0, .ro, .wr, .none, 4⟩
def SHED_CNT_SEM_BADREL : Fld := ⟨0x8001D4, 0, 32, 0, .ro, .wr, .none, 4⟩
def SHED_CNT_SEM_DENIED : Fld := ⟨0x8001D8, 0, 32, 0, .ro, .wr, .none, 4⟩
def SHED_CNT_WAKE_WAIT : Fld := ⟨0x8001DC, 0, 32, 0, .ro, .wr, .none, 4⟩
def SHED_CNT_FAULT : Fld := ⟨0x8001E0, 0, 32, 0, .ro, .wr, .none, 4⟩
def SHED_CNT_BADSVC : Fld := ⟨0x8001E4, 0, 32, 0, .ro, .wr, .none, 4⟩
/-! Block SEAL, base 0x900000. -/
def SEAL_CTRL : Fld := ⟨0x900000, 0, 1, 0, .rw, .wr, .none, 4⟩
def SEAL_STATUS_KEYFAIL : Fld := ⟨0x900004, 6, 1, 0, .w1c, .wr, .none, 4⟩
def SEAL_STATUS_LATEBUILD : Fld := ⟨0x900004, 5, 1, 0, .w1c, .wr, .none, 4⟩
def SEAL_STATUS_OVER_BUDGET : Fld := ⟨0x900004, 4, 1, 0, .w1c, .st, .none, 4⟩
def SEAL_STATUS_PACC_ERR : Fld := ⟨0x900004, 3, 1, 0, .w1c, .wr, .none, 4⟩
def SEAL_STATUS_CFG_ERR : Fld := ⟨0x900004, 2, 1, 0, .ro, .wr, .none, 4⟩
def SEAL_STATUS_RUNNING : Fld := ⟨0x900004, 1, 1, 0, .ro, .wr, .none, 4⟩
def SEAL_STATUS_WIGN : Fld := ⟨0x900004, 0, 1, 0, .w1c, .wr, .none, 4⟩
def SEAL_WIGN_ADDR : Fld := ⟨0x900008, 0, 12, 0, .ro, .wr, .none, 4⟩
def SEAL_OUT_CFG : Fld := ⟨0x900010, 0, 15, 2048, .rwd, .wr, .tmr, 4⟩
def SEAL_BUDGET : Fld := ⟨0x900014, 0, 21, 0, .ro, .wr, .none, 4⟩
def SEAL_DELTA : Fld := ⟨0x900018, 0, 32, 0, .ro, .wr, .none, 4⟩
def SEAL_DELTA_MAX : Fld := ⟨0x90001C, 0, 32, 0, .rc, .wr, .none, 4⟩
def SEAL_IV_FIXED : Fld := ⟨0x900020, 0, 32, 0, .ro, .wr, .none, 4⟩
def SEAL_PACC_IDX : Fld := ⟨0x900030, 0, 13, 0, .rw, .wr, .none, 4⟩
def SEAL_PACC_CMD_BUSY : Fld := ⟨0x900034, 31, 1, 0, .ro, .wr, .none, 4⟩
def SEAL_PACC_CMD_ERR : Fld := ⟨0x900034, 28, 3, 0, .ro, .wr, .none, 4⟩
def SEAL_PACC_CMD_OP : Fld := ⟨0x900034, 0, 4, 0, .wo, .wr, .none, 4⟩
def SEAL_PACC_DATAn : Fld := ⟨0x900040, 0, 32, 0, .rw, .wr, .none, 4⟩
def SEAL_TACC_ADDR : Fld := ⟨0x900080, 0, 20, 0, .rwd, .wr, .none, 4⟩
def SEAL_TACC_DATA : Fld := ⟨0x900084, 0, 32, 0, .wo, .wr, .none, 4⟩
def SEAL_CURVEc_A_MULT : Fld := ⟨0x9000A0, 16, 3, 2, .rwd, .wr, .tmr, 8⟩
def SEAL_CURVEc_A_FIRST : Fld := ⟨0x9000A0, 0, 16, 1000, .rwd, .wr, .tmr, 8⟩
def SEAL_CURVEc_B : Fld := ⟨0x9000A4, 0, 16, 1000, .rwd, .wr, .tmr, 8⟩
def SEAL_CNT_RECORDS : Fld := ⟨0x900100, 0, 64, 0, .rlh, .wr, .none, 8⟩
def SEAL_CNT_REFUSED : Fld := ⟨0x900108, 0, 64, 0, .rlh, .wr, .none, 8⟩
def SEAL_CNT_FULL : Fld := ⟨0x900110, 0, 64, 0, .rlh, .wr, .none, 8⟩
def SEAL_CNT_SENT : Fld := ⟨0x900118, 0, 64, 0, .rlh, .wr, .none, 8⟩
def SEAL_CNT_REPEAT : Fld := ⟨0x900120, 0, 64, 0, .rlh, .wr, .none, 8⟩
def SEAL_CNT_KEYFAIL : Fld := ⟨0x900128, 0, 64, 0, .rlh, .wr, .none, 8⟩
def SEAL_CNT_LATEBUILD : Fld := ⟨0x900130, 0, 64, 0, .rlh, .wr, .none, 8⟩
def SEAL_CNT_QDROP : Fld := ⟨0x900138, 0, 64, 0, .rlh, .wr, .none, 8⟩
/-! Block PAIR, base 0xA00000. -/
def PAIR_CTRL_FAILING : Fld := ⟨0xA00000, 5, 1, 0, .w1s, .wr, .none, 4⟩
def PAIR_CTRL_HANDOVER_COLD : Fld := ⟨0xA00000, 4, 1, 0, .w1s, .wr, .none, 4⟩
def PAIR_CTRL_HANDOVER : Fld := ⟨0xA00000, 3, 1, 0, .w1s, .wr, .none, 4⟩
def PAIR_CTRL_RESYNC : Fld := ⟨0xA00000, 2, 1, 0, .w1s, .wr, .none, 4⟩
def PAIR_CTRL_EN : Fld := ⟨0xA00000, 0, 1, 0, .rw, .wr, .none, 4⟩
def PAIR_STATUS_GRID : Fld := ⟨0xA00004, 17, 1, 0, .ro, .wr, .none, 4⟩
def PAIR_STATUS_HO_REFUSED : Fld := ⟨0xA00004, 16, 1, 0, .w1c, .wr, .none, 4⟩
def PAIR_STATUS_ROLE_CHG : Fld := ⟨0xA00004, 15, 1, 0, .w1c, .wr, .none, 4⟩
def PAIR_STATUS_GATE_OPEN : Fld := ⟨0xA00004, 14, 1, 0, .ro, .wr, .none, 4⟩
def PAIR_STATUS_IL_QUIET : Fld := ⟨0xA00004, 13, 1, 0, .ro, .wr, .none, 4⟩
def PAIR_STATUS_FOREIGN : Fld := ⟨0xA00004, 12, 1, 0, .ro, .wr, .none, 4⟩
def PAIR_STATUS_SKEW_BAD : Fld := ⟨0xA00004, 11, 1, 0, .ro, .wr, .none, 4⟩
def PAIR_STATUS_IL_RB_FAULT : Fld := ⟨0xA00004, 10, 1, 0, .w1c, .st, .none, 4⟩
def PAIR_STATUS_LINK_UP : Fld := ⟨0xA00004, 9, 1, 0, .ro, .wr, .none, 4⟩
def PAIR_STATUS_SYNC : Fld := ⟨0xA00004, 7, 2, 0, .ro, .wr, .none, 4⟩
def PAIR_STATUS_STATE : Fld := ⟨0xA00004, 4, 3, 0, .ro, .wr, .none, 4⟩
def PAIR_STATUS_CFG_ERR : Fld := ⟨0xA00004, 3, 1, 0, .ro, .wr, .none, 4⟩
def PAIR_STATUS_RUNNING : Fld := ⟨0xA00004, 1, 1, 0, .ro, .wr, .none, 4⟩
def PAIR_STATUS_WIGN : Fld := ⟨0xA00004, 0, 1, 0, .w1c, .wr, .none, 4⟩
def PAIR_WIGN_ADDR : Fld := ⟨0xA00008, 0, 12, 0, .ro, .wr, .none, 4⟩
def PAIR_CFG_TIME_FOLLOW : Fld := ⟨0xA00010, 4, 1, 0, .rwd, .wr, .none, 4⟩
def PAIR_CFG_COLD_TAKE : Fld := ⟨0xA00010, 3, 1, 1, .rwd, .wr, .tmr, 4⟩
def PAIR_CFG_AUTO_RS : Fld := ⟨0xA00010, 2, 1, 1, .rwd, .wr, .none, 4⟩
def PAIR_CFG_PREFER : Fld := ⟨0xA00010, 1, 1, 0, .rwd, .wr, .tmr, 4⟩
def PAIR_CFG_MODE : Fld := ⟨0xA00010, 0, 1, 1, .rwd, .wr, .tmr, 4⟩
def PAIR_HB_CFG_LISTEN_TMO : Fld := ⟨0xA00014, 24, 8, 20, .rwd, .wr, .none, 4⟩
def PAIR_HB_CFG_MISS : Fld := ⟨0xA00014, 16, 4, 3, .rwd, .wr, .tmr, 4⟩
def PAIR_HB_CFG_PERIOD : Fld := ⟨0xA00014, 0, 10, 50, .rwd, .wr, .tmr, 4⟩
def PAIR_RS_CFG : Fld := ⟨0xA00018, 0, 15, 512, .rwd, .wr, .none, 4⟩
def PAIR_PROBE_CFG : Fld := ⟨0xA0001C, 0, 9, 32, .rwd, .wr, .none, 4⟩
def PAIR_HEALTH : Fld := ⟨0xA00020, 0, 32, 0, .ro, .wr, .none, 4⟩
def PAIR_PHEALTH : Fld := ⟨0xA00024, 0, 32, 0, .ro, .wr, .none, 4⟩
def PAIR_SKEW : Fld := ⟨0xA00028, 0, 32, 0, .ro, .wr, .none, 4⟩
def PAIR_RTT : Fld := ⟨0xA0002C, 0, 16, 0, .ro, .wr, .none, 4⟩
def PAIR_RTT_MAX : Fld := ⟨0xA00030, 0, 16, 0, .rc, .wr, .none, 4⟩
def PAIR_PEER_STRAP : Fld := ⟨0xA00034, 16, 1, 0, .ro, .wr, .none, 4⟩
def PAIR_PEER_DEVICE_ID : Fld := ⟨0xA00034, 0, 16, 0, .ro, .wr, .none, 4⟩
def PAIR_COMMIT : Fld := ⟨0xA00038, 0, 64, 0, .rlh, .wr, .none, 4⟩
def PAIR_RS_LEFT : Fld := ⟨0xA00040, 0, 32, 0, .ro, .wr, .none, 4⟩
def PAIR_PFROZENn : Fld := ⟨0xA00060, 0, 32, 0, .ro, .wr, .none, 4⟩
def PAIR_CNT_PROMOTE : Fld := ⟨0xA00100, 0, 64, 0, .rlh, .st, .none, 8⟩
def PAIR_CNT_RERUN : Fld := ⟨0xA00108, 0, 64, 0, .rlh, .wr, .none, 8⟩
def PAIR_CNT_HANDOVER : Fld := ⟨0xA00110, 0, 64, 0, .rlh, .wr, .none, 8⟩
def PAIR_CNT_RESYNC : Fld := ⟨0xA00118, 0, 64, 0, .rlh, .wr, .none, 8⟩
def PAIR_CNT_DIGEST : Fld := ⟨0xA00120, 0, 64, 0, .rlh, .wr, .none, 8⟩
def PAIR_CNT_CRC : Fld := ⟨0xA00128, 0, 64, 0, .rlh, .wr, .none, 8⟩
def PAIR_CNT_SEQ_GAP : Fld := ⟨0xA00130, 0, 64, 0, .rlh, .wr, .none, 8⟩
def PAIR_CNT_NACK : Fld := ⟨0xA00138, 0, 64, 0, .rlh, .wr, .none, 8⟩
def PAIR_CNT_IL_FAULT : Fld := ⟨0xA00140, 0, 64, 0, .rlh, .st, .none, 8⟩
def PAIR_CNT_PROBES : Fld := ⟨0xA00148, 0, 64, 0, .rlh, .wr, .none, 8⟩
def PAIR_CNT_PROBE_FAIL : Fld := ⟨0xA00150, 0, 64, 0, .rlh, .wr, .none, 8⟩
def PAIR_CNT_STBY_NOMEMBER : Fld := ⟨0xA00158, 0, 64, 0, .rlh, .wr, .none, 8⟩
def PAIR_CNT_LOST : Fld := ⟨0xA00160, 0, 64, 0, .rlh, .wr, .none, 8⟩
def PAIR_CNT_SPLIT : Fld := ⟨0xA00168, 0, 64, 0, .rlh, .wr, .none, 8⟩
def PAIR_CNT_SKEW : Fld := ⟨0xA00170, 0, 64, 0, .rlh, .wr, .none, 8⟩
/-! Block TUDEL, base 0xB00000. -/
def TUDEL_CTRL : Fld := ⟨0xB00000, 0, 1, 0, .rw, .wr, .none, 4⟩
def TUDEL_STATUS_MISWIRED : Fld := ⟨0xB00004, 5, 1, 0, .w1c, .st, .none, 4⟩
def TUDEL_STATUS_EPOCH_EVICT : Fld := ⟨0xB00004, 4, 1, 0, .w1c, .wr, .none, 4⟩
def TUDEL_STATUS_FACC_ERR : Fld := ⟨0xB00004, 3, 1, 0, .w1c, .wr, .none, 4⟩
def TUDEL_STATUS_CFG_ERR : Fld := ⟨0xB00004, 2, 1, 0, .ro, .wr, .none, 4⟩
def TUDEL_STATUS_RUNNING : Fld := ⟨0xB00004, 1, 1, 0, .ro, .wr, .none, 4⟩
def TUDEL_STATUS_WIGN : Fld := ⟨0xB00004, 0, 1, 0, .w1c, .wr, .none, 4⟩
def TUDEL_WIGN_ADDR : Fld := ⟨0xB00008, 0, 12, 0, .ro, .wr, .none, 4⟩
def TUDEL_CFG_LINK_EN : Fld := ⟨0xB00010, 24, 8, 0, .rwd, .wr, .tmr, 4⟩
def TUDEL_CFG_BOARD_POS : Fld := ⟨0xB00010, 16, 3, 0, .rwd, .wr, .tmr, 4⟩
def TUDEL_CFG_DEVICE_ID : Fld := ⟨0xB00010, 0, 16, 0, .rwd, .wr, .tmr, 4⟩
def TUDEL_ORIGIN : Fld := ⟨0xB00014, 0, 16, 0, .rwd, .wr, .tmr, 4⟩
def TUDEL_TRAIN : Fld := ⟨0xB00018, 0, 8, 100, .rwd, .wr, .none, 4⟩
def TUDEL_LINKj_STATUS_PEER_ID : Fld := ⟨0xB00020, 16, 16, 0, .ro, .wr, .none, 4⟩
def TUDEL_LINKj_STATUS_PEER_POS : Fld := ⟨0xB00020, 8, 3, 0, .ro, .wr, .none, 4⟩
def TUDEL_LINKj_STATUS_MISWIRE : Fld := ⟨0xB00020, 3, 3, 0, .ro, .wr, .none, 4⟩
def TUDEL_LINKj_STATUS_LSTATE : Fld := ⟨0xB00020, 0, 3, 0, .ro, .wr, .none, 4⟩
def TUDEL_LINKj_CFG_DELAY : Fld := ⟨0xB00040, 16, 16, 0, .rwd, .wr, .none, 4⟩
def TUDEL_LINKj_CFG_TX_PRESET : Fld := ⟨0xB00040, 8, 4, 0, .rwd, .wr, .none, 4⟩
def TUDEL_LINKj_CFG_RX_POL : Fld := ⟨0xB00040, 2, 2, 0, .rwd, .wr, .none, 4⟩
def TUDEL_LINKj_CFG_TX_POL : Fld := ⟨0xB00040, 0, 2, 0, .rwd, .wr, .none, 4⟩
def TUDEL_SKEWj : Fld := ⟨0xB00060, 0, 32, 0, .ro, .wr, .none, 4⟩
def TUDEL_FACC_IDX : Fld := ⟨0xB00080, 0, 10, 0, .rw, .wr, .none, 4⟩
def TUDEL_FACC_CMD_BUSY : Fld := ⟨0xB00084, 31, 1, 0, .ro, .wr, .none, 4⟩
def TUDEL_FACC_CMD_ERR : Fld := ⟨0xB00084, 28, 3, 0, .ro, .wr, .none, 4⟩
def TUDEL_FACC_CMD_OP : Fld := ⟨0xB00084, 0, 4, 0, .wo, .wr, .none, 4⟩
def TUDEL_FACC_DATAn : Fld := ⟨0xB00088, 0, 32, 0, .rw, .wr, .none, 4⟩
def TUDEL_FRZ_CMD_GO : Fld := ⟨0xB000A0, 31, 1, 0, .w1s, .wr, .none, 4⟩
def TUDEL_FRZ_CMD_PUB : Fld := ⟨0xB000A0, 0, 13, 0, .rw, .wr, .none, 4⟩
def TUDEL_FRZ_ARG01 : Fld := ⟨0xB000A4, 0, 32, 0, .rw, .wr, .none, 4⟩
def TUDEL_FRZ_ARG2_DEST : Fld := ⟨0xB000AC, 16, 16, 0, .rw, .wr, .none, 4⟩
def TUDEL_FRZ_ARG2_REASON : Fld := ⟨0xB000AC, 0, 16, 0, .rw, .wr, .none, 4⟩
def TUDEL_CNT_FWD_FRAMES : Fld := ⟨0xB00100, 0, 64, 0, .rlh, .wr, .none, 8⟩
def TUDEL_CNT_FWD_LATE : Fld := ⟨0xB00108, 0, 64, 0, .rlh, .wr, .none, 8⟩
def TUDEL_CNT_RX_FRAMES : Fld := ⟨0xB00110, 0, 64, 0, .rlh, .wr, .none, 8⟩
def TUDEL_CNT_RX_DROP : Fld := ⟨0xB00118, 0, 64, 0, .rlh, .wr, .none, 8⟩
def TUDEL_CNT_TX_DOWN : Fld := ⟨0xB00120, 0, 64, 0, .rlh, .wr, .none, 8⟩
def TUDEL_CNT_NOT_MINE : Fld := ⟨0xB00128, 0, 64, 0, .rlh, .wr, .none, 8⟩
def TUDEL_CNT_EPOCH_EVICT : Fld := ⟨0xB00130, 0, 64, 0, .rlh, .wr, .none, 8⟩
/-! Block VAULT, base 0xC00000. -/
def VAULT_CTRL : Fld := ⟨0xC00000, 0, 1, 0, .rw, .wr, .none, 4⟩
def VAULT_STATUS_HOLD : Fld := ⟨0xC00004, 9, 1, 0, .ro, .wr, .none, 4⟩
def VAULT_STATUS_NO_ENTROPY : Fld := ⟨0xC00004, 8, 1, 0, .ro, .wr, .none, 4⟩
def VAULT_STATUS_SLOT_BAD : Fld := ⟨0xC00004, 7, 1, 0, .w1c, .st, .none, 4⟩
def VAULT_STATUS_KAT_FAIL : Fld := ⟨0xC00004, 6, 1, 0, .ro, .wr, .inv, 4⟩
def VAULT_STATUS_ROOT_FAIL : Fld := ⟨0xC00004, 5, 1, 0, .ro, .wr, .inv, 4⟩
def VAULT_STATUS_CMD_ERR : Fld := ⟨0xC00004, 4, 1, 0, .w1c, .wr, .none, 4⟩
def VAULT_STATUS_INIT_BUSY : Fld := ⟨0xC00004, 3, 1, 0, .ro, .wr, .none, 4⟩
def VAULT_STATUS_CFG_ERR : Fld := ⟨0xC00004, 2, 1, 0, .ro, .wr, .none, 4⟩
def VAULT_STATUS_RUNNING : Fld := ⟨0xC00004, 1, 1, 0, .ro, .wr, .none, 4⟩
def VAULT_STATUS_WIGN : Fld := ⟨0xC00004, 0, 1, 0, .w1c, .wr, .none, 4⟩
def VAULT_WIGN_ADDR : Fld := ⟨0xC00008, 0, 12, 0, .ro, .wr, .none, 4⟩
def VAULT_CFG : Fld := ⟨0xC00010, 0, 10, 0, .rwd, .wr, .tmr, 4⟩
def VAULT_UIDn : Fld := ⟨0xC00014, 0, 32, 0, .ro, .po, .inv, 4⟩
def VAULT_SLOT_SUM_BAD : Fld := ⟨0xC00024, 16, 10, 0, .ro, .wr, .none, 4⟩
def VAULT_SLOT_SUM_VALID : Fld := ⟨0xC00024, 0, 10, 0, .ro, .wr, .none, 4⟩
def VAULT_CMD_BUSY : Fld := ⟨0xC00030, 31, 1, 0, .ro, .wr, .none, 4⟩
def VAULT_CMD_OP : Fld := ⟨0xC00030, 0, 8, 0, .wo, .wr, .none, 4⟩
def VAULT_CMD_RES : Fld := ⟨0xC00034, 0, 16, 0, .ro, .wr, .none, 4⟩
def VAULT_CMD_DATAn : Fld := ⟨0xC00040, 0, 32, 0, .rw, .wr, .none, 4⟩
def VAULT_CMD_OUTn : Fld := ⟨0xC00080, 0, 32, 0, .ro, .wr, .none, 4⟩
def VAULT_RNG_CFG_APT_CUT : Fld := ⟨0xC00100, 16, 11, 930, .rwd, .wr, .tmr, 4⟩
def VAULT_RNG_CFG_RCT_CUT : Fld := ⟨0xC00100, 8, 8, 121, .rwd, .wr, .tmr, 4⟩
def VAULT_RNG_CFG_RETEST : Fld := ⟨0xC00100, 0, 8, 10, .rwd, .wr, .none, 4⟩
def VAULT_RNG_STATUS_POLICY : Fld := ⟨0xC00104, 12, 1, 0, .ro, .wr, .none, 4⟩
def VAULT_RNG_STATUS_STARTUP : Fld := ⟨0xC00104, 8, 4, 0, .ro, .wr, .none, 4⟩
def VAULT_RNG_STATUS_FAILED : Fld := ⟨0xC00104, 4, 4, 0, .w1c, .wr, .none, 4⟩
def VAULT_RNG_STATUS_IN_USE : Fld := ⟨0xC00104, 0, 4, 0, .ro, .wr, .none, 4⟩
def VAULT_RNG_RAWSEL : Fld := ⟨0xC00108, 0, 2, 0, .rw, .wr, .none, 4⟩
def VAULT_RNG_RAW : Fld := ⟨0xC0010C, 0, 32, 0, .ro, .wr, .none, 4⟩
def VAULT_DRBG_IDX : Fld := ⟨0xC00110, 0, 9, 0, .rw, .wr, .none, 4⟩
def VAULT_DRBG_STAT_READY : Fld := ⟨0xC00114, 31, 1, 0, .ro, .wr, .none, 4⟩
def VAULT_DRBG_STAT_COUNT : Fld := ⟨0xC00114, 0, 21, 0, .ro, .wr, .none, 4⟩
def VAULT_HOLD : Fld := ⟨0xC00118, 0, 20, 0, .ro, .wr, .none, 4⟩
def VAULT_HOLD_MAX : Fld := ⟨0xC0011C, 0, 32, 0, .rc, .wr, .none, 4⟩
def VAULT_GEN_USED : Fld := ⟨0xC00120, 0, 13, 0, .ro, .wr, .none, 4⟩
def VAULT_CNT_CMDS : Fld := ⟨0xC00200, 0, 64, 0, .rlh, .wr, .none, 8⟩
def VAULT_CNT_REFUSED : Fld := ⟨0xC00208, 0, 64, 0, .rlh, .wr, .none, 8⟩
def VAULT_CNT_UNWRAP : Fld := ⟨0xC00210, 0, 64, 0, .rlh, .wr, .none, 8⟩
def VAULT_CNT_RESEED : Fld := ⟨0xC00218, 0, 64, 0, .rlh, .wr, .none, 8⟩
def VAULT_CNT_HOLDS : Fld := ⟨0xC00220, 0, 64, 0, .rlh, .wr, .none, 8⟩
def VAULT_CNT_HOLD_TMO : Fld := ⟨0xC00228, 0, 64, 0, .rlh, .wr, .none, 8⟩
def VAULT_CNT_ROOT_VOTE : Fld := ⟨0xC00230, 0, 64, 0, .rlh, .st, .none, 8⟩
def VAULT_CNT_SLOT_REPAIR : Fld := ⟨0xC00238, 0, 64, 0, .rlh, .st, .none, 8⟩
def VAULT_CNT_RCTn : Fld := ⟨0xC00240, 0, 64, 0, .rlh, .wr, .none, 8⟩
def VAULT_CNT_APTn : Fld := ⟨0xC00260, 0, 64, 0, .rlh, .wr, .none, 8⟩
def VAULT_PK_CFG_TMO : Fld := ⟨0xC00400, 16, 10, 200, .rwd, .wr, .none, 4⟩
def VAULT_PK_CFG_INFLIGHT : Fld := ⟨0xC00400, 0, 4, 2, .rwd, .wr, .none, 4⟩
def VAULT_PK_STATUS_BUSY : Fld := ⟨0xC00404, 8, 8, 0, .ro, .wr, .none, 4⟩
def VAULT_PK_STATUS_ENG_OK : Fld := ⟨0xC00404, 0, 8, 255, .ro, .st, .tmr, 4⟩
def VAULT_PK_CMD_BUSY : Fld := ⟨0xC00408, 31, 1, 0, .ro, .wr, .none, 4⟩
def VAULT_PK_CMD_STATUS : Fld := ⟨0xC00408, 16, 8, 0, .ro, .wr, .none, 4⟩
def VAULT_PK_CMD_GO : Fld := ⟨0xC00408, 0, 1, 0, .w1s, .wr, .none, 4⟩
def VAULT_PK_DESCn : Fld := ⟨0xC00440, 0, 32, 0, .rw, .wr, .none, 4⟩
def VAULT_PK_OUTn : Fld := ⟨0xC004A0, 0, 32, 0, .ro, .wr, .none, 4⟩
def VAULT_DC_CFG : Fld := ⟨0xC00500, 0, 12, 600, .rwd, .wr, .tmr, 4⟩
def VAULT_DC_CMD_BUSY : Fld := ⟨0xC00504, 31, 1, 0, .ro, .wr, .none, 4⟩
def VAULT_DC_CMD_CODE : Fld := ⟨0xC00504, 16, 8, 0, .ro, .wr, .none, 4⟩
def VAULT_DC_CMD_HOST : Fld := ⟨0xC00504, 8, 1, 0, .rw, .wr, .none, 4⟩
def VAULT_DC_CMD_OP : Fld := ⟨0xC00504, 0, 4, 0, .wo, .wr, .none, 4⟩
def VAULT_DC_ADDR : Fld := ⟨0xC00508, 0, 64, 0, .rw, .wr, .none, 4⟩
def VAULT_DC_LEN : Fld := ⟨0xC00510, 0, 11, 0, .rw, .wr, .none, 4⟩
def VAULT_DC_OPEN : Fld := ⟨0xC00514, 0, 4, 0, .ro, .wr, .none, 4⟩
def VAULT_DC_TRIP_CRC : Fld := ⟨0xC00518, 0, 32, 0, .ro, .wr, .none, 4⟩
def VAULT_DC_PENDING : Fld := ⟨0xC0051C, 0, 5, 0, .ro, .wr, .none, 4⟩
def VAULT_DC_CHALn : Fld := ⟨0xC00520, 0, 32, 0, .ro, .wr, .none, 4⟩
def VAULT_DC_REF : Fld := ⟨0xC00540, 0, 64, 0, .rlh, .wr, .none, 4⟩
def VAULT_DC_DETAIL : Fld := ⟨0xC00548, 0, 16, 0, .ro, .wr, .none, 4⟩
def VAULT_CUST_IDX : Fld := ⟨0xC00600, 0, 5, 0, .rw, .wr, .none, 4⟩
def VAULT_CUST_SUM_B : Fld := ⟨0xC00604, 8, 5, 0, .ro, .wr, .none, 4⟩
def VAULT_CUST_SUM_A : Fld := ⟨0xC00604, 0, 5, 0, .ro, .wr, .none, 4⟩
def VAULT_CUST_DATAn : Fld := ⟨0xC00640, 0, 32, 0, .ro, .wr, .none, 4⟩
def VAULT_CNT_PK_JOBS : Fld := ⟨0xC00800, 0, 64, 0, .rlh, .wr, .none, 8⟩
def VAULT_CNT_PK_VFAIL : Fld := ⟨0xC00808, 0, 64, 0, .rlh, .wr, .none, 8⟩
def VAULT_CNT_PK_SIGFAULT : Fld := ⟨0xC00810, 0, 64, 0, .rlh, .st, .none, 8⟩
def VAULT_CNT_PK_TMO : Fld := ⟨0xC00818, 0, 64, 0, .rlh, .wr, .none, 8⟩
def VAULT_CNT_DC_OK : Fld := ⟨0xC00820, 0, 64, 0, .rlh, .wr, .none, 8⟩
def VAULT_CNT_DC_REFUSED : Fld := ⟨0xC00828, 0, 64, 0, .rlh, .wr, .none, 8⟩
/-! Block GUARD, base 0xD00000. -/
def GUARD_CTRL : Fld := ⟨0xD00000, 0, 1, 0, .rw, .wr, .none, 4⟩
def GUARD_STATUS_REP_FULL : Fld := ⟨0xD00004, 5, 1, 0, .w1c, .wr, .none, 4⟩
def GUARD_STATUS_TAG_UE : Fld := ⟨0xD00004, 4, 1, 0, .w1c, .st, .none, 4⟩
def GUARD_STATUS_ACC_ERR : Fld := ⟨0xD00004, 3, 1, 0, .w1c, .wr, .none, 4⟩
def GUARD_STATUS_CFG_ERR : Fld := ⟨0xD00004, 2, 1, 0, .ro, .wr, .none, 4⟩
def GUARD_STATUS_RUNNING : Fld := ⟨0xD00004, 1, 1, 0, .ro, .wr, .none, 4⟩
def GUARD_STATUS_WIGN : Fld := ⟨0xD00004, 0, 1, 0, .w1c, .wr, .none, 4⟩
def GUARD_WIGN_ADDR : Fld := ⟨0xD00008, 0, 12, 0, .ro, .wr, .none, 4⟩
def GUARD_RACC_IDX_SLICE : Fld := ⟨0xD00020, 4, 8, 0, .rw, .wr, .none, 4⟩
def GUARD_RACC_IDX_REGION : Fld := ⟨0xD00020, 0, 4, 0, .rw, .wr, .none, 4⟩
def GUARD_RACC_CMD_BUSY : Fld := ⟨0xD00024, 31, 1, 0, .ro, .wr, .none, 4⟩
def GUARD_RACC_CMD_ERR : Fld := ⟨0xD00024, 28, 3, 0, .ro, .wr, .none, 4⟩
def GUARD_RACC_CMD_OP : Fld := ⟨0xD00024, 0, 4, 0, .wo, .wr, .none, 4⟩
def GUARD_RACC_DATAn : Fld := ⟨0xD00030, 0, 32, 0, .rw, .wr, .none, 4⟩
def GUARD_TAG_SEL_MEM : Fld := ⟨0xD00040, 28, 4, 0, .rw, .wr, .none, 4⟩
def GUARD_TAG_SEL_INDEX : Fld := ⟨0xD00040, 0, 11, 0, .rw, .wr, .none, 4⟩
def GUARD_TAG_OFS : Fld := ⟨0xD00044, 0, 32, 0, .rw, .wr, .none, 4⟩
def GUARD_TAG_LEN : Fld := ⟨0xD00048, 0, 32, 0, .rw, .wr, .none, 4⟩
def GUARD_TAG_CMD_BUSY : Fld := ⟨0xD0004C, 31, 1, 0, .ro, .wr, .none, 4⟩
def GUARD_TAG_CMD_ERR : Fld := ⟨0xD0004C, 28, 3, 0, .ro, .wr, .none, 4⟩
def GUARD_TAG_CMD_COLOUR : Fld := ⟨0xD0004C, 8, 8, 0, .rw, .wr, .none, 4⟩
def GUARD_TAG_CMD_OP : Fld := ⟨0xD0004C, 0, 4, 0, .wo, .wr, .none, 4⟩
def GUARD_REP_CNT : Fld := ⟨0xD00060, 0, 9, 0, .ro, .wr, .none, 4⟩
def GUARD_REP_POP : Fld := ⟨0xD00064, 0, 1, 0, .w1s, .wr, .none, 4⟩
def GUARD_REP_DATAn : Fld := ⟨0xD00070, 0, 32, 0, .ro, .wr, .none, 4⟩
def GUARD_CNT_REFUSE : Fld := ⟨0xD00100, 0, 64, 0, .rlh, .wr, .none, 8⟩
def GUARD_CNT_PRIV : Fld := ⟨0xD00108, 0, 64, 0, .rlh, .wr, .none, 8⟩
def GUARD_CNT_REP_DROP : Fld := ⟨0xD00110, 0, 64, 0, .rlh, .wr, .none, 8⟩
def GUARD_CNT_TAG_CE : Fld := ⟨0xD00118, 0, 64, 0, .rlh, .wr, .none, 8⟩
def GUARD_CNT_TAG_UE : Fld := ⟨0xD00120, 0, 64, 0, .rlh, .st, .none, 8⟩
def GUARD_CNT_POLICY : Fld := ⟨0xD00128, 0, 64, 0, .rlh, .wr, .none, 8⟩
def GUARD_SCOLn_STATE_COL : Fld := ⟨0xD00400, 16, 8, 2, .rwd, .wr, .tmr, 4⟩
def GUARD_SCOLn_HIST_COL : Fld := ⟨0xD00400, 8, 8, 2, .rwd, .wr, .tmr, 4⟩
def GUARD_SCOLn_SCR_COL : Fld := ⟨0xD00400, 0, 8, 2, .rwd, .wr, .tmr, 4⟩
def GUARD_POLn_COUNT : Fld := ⟨0xD00800, 24, 8, 0, .ro, .wr, .none, 4⟩
def GUARD_POLn_COUNT_MAX : Fld := ⟨0xD00800, 16, 8, 0, .rw, .wr, .none, 4⟩
def GUARD_POLn_CLR : Fld := ⟨0xD00800, 15, 1, 0, .w1s, .wr, .none, 4⟩
def GUARD_POLn_ARMED : Fld := ⟨0xD00800, 2, 1, 0, .ro, .wr, .none, 4⟩
def GUARD_POLn_ACTION : Fld := ⟨0xD00800, 0, 2, 0, .rw, .wr, .tmr, 4⟩
/-! Block EVT, base 0xE00000. -/
def EVT_CTRL_LDG_EN : Fld := ⟨0xE00000, 1, 1, 0, .rw, .wr, .none, 4⟩
def EVT_CTRL_EN : Fld := ⟨0xE00000, 0, 1, 0, .rw, .wr, .none, 4⟩
def EVT_STATUS_CLEARING : Fld := ⟨0xE00004, 8, 1, 0, .ro, .bk, .none, 4⟩
def EVT_STATUS_NO_FLASH : Fld := ⟨0xE00004, 7, 1, 0, .ro, .wr, .none, 4⟩
def EVT_STATUS_FULL : Fld := ⟨0xE00004, 6, 1, 0, .ro, .wr, .none, 4⟩
def EVT_STATUS_DROP : Fld := ⟨0xE00004, 5, 1, 0, .w1c, .wr, .none, 4⟩
def EVT_STATUS_TORN : Fld := ⟨0xE00004, 4, 1, 0, .w1c, .st, .none, 4⟩
def EVT_STATUS_STACK_ORDER : Fld := ⟨0xE00004, 3, 1, 0, .w1c, .wr, .none, 4⟩
def EVT_STATUS_RECOVER_BUSY : Fld := ⟨0xE00004, 2, 1, 0, .ro, .wr, .none, 4⟩
def EVT_STATUS_RUNNING : Fld := ⟨0xE00004, 1, 1, 0, .ro, .wr, .none, 4⟩
def EVT_STATUS_WIGN : Fld := ⟨0xE00004, 0, 1, 0, .w1c, .wr, .none, 4⟩
def EVT_WIGN_ADDR : Fld := ⟨0xE00008, 0, 12, 0, .ro, .wr, .none, 4⟩
def EVT_CLAIM_VALID : Fld := ⟨0xE00010, 31, 1, 0, .ro, .wr, .none, 4⟩
def EVT_CLAIM_PRIO : Fld := ⟨0xE00010, 16, 4, 0, .ro, .wr, .none, 4⟩
def EVT_CLAIM_SOURCE : Fld := ⟨0xE00010, 0, 9, 0, .ro, .wr, .none, 4⟩
def EVT_EOI : Fld := ⟨0xE00014, 0, 9, 0, .wo, .wr, .none, 4⟩
def EVT_STACK_TOP_VALID : Fld := ⟨0xE00018, 31, 1, 0, .ro, .wr, .none, 4⟩
def EVT_STACK_TOP_DEPTH : Fld := ⟨0xE00018, 24, 5, 0, .ro, .wr, .none, 4⟩
def EVT_STACK_TOP_PRIO : Fld := ⟨0xE00018, 16, 4, 0, .ro, .wr, .none, 4⟩
def EVT_STACK_TOP_SOURCE : Fld := ⟨0xE00018, 0, 9, 0, .ro, .wr, .none, 4⟩
def EVT_FW_CODE : Fld := ⟨0xE0001C, 0, 16, 0, .wo, .wr, .none, 4⟩
def EVT_FW_Pn : Fld := ⟨0xE00020, 0, 32, 0, .rw, .wr, .none, 4⟩
def EVT_SOFT : Fld := ⟨0xE00030, 0, 32, 0, .w1s, .wr, .none, 4⟩
def EVT_PENDn : Fld := ⟨0xE00080, 0, 32, 0, .ro, .wr, .none, 4⟩
def EVT_STACKn_VALID : Fld := ⟨0xE000C0, 31, 1, 0, .ro, .wr, .none, 4⟩
def EVT_STACKn_DEPTH : Fld := ⟨0xE000C0, 24, 5, 0, .ro, .wr, .none, 4⟩
def EVT_STACKn_PRIO : Fld := ⟨0xE000C0, 16, 4, 0, .ro, .wr, .none, 4⟩
def EVT_STACKn_SOURCE : Fld := ⟨0xE000C0, 0, 9, 0, .ro, .wr, .none, 4⟩
def LDG_CFG : Fld := ⟨0xE00100, 16, 16, 1000, .rwd, .wr, .tmr, 4⟩
def LDG_NEXT : Fld := ⟨0xE00104, 0, 21, 0, .ro, .wr, .none, 4⟩
def LDG_BUF : Fld := ⟨0xE00108, 0, 15, 0, .ro, .wr, .none, 4⟩
def LDG_SEQ : Fld := ⟨0xE0010C, 0, 32, 0, .ro, .wr, .none, 4⟩
def LDG_RD_IDX : Fld := ⟨0xE00110, 0, 21, 0, .rw, .wr, .none, 4⟩
def LDG_RD_STAT_ERASED : Fld := ⟨0xE00114, 1, 1, 0, .ro, .wr, .none, 4⟩
def LDG_RD_STAT_CRC_OK : Fld := ⟨0xE00114, 0, 1, 0, .ro, .wr, .none, 4⟩
def LDG_RD_DATAn : Fld := ⟨0xE00120, 0, 32, 0, .ro, .wr, .none, 4⟩
def LDG_EXP_CMD_BUSY : Fld := ⟨0xE00160, 31, 1, 0, .ro, .wr, .none, 4⟩
def LDG_EXP_CMD_ERR : Fld := ⟨0xE00160, 28, 3, 0, .ro, .wr, .none, 4⟩
def LDG_EXP_CMD_HOST : Fld := ⟨0xE00160, 5, 1, 0, .rw, .wr, .none, 4⟩
def LDG_EXP_CMD_GO : Fld := ⟨0xE00160, 4, 1, 0, .w1s, .wr, .none, 4⟩
def LDG_EXP_ADDR : Fld := ⟨0xE00164, 0, 64, 0, .rw, .wr, .none, 4⟩
def LDG_EXP_MAN : Fld := ⟨0xE0016C, 0, 64, 0, .rw, .wr, .none, 4⟩
def LDG_EXP_FIRST : Fld := ⟨0xE00174, 0, 21, 0, .rw, .wr, .none, 4⟩
def LDG_EXP_COUNT : Fld := ⟨0xE00178, 0, 21, 0, .rw, .wr, .none, 4⟩
def LDG_CLR_POS : Fld := ⟨0xE0017C, 0, 10, 0, .ro, .bk, .none, 4⟩
def LDG_EXP_SEQ : Fld := ⟨0xE00180, 0, 64, 0, .rlh, .st, .none, 4⟩
def LDG_CNT_RECORDS : Fld := ⟨0xE00200, 0, 64, 0, .rlh, .wr, .none, 8⟩
def LDG_CNT_DROP : Fld := ⟨0xE00208, 0, 64, 0, .rlh, .wr, .none, 8⟩
def LDG_CNT_TORN : Fld := ⟨0xE00210, 0, 64, 0, .rlh, .st, .none, 8⟩
def EVT_CNT_STACK_ORDER : Fld := ⟨0xE00218, 0, 64, 0, .rlh, .wr, .none, 8⟩
def EVT_CNTn : Fld := ⟨0xE00400, 0, 32, 0, .rc, .wr, .none, 4⟩
def EVT_SRCn_CFG_WAKE : Fld := ⟨0xE00800, 11, 1, 0, .rwd, .wr, .none, 4⟩
def EVT_SRCn_CFG_HOSTVEC : Fld := ⟨0xE00800, 7, 4, 0, .rwd, .wr, .none, 4⟩
def EVT_SRCn_CFG_EN : Fld := ⟨0xE00800, 4, 1, 0, .rwd, .wr, .none, 4⟩
def EVT_SRCn_CFG_PRIO : Fld := ⟨0xE00800, 0, 4, 0, .rwd, .wr, .none, 4⟩
/-! Block PWR, base 0xF00000. -/
def PWR_CTRL : Fld := ⟨0xF00000, 0, 1, 0, .rw, .wr, .none, 4⟩
def PWR_STATUS_THERM_WARN : Fld := ⟨0xF00004, 5, 1, 0, .ro, .wr, .none, 4⟩
def PWR_STATUS_WAKE_LATE : Fld := ⟨0xF00004, 4, 1, 0, .w1c, .wr, .none, 4⟩
def PWR_STATUS_CFG_ERR : Fld := ⟨0xF00004, 3, 1, 0, .ro, .wr, .none, 4⟩
def PWR_STATUS_RUNNING : Fld := ⟨0xF00004, 1, 1, 0, .ro, .wr, .none, 4⟩
def PWR_STATUS_WIGN : Fld := ⟨0xF00004, 0, 1, 0, .w1c, .wr, .none, 4⟩
def PWR_WIGN_ADDR : Fld := ⟨0xF00008, 0, 12, 0, .ro, .wr, .none, 4⟩
def PWR_POLICY_DWELL : Fld := ⟨0xF00010, 16, 16, 100, .rwd, .wr, .tmr, 4⟩
def PWR_POLICY_BANK_IDLE : Fld := ⟨0xF00010, 8, 8, 16, .rwd, .wr, .none, 4⟩
def PWR_THERM_CFG_ALERT_EN : Fld := ⟨0xF00014, 16, 1, 0, .rwd, .wr, .none, 4⟩
def PWR_THERM_CFG_WARN : Fld := ⟨0xF00014, 8, 8, 115, .rwd, .wr, .none, 4⟩
def PWR_THERM_CFG_HYST : Fld := ⟨0xF00014, 0, 8, 5, .rwd, .wr, .none, 4⟩
def PWR_TEMP_SENSOR : Fld := ⟨0xF00018, 16, 6, 0, .ro, .wr, .none, 4⟩
def PWR_TEMP_TJ : Fld := ⟨0xF00018, 0, 16, 0, .ro, .wr, .none, 4⟩
def PWR_DOMd_CFG_FLOOR : Fld := ⟨0xF00020, 16, 2, 3, .rwd, .wr, .tmr, 4⟩
def PWR_DOMd_CFG_TOL : Fld := ⟨0xF00020, 0, 16, 65535, .rwd, .wr, .tmr, 4⟩
def PWR_DOMd_STAT_BINDING : Fld := ⟨0xF00080, 24, 4, 0, .ro, .wr, .none, 4⟩
def PWR_DOMd_STAT_TARGET : Fld := ⟨0xF00080, 20, 2, 0, .ro, .wr, .none, 4⟩
def PWR_DOMd_STAT_STATE : Fld := ⟨0xF00080, 18, 2, 0, .ro, .wr, .none, 4⟩
def PWR_DOMd_STAT_WAKING : Fld := ⟨0xF00080, 17, 1, 0, .ro, .wr, .none, 4⟩
def PWR_DOMd_STAT_HELD : Fld := ⟨0xF00080, 16, 1, 0, .ro, .wr, .none, 4⟩
def PWR_DOMd_STAT_TOL : Fld := ⟨0xF00080, 0, 16, 0, .ro, .wr, .none, 4⟩
def PWR_DOMd_NJ : Fld := ⟨0xF00100, 0, 32, 0, .ro, .wr, .none, 4⟩
def PWR_AON_NJ : Fld := ⟨0xF00150, 0, 32, 0, .ro, .wr, .none, 4⟩
def PWR_BEAT_NJ : Fld := ⟨0xF00160, 0, 32, 0, .ro, .wr, .none, 4⟩
def PWR_DEV_FJ : Fld := ⟨0xF00164, 0, 32, 0, .ro, .wr, .none, 4⟩
def PWR_VFY_FJ : Fld := ⟨0xF00168, 0, 32, 0, .ro, .wr, .none, 4⟩
def PWR_VFY_FLOOR : Fld := ⟨0xF0016C, 0, 32, 40, .ro, .po, .none, 4⟩
def PWR_VFY_RATIO : Fld := ⟨0xF00170, 0, 16, 0, .ro, .wr, .none, 4⟩
def PWR_SMTR_IDX : Fld := ⟨0xF00180, 0, 8, 0, .rw, .wr, .none, 4⟩
def PWR_SMTR_DATAn : Fld := ⟨0xF00184, 0, 32, 0, .ro, .wr, .none, 4⟩
def PWR_CNT_TRANS : Fld := ⟨0xF00200, 0, 64, 0, .rlh, .wr, .none, 8⟩
def PWR_CNT_WAKE_LATE : Fld := ⟨0xF00208, 0, 64, 0, .rlh, .wr, .none, 8⟩
def PWR_CNT_ABANDON : Fld := ⟨0xF00210, 0, 64, 0, .rlh, .wr, .none, 8⟩
def PWR_CNT_UJ : Fld := ⟨0xF00218, 0, 64, 0, .rlh, .st, .none, 8⟩
/-! Block LIFE, base 0x1000000. -/
def TAMP_CTRL : Fld := ⟨0x1000000, 0, 1, 0, .rw, .wr, .none, 4⟩
def TAMP_STATUS_VBAT_LOST : Fld := ⟨0x1000004, 7, 1, 0, .ro, .bk, .none, 4⟩
def TAMP_STATUS_INV_ERR : Fld := ⟨0x1000004, 6, 1, 0, .w1c, .wr, .none, 4⟩
def TAMP_STATUS_ALERT : Fld := ⟨0x1000004, 5, 1, 0, .ro, .bk, .none, 4⟩
def TAMP_STATUS_LOCKED : Fld := ⟨0x1000004, 4, 1, 0, .ro, .bk, .inv, 4⟩
def TAMP_STATUS_CFG_ERR : Fld := ⟨0x1000004, 3, 1, 0, .ro, .wr, .none, 4⟩
def TAMP_STATUS_RUNNING : Fld := ⟨0x1000004, 1, 1, 0, .ro, .wr, .none, 4⟩
def TAMP_STATUS_WIGN : Fld := ⟨0x1000004, 0, 1, 0, .w1c, .wr, .none, 4⟩
def TAMP_WIGN_ADDR : Fld := ⟨0x1000008, 0, 12, 0, .ro, .wr, .none, 4⟩
def LIFE_STATE_DBG_LEVEL : Fld := ⟨0x1000010, 10, 2, 3, .ro, .wr, .none, 4⟩
def LIFE_STATE_DBG_OPEN : Fld := ⟨0x1000010, 8, 2, 3, .ro, .po, .none, 4⟩
def LIFE_STATE_DISAGREE : Fld := ⟨0x1000010, 4, 1, 0, .ro, .po, .none, 4⟩
def LIFE_STATE_STATE : Fld := ⟨0x1000010, 0, 3, 0, .ro, .po, .inv, 4⟩
def LIFE_COPY01_COPY1 : Fld := ⟨0x1000014, 16, 16, 0, .ro, .po, .none, 4⟩
def LIFE_COPY01_COPY0 : Fld := ⟨0x1000014, 0, 16, 0, .ro, .po, .none, 4⟩
def LIFE_COPY2 : Fld := ⟨0x1000018, 0, 16, 0, .ro, .po, .none, 4⟩
def LIFE_DIGESTS_DBG_OWNER : Fld := ⟨0x100001C, 5, 1, 0, .ro, .po, .none, 4⟩
def LIFE_DIGESTS_DBG_VENDOR : Fld := ⟨0x100001C, 4, 1, 1, .ro, .po, .none, 4⟩
def LIFE_DIGESTS_SCRAP : Fld := ⟨0x100001C, 3, 1, 0, .ro, .po, .none, 4⟩
def LIFE_DIGESTS_RETURN : Fld := ⟨0x100001C, 2, 1, 0, .ro, .po, .none, 4⟩
def LIFE_DIGESTS_FIELD : Fld := ⟨0x100001C, 1, 1, 0, .ro, .po, .none, 4⟩
def LIFE_DIGESTS_BENCH : Fld := ⟨0x100001C, 0, 1, 1, .ro, .po, .none, 4⟩
def LIFE_CMD_BUSY : Fld := ⟨0x1000020, 31, 1, 0, .ro, .wr, .none, 4⟩
def LIFE_CMD_ERR : Fld := ⟨0x1000020, 16, 8, 0, .ro, .wr, .none, 4⟩
def LIFE_CMD_OP : Fld := ⟨0x1000020, 0, 4, 0, .wo, .wr, .none, 4⟩
def LIFE_CMD_DATAn : Fld := ⟨0x1000040, 0, 32, 0, .rw, .wr, .none, 4⟩
def LIFE_DBG_LEVEL : Fld := ⟨0x1000080, 18, 2, 0, .ro, .wr, .none, 4⟩
def LIFE_DBG_OWNER : Fld := ⟨0x1000080, 17, 1, 0, .ro, .wr, .none, 4⟩
def LIFE_DBG_REMAIN : Fld := ⟨0x1000080, 0, 17, 0, .ro, .wr, .none, 4⟩
def TAMP_MTC : Fld := ⟨0x1000084, 0, 64, 0, .rlh, .bk, .none, 4⟩
def TAMP_ERA : Fld := ⟨0x100008C, 0, 7, 0, .ro, .po, .none, 4⟩
def TAMP_STICKY : Fld := ⟨0x1000090, 0, 32, 0, .ro, .bk, .inv, 4⟩
def TAMP_LIVE : Fld := ⟨0x1000094, 0, 32, 0, .ro, .wr, .none, 4⟩
def TAMP_INV_ADDR : Fld := ⟨0x1000098, 0, 24, 0, .ro, .wr, .none, 4⟩
def TAMP_SRCn_CFG_EN : Fld := ⟨0x1000100, 31, 1, 1, .rwd, .wr, .inv, 4⟩
def TAMP_SRCn_CFG_N : Fld := ⟨0x1000100, 24, 4, 1, .rwd, .wr, .inv, 4⟩
def TAMP_SRCn_CFG_RESP : Fld := ⟨0x1000100, 22, 2, 0, .rwd, .wr, .inv, 4⟩
def TAMP_SRCn_CFG_WINDOW : Fld := ⟨0x1000100, 0, 16, 1, .rwd, .wr, .inv, 4⟩
def TAMP_RECn_FIRST : Fld := ⟨0x1000200, 0, 32, 0, .ro, .bk, .inv, 16⟩
def TAMP_RECn_LAST : Fld := ⟨0x1000204, 0, 32, 0, .ro, .bk, .inv, 16⟩
def TAMP_RECn_CNT_COUNT : Fld := ⟨0x1000208, 16, 16, 0, .ro, .bk, .none, 16⟩
def TAMP_RECn_CNT_PARAM : Fld := ⟨0x1000208, 0, 16, 0, .ro, .bk, .none, 16⟩
def TAMP_CNT_INV : Fld := ⟨0x1000400, 0, 64, 0, .rlh, .bk, .none, 8⟩
/-! Block MTEST, base 0x1100000. -/
def MTEST_CTRL : Fld := ⟨0x1100000, 0, 1, 0, .rw, .wr, .none, 4⟩
def MTEST_STATUS_REC_FULL : Fld := ⟨0x1100004, 5, 1, 0, .ro, .po, .none, 4⟩
def MTEST_STATUS_SPARES_OUT : Fld := ⟨0x1100004, 4, 1, 0, .ro, .st, .none, 4⟩
def MTEST_STATUS_RETIRED : Fld := ⟨0x1100004, 3, 1, 0, .w1c, .st, .none, 4⟩
def MTEST_STATUS_CFG_ERR : Fld := ⟨0x1100004, 2, 1, 0, .ro, .wr, .none, 4⟩
def MTEST_STATUS_RUNNING : Fld := ⟨0x1100004, 1, 1, 0, .ro, .wr, .none, 4⟩
def MTEST_STATUS_WIGN : Fld := ⟨0x1100004, 0, 1, 0, .w1c, .wr, .none, 4⟩
def MTEST_WIGN_ADDR : Fld := ⟨0x1100008, 0, 12, 0, .ro, .wr, .none, 4⟩
def MTEST_CFG_AGE_LOG_H : Fld := ⟨0x1100010, 24, 8, 24, .rwd, .wr, .tmr, 4⟩
def MTEST_CFG_CE_LIMIT : Fld := ⟨0x1100010, 16, 8, 4, .rwd, .wr, .tmr, 4⟩
def MTEST_CFG_PASS_M : Fld := ⟨0x1100010, 8, 8, 60, .rwd, .wr, .none, 4⟩
def MTEST_SPARES_SHEDS : Fld := ⟨0x1100014, 16, 3, 4, .ro, .po, .none, 4⟩
def MTEST_SPARES_BANKS : Fld := ⟨0x1100014, 0, 6, 32, .ro, .po, .none, 4⟩
def MTEST_REC : Fld := ⟨0x1100018, 0, 12, 0, .ro, .po, .none, 4⟩
def MTEST_PASS : Fld := ⟨0x110001C, 0, 32, 0, .ro, .wr, .none, 4⟩
def MTEST_CNT_FOUND : Fld := ⟨0x1100100, 0, 64, 0, .rlh, .st, .none, 8⟩
def MTEST_CNT_ROWREP : Fld := ⟨0x1100108, 0, 64, 0, .rlh, .st, .none, 8⟩
def MTEST_CNT_SPARED : Fld := ⟨0x1100110, 0, 64, 0, .rlh, .st, .none, 8⟩
def MTEST_CNT_RETIRED : Fld := ⟨0x1100118, 0, 64, 0, .rlh, .st, .none, 8⟩
/-! Block SLICE, base 0x4000000. -/
def SLICE_CTRL_WAKE_EN : Fld := ⟨0x4000000, 1, 1, 0, .rw, .wr, .none, 4⟩
def SLICE_CTRL_EN : Fld := ⟨0x4000000, 0, 1, 0, .rw, .wr, .none, 4⟩
def SLICE_STATUS_STATE : Fld := ⟨0x4000004, 8, 3, 0, .ro, .wr, .none, 4⟩
def SLICE_STATUS_RESTORED : Fld := ⟨0x4000004, 7, 1, 0, .w1c, .wr, .none, 4⟩
def SLICE_STATUS_SAVED : Fld := ⟨0x4000004, 6, 1, 0, .w1c, .wr, .none, 4⟩
def SLICE_STATUS_INIT_BUSY : Fld := ⟨0x4000004, 5, 1, 0, .ro, .wr, .none, 4⟩
def SLICE_STATUS_DMA_FAULT : Fld := ⟨0x4000004, 4, 1, 0, .w1c, .wr, .none, 4⟩
def SLICE_STATUS_CQ_LOST : Fld := ⟨0x4000004, 3, 1, 0, .w1c, .wr, .none, 4⟩
def SLICE_STATUS_CFG_ERR : Fld := ⟨0x4000004, 2, 1, 0, .ro, .wr, .none, 4⟩
def SLICE_STATUS_RUNNING : Fld := ⟨0x4000004, 1, 1, 0, .ro, .wr, .none, 4⟩
def SLICE_STATUS_WIGN : Fld := ⟨0x4000004, 0, 1, 0, .w1c, .wr, .none, 4⟩
def SLICE_WIGN_ADDR : Fld := ⟨0x4000008, 0, 12, 0, .ro, .wr, .none, 4⟩
def SLICE_ID_PASID : Fld := ⟨0x400000C, 8, 20, 0, .ro, .wr, .tmr, 4⟩
def SLICE_ID_SLICE : Fld := ⟨0x400000C, 0, 8, 0, .ro, .wr, .none, 4⟩
def SLICE_TENANT : Fld := ⟨0x4000010, 0, 64, 0, .ro, .wr, .tmr, 4⟩
def SLICE_RATE_DMA_RATE : Fld := ⟨0x4000018, 16, 10, 0, .ro, .wr, .tmr, 4⟩
def SLICE_RATE_CMD_RATE : Fld := ⟨0x4000018, 0, 16, 0, .ro, .wr, .tmr, 4⟩
def SLICE_SQ_BASE : Fld := ⟨0x4000020, 0, 64, 0, .rwd, .wr, .none, 4⟩
def SLICE_SQ_SIZE : Fld := ⟨0x4000028, 0, 4, 0, .rwd, .wr, .none, 4⟩
def SLICE_CQ_BASE : Fld := ⟨0x4000030, 0, 64, 0, .rwd, .wr, .none, 4⟩
def SLICE_CQ_SIZE : Fld := ⟨0x4000038, 0, 4, 0, .rwd, .wr, .none, 4⟩
def SLICE_DR_BASE : Fld := ⟨0x4000040, 0, 64, 0, .rwd, .wr, .none, 4⟩
def SLICE_DR_SIZE : Fld := ⟨0x4000048, 0, 5, 0, .rwd, .wr, .none, 4⟩
def SLICE_EVR_BASE : Fld := ⟨0x4000050, 0, 64, 0, .rwd, .wr, .none, 4⟩
def SLICE_EVR_SIZE : Fld := ⟨0x4000058, 0, 4, 0, .rwd, .wr, .none, 4⟩
def SLICE_LTR_HOST_TOL : Fld := ⟨0x4000060, 16, 16, 65535, .rw, .wr, .none, 4⟩
def SLICE_LTR_WORK_TOL : Fld := ⟨0x4000060, 0, 16, 0, .rw, .wr, .none, 4⟩
def SLICE_MIG_CMD_BUSY : Fld := ⟨0x4000064, 31, 1, 0, .ro, .wr, .none, 4⟩
def SLICE_MIG_CMD_ERR : Fld := ⟨0x4000064, 24, 7, 0, .ro, .wr, .none, 4⟩
def SLICE_MIG_CMD_OP : Fld := ⟨0x4000064, 0, 3, 0, .wo, .wr, .none, 4⟩
def SLICE_MIG_ADDR : Fld := ⟨0x4000068, 0, 64, 0, .rw, .wr, .none, 4⟩
def SLICE_MIG_LEN : Fld := ⟨0x4000070, 0, 32, 0, .rw, .wr, .none, 4⟩
def SLICE_MIG_DONE : Fld := ⟨0x4000074, 0, 32, 0, .ro, .wr, .none, 4⟩
def SLICE_CFG_CRC : Fld := ⟨0x4000080, 0, 32, 0, .ro, .wr, .none, 4⟩
def SLICE_USE_HELD : Fld := ⟨0x4000084, 24, 8, 0, .ro, .wr, .none, 4⟩
def SLICE_USE_ITEMS : Fld := ⟨0x4000084, 16, 8, 0, .ro, .wr, .none, 4⟩
def SLICE_USE_KEYS : Fld := ⟨0x4000084, 8, 8, 0, .ro, .wr, .none, 4⟩
def SLICE_USE_FLOWS : Fld := ⟨0x4000084, 0, 8, 0, .ro, .wr, .none, 4⟩
def SLICE_CNT_CMD : Fld := ⟨0x4000100, 0, 64, 0, .rlh, .wr, .none, 8⟩
def SLICE_CNT_CMD_ERR : Fld := ⟨0x4000108, 0, 64, 0, .rlh, .wr, .none, 8⟩
def SLICE_CNT_CQ_DROP : Fld := ⟨0x4000110, 0, 64, 0, .rlh, .wr, .none, 8⟩
def SLICE_CNT_DR_DROP : Fld := ⟨0x4000118, 0, 64, 0, .rlh, .wr, .none, 8⟩
def SLICE_CNT_RATE_HOLD : Fld := ⟨0x4000120, 0, 64, 0, .rlh, .wr, .none, 8⟩
def SLICE_CNT_DMA_BYTES : Fld := ⟨0x4000128, 0, 64, 0, .rlh, .wr, .none, 8⟩
def SLICE_SQ_TAIL : Fld := ⟨0x4001000, 0, 32, 0, .rw, .wr, .none, 4⟩
def SLICE_CQ_HEAD : Fld := ⟨0x4001004, 0, 32, 0, .rw, .wr, .none, 4⟩
def SLICE_DR_HEAD : Fld := ⟨0x4001008, 0, 32, 0, .rw, .wr, .none, 4⟩
def SLICE_EVR_HEAD : Fld := ⟨0x400100C, 0, 32, 0, .rw, .wr, .none, 4⟩
def SLICE_SQ_HEAD : Fld := ⟨0x4001010, 0, 32, 0, .ro, .wr, .none, 4⟩
def SLICE_CQ_TAIL : Fld := ⟨0x4001014, 0, 32, 0, .ro, .wr, .none, 4⟩
def SLICE_DR_TAIL : Fld := ⟨0x4001018, 0, 32, 0, .ro, .wr, .none, 4⟩
def SLICE_EVR_TAIL : Fld := ⟨0x400101C, 0, 32, 0, .ro, .wr, .none, 4⟩

end F

/-- The registers of block IDENT (offsets within the block or the instance). -/
def regsIdent : List RegDef := [
  ⟨"DEVID", 0x0, 1, 4, 1, [F.DEVID]⟩,
  ⟨"IDENT_COMPAT", 0x4, 1, 4, 1, [F.IDENT_COMPAT]⟩,
  ⟨"IDENT_POH_H", 0x8, 1, 4, 1, [F.IDENT_POH_H]⟩,
  ⟨"IDENT_AGE_H", 0xC, 1, 4, 1, [F.IDENT_AGE_H]⟩,
  ⟨"IDENT_ERASE_IMG", 0x10, 1, 4, 1, [F.IDENT_ERASE_IMG]⟩,
  ⟨"IDENT_ERASE_KEY", 0x14, 1, 4, 1, [F.IDENT_ERASE_KEY]⟩,
  ⟨"IDENT_ERASE_LDG", 0x18, 1, 4, 1, [F.IDENT_ERASE_LDG]⟩,
  ⟨"IDENT_ERASE_BOOT", 0x1C, 1, 4, 1, [F.IDENT_ERASE_BOOT]⟩,
  ⟨"IDENT_STATUS", 0x20, 1, 4, 1, [F.IDENT_STATUS]⟩,
  ⟨"GLB_ACC_STATUS", 0x40, 1, 4, 1, [F.GLB_ACC_STATUS_DBG_WRITE, F.GLB_ACC_STATUS_DOM_OFF, F.GLB_ACC_STATUS_SIZE, F.GLB_ACC_STATUS_VOTE]⟩,
  ⟨"GLB_ACC_ADDR", 0x44, 1, 4, 1, [F.GLB_ACC_ADDR_MASTER, F.GLB_ACC_ADDR_WRITE, F.GLB_ACC_ADDR_BAR2, F.GLB_ACC_ADDR_CAUSE, F.GLB_ACC_ADDR_OFFSET]⟩,
  ⟨"GLB_VOTE_ADDR", 0x48, 1, 4, 1, [F.GLB_VOTE_ADDR_BAR2, F.GLB_VOTE_ADDR_OFFSET]⟩,
  ⟨"GLB_VOTE_CNT", 0x50, 1, 4, 2, [F.GLB_VOTE_CNT]⟩,
  ⟨"GLB_ACC_CNT", 0x58, 1, 4, 2, [F.GLB_ACC_CNT]⟩,
  ⟨"GLB_BOOT_STATUS", 0x100, 1, 4, 1, [F.GLB_BOOT_STATUS_SVN, F.GLB_BOOT_STATUS_REC_REPAIRED, F.GLB_BOOT_STATUS_NO_FLASH, F.GLB_BOOT_STATUS_BOOT_MODE, F.GLB_BOOT_STATUS_OPERATIONAL, F.GLB_BOOT_STATUS_FALLBACK, F.GLB_BOOT_STATUS_TRIAL, F.GLB_BOOT_STATUS_SLOT, F.GLB_BOOT_STATUS_PHASE]⟩,
  ⟨"GLB_BOOT_TIME", 0x104, 1, 4, 1, [F.GLB_BOOT_TIME]⟩,
  ⟨"GLB_BOOT_CAUSE", 0x108, 1, 4, 1, [F.GLB_BOOT_CAUSE_DETAIL, F.GLB_BOOT_CAUSE_CAUSE, F.GLB_BOOT_CAUSE_SLOT]⟩,
  ⟨"GLB_IMG_FLOOR", 0x10C, 1, 4, 1, [F.GLB_IMG_FLOOR_FW_FLOOR, F.GLB_IMG_FLOOR_FLOOR]⟩,
  ⟨"GLB_IMG_SLOTA", 0x110, 1, 4, 1, [F.GLB_IMG_SLOTA_PREFERRED, F.GLB_IMG_SLOTA_SVN, F.GLB_IMG_SLOTA_TRIES_LEFT, F.GLB_IMG_SLOTA_STATE]⟩,
  ⟨"GLB_IMG_SLOTB", 0x114, 1, 4, 1, [F.GLB_IMG_SLOTB_PREFERRED, F.GLB_IMG_SLOTB_SVN, F.GLB_IMG_SLOTB_TRIES_LEFT, F.GLB_IMG_SLOTB_STATE]⟩,
  ⟨"GLB_IMG_CMD", 0x120, 1, 4, 1, [F.GLB_IMG_CMD_BUSY, F.GLB_IMG_CMD_ERR, F.GLB_IMG_CMD_SLOT, F.GLB_IMG_CMD_HOST, F.GLB_IMG_CMD_OP]⟩,
  ⟨"GLB_IMG_SRC", 0x124, 1, 4, 2, [F.GLB_IMG_SRC]⟩,
  ⟨"GLB_IMG_OFS", 0x12C, 1, 4, 1, [F.GLB_IMG_OFS]⟩,
  ⟨"GLB_IMG_LEN", 0x130, 1, 4, 1, [F.GLB_IMG_LEN]⟩] ++ [
  ⟨"GLB_IMG_DIGESTn", 0x140, 12, 4, 1, [F.GLB_IMG_DIGESTn]⟩,
  ⟨"GLB_PAIR_SIGn", 0x180, 12, 4, 1, [F.GLB_PAIR_SIGn]⟩,
  ⟨"GLB_CONFIRM_LEFT", 0x1B0, 1, 4, 1, [F.GLB_CONFIRM_LEFT]⟩]

/-- The registers of block BEAT (offsets within the block or the instance). -/
def regsBeat : List RegDef := [
  ⟨"BEAT_CTRL", 0x0, 1, 4, 1, [F.BEAT_CTRL_RESEAT, F.BEAT_CTRL_PPS_OUT_EN, F.BEAT_CTRL_EN]⟩,
  ⟨"BEAT_STATUS", 0x4, 1, 4, 1, [F.BEAT_STATUS_CFG_ERR, F.BEAT_STATUS_RESEAT_BUSY, F.BEAT_STATUS_PPS_SEEN, F.BEAT_STATUS_TQ_REFUSED, F.BEAT_STATUS_ADJ_CLAMP, F.BEAT_STATUS_SYNC_TMO, F.BEAT_STATUS_TQ_CHG, F.BEAT_STATUS_RUNNING, F.BEAT_STATUS_WIGN]⟩,
  ⟨"BEAT_WIGN_ADDR", 0x8, 1, 4, 1, [F.BEAT_WIGN_ADDR]⟩,
  ⟨"BEAT_CFG", 0x10, 1, 4, 1, [F.BEAT_CFG_FREE_START, F.BEAT_CFG_RATE]⟩,
  ⟨"BEAT_SEAL_WIN", 0x14, 1, 4, 1, [F.BEAT_SEAL_WIN]⟩,
  ⟨"BEAT_HOLD_CFG", 0x18, 1, 4, 1, [F.BEAT_HOLD_CFG_START_WAIT, F.BEAT_HOLD_CFG_SYNC_TMO, F.BEAT_HOLD_CFG_HOLD_TIME]⟩,
  ⟨"BEAT_TQ", 0x1C, 1, 4, 1, [F.BEAT_TQ_RESEAT_TGT, F.BEAT_TQ_REQ, F.BEAT_TQ_TQ]⟩,
  ⟨"BEAT_NUM", 0x20, 1, 4, 2, [F.BEAT_NUM]⟩,
  ⟨"BEAT_LAST_ISSUED", 0x28, 1, 4, 2, [F.BEAT_LAST_ISSUED]⟩,
  ⟨"BEAT_TIME_NS", 0x30, 1, 4, 1, [F.BEAT_TIME_NS]⟩,
  ⟨"BEAT_TIME_SEC", 0x34, 1, 4, 2, [F.BEAT_TIME_SEC]⟩,
  ⟨"BEAT_FREQ_ADJ", 0x40, 1, 4, 1, [F.BEAT_FREQ_ADJ]⟩,
  ⟨"BEAT_RESEAT_OFS", 0x48, 1, 4, 2, [F.BEAT_RESEAT_OFS]⟩,
  ⟨"BEAT_RESULT", 0x50, 1, 4, 1, [F.BEAT_RESULT_OVR_ITEMS, F.BEAT_RESULT_STANDBY, F.BEAT_RESULT_EMITTED, F.BEAT_RESULT_WITHHELD, F.BEAT_RESULT_ACK_LATE, F.BEAT_RESULT_UNCOPIED, F.BEAT_RESULT_UNPAIRED, F.BEAT_RESULT_SEALED, F.BEAT_RESULT_CUT_LATE, F.BEAT_RESULT_TQ]⟩,
  ⟨"BEAT_RESULT_NUM", 0x54, 1, 4, 2, [F.BEAT_RESULT_NUM]⟩,
  ⟨"BEAT_CNT_WITHHELD", 0x60, 1, 4, 1, [F.BEAT_CNT_WITHHELD]⟩,
  ⟨"BEAT_CNT_UNCOPIED", 0x64, 1, 4, 1, [F.BEAT_CNT_UNCOPIED]⟩,
  ⟨"BEAT_CNT_ACKLATE", 0x68, 1, 4, 1, [F.BEAT_CNT_ACKLATE]⟩,
  ⟨"BEAT_CNT_CUTLATE", 0x6C, 1, 4, 1, [F.BEAT_CNT_CUTLATE]⟩,
  ⟨"BEAT_CNT_LOST", 0x70, 1, 4, 1, [F.BEAT_CNT_LOST]⟩,
  ⟨"BEAT_PPS", 0x80, 1, 4, 1, [F.BEAT_PPS]⟩]

/-- The registers of block PORT (offsets within the block or the instance). -/
def regsPort : List RegDef := [
  ⟨"PORT_CTRL", 0x0, 1, 4, 1, [F.PORT_CTRL_UNHOLD, F.PORT_CTRL_TX_DISABLE, F.PORT_CTRL_EN]⟩,
  ⟨"PORT_STATUS", 0x4, 1, 4, 1, [F.PORT_STATUS_RED_MEMBER, F.PORT_STATUS_LSTATE, F.PORT_STATUS_REMOTE_FAULT, F.PORT_STATUS_LOCAL_FAULT, F.PORT_STATUS_FEC_ALIGN, F.PORT_STATUS_PCS_LOCK, F.PORT_STATUS_LINK_CHG, F.PORT_STATUS_WIGN]⟩,
  ⟨"PORT_WIGN_ADDR", 0x8, 1, 4, 1, [F.PORT_WIGN_ADDR]⟩,
  ⟨"PORT_CFG", 0x10, 1, 4, 1, [F.PORT_CFG_VLAN_MODE, F.PORT_CFG_PTP_ROLE, F.PORT_CFG_TWO_STEP, F.PORT_CFG_FEC, F.PORT_CFG_LANES, F.PORT_CFG_BASE_LANE, F.PORT_CFG_AN_EN, F.PORT_CFG_SPEED]⟩,
  ⟨"PORT_MTU", 0x14, 1, 4, 1, [F.PORT_MTU]⟩,
  ⟨"PORT_PVID", 0x18, 1, 4, 1, [F.PORT_PVID_PCP, F.PORT_PVID_PVID]⟩,
  ⟨"PORT_LINK_CFG", 0x20, 1, 4, 1, [F.PORT_LINK_CFG_UP_HOLD, F.PORT_LINK_CFG_DOWN_DEB]⟩,
  ⟨"PORT_FLAP_CFG", 0x24, 1, 4, 1, [F.PORT_FLAP_CFG_FLAP_N, F.PORT_FLAP_CFG_FLAP_WIN, F.PORT_FLAP_CFG_FLAP_HOLD]⟩,
  ⟨"PORT_TS_ASYM", 0x28, 1, 4, 1, [F.PORT_TS_ASYM_EGR, F.PORT_TS_ASYM_ING]⟩,
  ⟨"PORT_MAC", 0x30, 1, 4, 2, [F.PORT_MAC]⟩,
  ⟨"PORT_CNT_RX_FRAMES", 0x100, 1, 8, 2, [F.PORT_CNT_RX_FRAMES]⟩,
  ⟨"PORT_CNT_RX_BYTES", 0x108, 1, 8, 2, [F.PORT_CNT_RX_BYTES]⟩,
  ⟨"PORT_CNT_RX_FCS", 0x110, 1, 8, 2, [F.PORT_CNT_RX_FCS]⟩,
  ⟨"PORT_CNT_RX_RUNT", 0x118, 1, 8, 2, [F.PORT_CNT_RX_RUNT]⟩,
  ⟨"PORT_CNT_RX_LONG", 0x120, 1, 8, 2, [F.PORT_CNT_RX_LONG]⟩,
  ⟨"PORT_CNT_RX_TAGERR", 0x128, 1, 8, 2, [F.PORT_CNT_RX_TAGERR]⟩,
  ⟨"PORT_CNT_RX_L3ERR", 0x130, 1, 8, 2, [F.PORT_CNT_RX_L3ERR]⟩,
  ⟨"PORT_CNT_RX_DA", 0x138, 1, 8, 2, [F.PORT_CNT_RX_DA]⟩,
  ⟨"PORT_CNT_RX_PENDING", 0x140, 1, 8, 2, [F.PORT_CNT_RX_PENDING]⟩,
  ⟨"PORT_CNT_TX_FRAMES", 0x148, 1, 8, 2, [F.PORT_CNT_TX_FRAMES]⟩,
  ⟨"PORT_CNT_TX_BYTES", 0x150, 1, 8, 2, [F.PORT_CNT_TX_BYTES]⟩,
  ⟨"PORT_CNT_TX_DOWN", 0x158, 1, 8, 2, [F.PORT_CNT_TX_DOWN]⟩,
  ⟨"PORT_CNT_LINK_DOWN", 0x160, 1, 8, 2, [F.PORT_CNT_LINK_DOWN]⟩,
  ⟨"PORT_CNT_FEC_UNCORR", 0x168, 1, 8, 2, [F.PORT_CNT_FEC_UNCORR]⟩] ++ [
  ⟨"PORT_CNT_RX_STRAY", 0x170, 1, 8, 2, [F.PORT_CNT_RX_STRAY]⟩]

/-- The registers of block PORT_GLB (offsets within the block or the instance). -/
def regsPortGlb : List RegDef := [
  ⟨"PORT_GLB_CTRL", 0x0, 1, 4, 1, [F.PORT_GLB_CTRL]⟩,
  ⟨"PORT_GLB_STATUS", 0x4, 1, 4, 1, [F.PORT_GLB_STATUS_WIGN]⟩,
  ⟨"PORT_GLB_WIGN_ADDR", 0x8, 1, 4, 1, [F.PORT_GLB_WIGN_ADDR]⟩,
  ⟨"PORT_GLB_ETYPE", 0x10, 1, 4, 1, [F.PORT_GLB_ETYPE_HRS_ETYPE, F.PORT_GLB_ETYPE_YARD_ETYPE]⟩,
  ⟨"PORT_GLB_UDP", 0x14, 1, 4, 1, [F.PORT_GLB_UDP_HRS_UDP, F.PORT_GLB_UDP_SV90_UDP]⟩,
  ⟨"PORT_GLB_NODES", 0x18, 1, 4, 1, [F.PORT_GLB_NODES]⟩]

/-- The registers of block RED (offsets within the block or the instance). -/
def regsRed : List RegDef := [
  ⟨"RED_CFG", 0x0, 1, 4, 1, [F.RED_CFG_MODE, F.RED_CFG_PORT_B, F.RED_CFG_PORT_A]⟩,
  ⟨"RED_TIMES", 0x4, 1, 4, 1, [F.RED_TIMES_LIFE_CHECK, F.RED_TIMES_NODE_FORGET, F.RED_TIMES_ENTRY_FORGET]⟩,
  ⟨"RED_LIMIT", 0x8, 1, 4, 1, [F.RED_LIMIT]⟩,
  ⟨"RED_STATUS", 0xC, 1, 4, 1, [F.RED_STATUS_FULL, F.RED_STATUS_NODES]⟩,
  ⟨"RED_CNT_DUP", 0x10, 1, 4, 1, [F.RED_CNT_DUP]⟩,
  ⟨"RED_CNT_UNAUTH_DUP", 0x14, 1, 4, 1, [F.RED_CNT_UNAUTH_DUP]⟩,
  ⟨"RED_CNT_UNTRACKED", 0x18, 1, 4, 1, [F.RED_CNT_UNTRACKED]⟩,
  ⟨"RED_CNT_WRONG_LAN", 0x1C, 1, 4, 1, [F.RED_CNT_WRONG_LAN]⟩,
  ⟨"RED_CNT_SUPERV", 0x20, 1, 4, 1, [F.RED_CNT_SUPERV]⟩]

/-- The registers of block LANE (offsets within the block or the instance). -/
def regsLane : List RegDef := [
  ⟨"LANE_CTRL", 0x0, 1, 4, 1, [F.LANE_CTRL]⟩,
  ⟨"LANE_STATUS", 0x4, 1, 4, 1, [F.LANE_STATUS_SIG_DET, F.LANE_STATUS_CDR_LOCK, F.LANE_STATUS_PLL_LOCK, F.LANE_STATUS_TRAIN_DONE, F.LANE_STATUS_ASSIGNED, F.LANE_STATUS_WIGN]⟩,
  ⟨"LANE_WIGN_ADDR", 0x8, 1, 4, 1, [F.LANE_WIGN_ADDR]⟩,
  ⟨"LANE_CFG", 0x10, 1, 4, 1, [F.LANE_CFG_TRAIN, F.LANE_CFG_TX_PRESET, F.LANE_CFG_RX_POL, F.LANE_CFG_TX_POL]⟩,
  ⟨"LANE_MARGIN", 0x20, 1, 4, 1, [F.LANE_MARGIN_EYE_H, F.LANE_MARGIN_EYE_V]⟩,
  ⟨"LANE_CNT_CDR_LOSS", 0x28, 1, 4, 1, [F.LANE_CNT_CDR_LOSS]⟩]

/-- The registers of block GATE (offsets within the block or the instance). -/
def regsGate : List RegDef := [
  ⟨"GATE_CTRL", 0x0, 1, 4, 1, [F.GATE_CTRL]⟩,
  ⟨"GATE_STATUS", 0x4, 1, 4, 1, [F.GATE_STATUS_FACC_ERR, F.GATE_STATUS_FACC_BUSY, F.GATE_STATUS_KEY_MISS, F.GATE_STATUS_TPL_FULL, F.GATE_STATUS_CAP_DROP, F.GATE_STATUS_RUNNING, F.GATE_STATUS_WIGN]⟩,
  ⟨"GATE_WIGN_ADDR", 0x8, 1, 4, 1, [F.GATE_WIGN_ADDR]⟩,
  ⟨"GATE_CFG", 0x10, 1, 4, 1, [F.GATE_CFG_STRAY_RATE, F.GATE_CFG_STRAY_SAMPLE]⟩,
  ⟨"GATE_TPL_POOL", 0x14, 1, 4, 1, [F.GATE_TPL_POOL]⟩,
  ⟨"GATE_JOB_CFG", 0x18, 1, 4, 1, [F.GATE_JOB_CFG_TMO, F.GATE_JOB_CFG_INFLIGHT]⟩,
  ⟨"GATE_SMALL_RATE", 0x1C, 1, 4, 1, [F.GATE_SMALL_RATE_PTP_RATE, F.GATE_SMALL_RATE_OTHER_RATE]⟩,
  ⟨"GATE_FACC_IDX", 0x20, 1, 4, 1, [F.GATE_FACC_IDX]⟩,
  ⟨"GATE_FACC_CMD", 0x24, 1, 4, 1, [F.GATE_FACC_CMD_BUSY, F.GATE_FACC_CMD_ERR, F.GATE_FACC_CMD_OP]⟩,
  ⟨"GATE_FACC_DATAn", 0x40, 16, 4, 1, [F.GATE_FACC_DATAn]⟩,
  ⟨"GATE_KACC_IDX", 0x80, 1, 4, 1, [F.GATE_KACC_IDX]⟩,
  ⟨"GATE_KACC_CMD", 0x84, 1, 4, 1, [F.GATE_KACC_CMD_BUSY, F.GATE_KACC_CMD_ERR, F.GATE_KACC_CMD_OP]⟩,
  ⟨"GATE_KACC_DATAn", 0x88, 6, 4, 1, [F.GATE_KACC_DATAn]⟩,
  ⟨"GATE_CNT_ACCEPT", 0x100, 1, 8, 2, [F.GATE_CNT_ACCEPT]⟩,
  ⟨"GATE_CNT_TAG", 0x108, 1, 8, 2, [F.GATE_CNT_TAG]⟩,
  ⟨"GATE_CNT_REPLAY", 0x110, 1, 8, 2, [F.GATE_CNT_REPLAY]⟩,
  ⟨"GATE_CNT_TS", 0x118, 1, 8, 2, [F.GATE_CNT_TS]⟩,
  ⟨"GATE_CNT_KEY", 0x120, 1, 8, 2, [F.GATE_CNT_KEY]⟩,
  ⟨"GATE_CNT_FORM", 0x128, 1, 8, 2, [F.GATE_CNT_FORM]⟩,
  ⟨"GATE_CNT_CAP", 0x130, 1, 8, 2, [F.GATE_CNT_CAP]⟩,
  ⟨"GATE_CNT_NOENTRY", 0x138, 1, 8, 2, [F.GATE_CNT_NOENTRY]⟩,
  ⟨"GATE_CNT_STRAY", 0x140, 1, 8, 2, [F.GATE_CNT_STRAY]⟩,
  ⟨"GATE_CNT_STRAY_DROP", 0x148, 1, 8, 2, [F.GATE_CNT_STRAY_DROP]⟩,
  ⟨"GATE_CNT_SMALL", 0x150, 1, 8, 2, [F.GATE_CNT_SMALL]⟩] ++ [
  ⟨"GATE_CNT_SMALL_DROP", 0x158, 1, 8, 2, [F.GATE_CNT_SMALL_DROP]⟩,
  ⟨"GATE_CNT_REANCHOR", 0x160, 1, 8, 2, [F.GATE_CNT_REANCHOR]⟩,
  ⟨"GATE_CNT_INST", 0x168, 1, 8, 2, [F.GATE_CNT_INST]⟩,
  ⟨"GATE_CNT_JOBS", 0x170, 1, 8, 2, [F.GATE_CNT_JOBS]⟩,
  ⟨"GATE_CNT_OFF", 0x178, 1, 8, 2, [F.GATE_CNT_OFF]⟩]

/-- The registers of block MYARD (offsets within the block or the instance). -/
def regsMyard : List RegDef := [
  ⟨"MYARD_CTRL", 0x0, 1, 4, 1, [F.MYARD_CTRL]⟩,
  ⟨"MYARD_STATUS", 0x4, 1, 4, 1, [F.MYARD_STATUS_GACC_ERR, F.MYARD_STATUS_WITHDRAWN, F.MYARD_STATUS_SHRUNK, F.MYARD_STATUS_ALLOC_ERR, F.MYARD_STATUS_RUNNING, F.MYARD_STATUS_WIGN]⟩,
  ⟨"MYARD_WIGN_ADDR", 0x8, 1, 4, 1, [F.MYARD_WIGN_ADDR]⟩,
  ⟨"MYARD_CAP", 0x10, 1, 4, 1, [F.MYARD_CAP_SPARES_FREE, F.MYARD_CAP_BANKS]⟩,
  ⟨"MYARD_ALLOC", 0x14, 1, 4, 1, [F.MYARD_ALLOC]⟩,
  ⟨"MYARD_GACC_IDX", 0x20, 1, 4, 1, [F.MYARD_GACC_IDX]⟩,
  ⟨"MYARD_GACC_CMD", 0x24, 1, 4, 1, [F.MYARD_GACC_CMD_BUSY, F.MYARD_GACC_CMD_ERR, F.MYARD_GACC_CMD_OP]⟩,
  ⟨"MYARD_GACC_DATAn", 0x40, 8, 4, 1, [F.MYARD_GACC_DATAn]⟩,
  ⟨"MYARD_CNT_PLACED", 0x100, 1, 8, 2, [F.MYARD_CNT_PLACED]⟩,
  ⟨"MYARD_CNT_LATE", 0x108, 1, 8, 2, [F.MYARD_CNT_LATE]⟩,
  ⟨"MYARD_CNT_FUTURE", 0x110, 1, 8, 2, [F.MYARD_CNT_FUTURE]⟩,
  ⟨"MYARD_CNT_FORMAT", 0x118, 1, 8, 2, [F.MYARD_CNT_FORMAT]⟩,
  ⟨"MYARD_CNT_RANGE", 0x120, 1, 8, 2, [F.MYARD_CNT_RANGE]⟩,
  ⟨"MYARD_CNT_NOWIN", 0x128, 1, 8, 2, [F.MYARD_CNT_NOWIN]⟩,
  ⟨"MYARD_CNT_NOMEMBER", 0x130, 1, 8, 2, [F.MYARD_CNT_NOMEMBER]⟩,
  ⟨"MYARD_CNT_DUP", 0x138, 1, 8, 2, [F.MYARD_CNT_DUP]⟩,
  ⟨"MYARD_CNT_CONFLICT", 0x140, 1, 8, 2, [F.MYARD_CNT_CONFLICT]⟩,
  ⟨"MYARD_CNT_UNSYNC_DROP", 0x148, 1, 8, 2, [F.MYARD_CNT_UNSYNC_DROP]⟩,
  ⟨"MYARD_CNT_MSG_OVF", 0x150, 1, 8, 2, [F.MYARD_CNT_MSG_OVF]⟩,
  ⟨"MYARD_CNT_NOSLAB", 0x158, 1, 8, 2, [F.MYARD_CNT_NOSLAB]⟩,
  ⟨"MYARD_CNT_SETTLE", 0x160, 1, 8, 2, [F.MYARD_CNT_SETTLE]⟩,
  ⟨"MYARD_CNT_OFF", 0x168, 1, 8, 2, [F.MYARD_CNT_OFF]⟩]

/-- The registers of block LOFT (offsets within the block or the instance). -/
def regsLoft : List RegDef := [
  ⟨"LOFT_CTRL", 0x0, 1, 4, 1, [F.LOFT_CTRL]⟩,
  ⟨"LOFT_STATUS", 0x4, 1, 4, 1, [F.LOFT_STATUS_B_FAILED, F.LOFT_STATUS_A_FAILED, F.LOFT_STATUS_EXP_BUSY, F.LOFT_STATUS_PIN_FULL, F.LOFT_STATUS_GAP, F.LOFT_STATUS_INIT_BUSY, F.LOFT_STATUS_CFG_ERR, F.LOFT_STATUS_RUNNING, F.LOFT_STATUS_WIGN]⟩,
  ⟨"LOFT_WIGN_ADDR", 0x8, 1, 4, 1, [F.LOFT_WIGN_ADDR]⟩,
  ⟨"LOFT_CFG", 0x10, 1, 4, 1, [F.LOFT_CFG_PIN_MAX, F.LOFT_CFG_SLICE_FRZ, F.LOFT_CFG_HALVES]⟩,
  ⟨"LOFT_RING", 0x14, 1, 4, 1, [F.LOFT_RING_PINNED, F.LOFT_RING_SEGMENTS]⟩,
  ⟨"LOFT_HEAD", 0x18, 1, 4, 2, [F.LOFT_HEAD]⟩,
  ⟨"LOFT_SPAN_US", 0x20, 1, 4, 1, [F.LOFT_SPAN_US]⟩,
  ⟨"LOFT_FRZ_CMD", 0x30, 1, 4, 1, [F.LOFT_FRZ_CMD_BUSY, F.LOFT_FRZ_CMD_ERR, F.LOFT_FRZ_CMD_SLOT, F.LOFT_FRZ_CMD_OP]⟩,
  ⟨"LOFT_FRZ_ARG01", 0x34, 2, 4, 1, [F.LOFT_FRZ_ARG01]⟩,
  ⟨"LOFT_FRZ_ARG2", 0x3C, 1, 4, 1, [F.LOFT_FRZ_ARG2]⟩,
  ⟨"LOFT_FRZ_DATAn", 0x40, 8, 4, 1, [F.LOFT_FRZ_DATAn]⟩,
  ⟨"LOFT_EXP_CMD", 0x60, 1, 4, 1, [F.LOFT_EXP_CMD_BUSY, F.LOFT_EXP_CMD_ERR, F.LOFT_EXP_CMD_SCOPE, F.LOFT_EXP_CMD_SLICE, F.LOFT_EXP_CMD_GO, F.LOFT_EXP_CMD_SLOT]⟩,
  ⟨"LOFT_EXP_ADDR", 0x64, 1, 4, 2, [F.LOFT_EXP_ADDR]⟩,
  ⟨"LOFT_EXP_LEN", 0x6C, 1, 4, 1, [F.LOFT_EXP_LEN]⟩,
  ⟨"LOFT_EXP_MAN", 0x70, 1, 4, 2, [F.LOFT_EXP_MAN]⟩,
  ⟨"LOFT_EXP_START", 0x78, 1, 4, 2, [F.LOFT_EXP_START]⟩,
  ⟨"LOFT_EXP_CFG", 0x80, 1, 4, 1, [F.LOFT_EXP_CFG]⟩,
  ⟨"LOFT_TEST_CFG", 0x84, 1, 4, 1, [F.LOFT_TEST_CFG]⟩,
  ⟨"LOFT_EXP_SEQ", 0x88, 1, 4, 2, [F.LOFT_EXP_SEQ]⟩,
  ⟨"LOFT_CNT_ENTRIES", 0x100, 1, 8, 2, [F.LOFT_CNT_ENTRIES]⟩,
  ⟨"LOFT_CNT_BYTES", 0x108, 1, 8, 2, [F.LOFT_CNT_BYTES]⟩,
  ⟨"LOFT_CNT_GAP_FRAMES", 0x110, 1, 8, 2, [F.LOFT_CNT_GAP_FRAMES]⟩,
  ⟨"LOFT_CNT_CE", 0x118, 1, 8, 2, [F.LOFT_CNT_CE]⟩,
  ⟨"LOFT_CNT_UE", 0x120, 1, 8, 2, [F.LOFT_CNT_UE]⟩] ++ [
  ⟨"LOFT_CNT_FRZ_REFUSED", 0x128, 1, 8, 2, [F.LOFT_CNT_FRZ_REFUSED]⟩,
  ⟨"LOFT_CNT_SEG_RETIRED", 0x130, 1, 8, 2, [F.LOFT_CNT_SEG_RETIRED]⟩,
  ⟨"LOFT_CNT_EXPORTS", 0x138, 1, 8, 2, [F.LOFT_CNT_EXPORTS]⟩,
  ⟨"LOFT_CNT_NOREC", 0x140, 1, 8, 2, [F.LOFT_CNT_NOREC]⟩]

/-- The registers of block GROOM (offsets within the block or the instance). -/
def regsGroom : List RegDef := [
  ⟨"GROOM_CTRL", 0x0, 1, 4, 1, [F.GROOM_CTRL]⟩,
  ⟨"GROOM_STATUS", 0x4, 1, 4, 1, [F.GROOM_STATUS_STATE_LOST, F.GROOM_STATUS_POOL_CHG, F.GROOM_STATUS_FCAST_MISS, F.GROOM_STATUS_BORROWED, F.GROOM_STATUS_TRIP_SHORT, F.GROOM_STATUS_CFG_ERR, F.GROOM_STATUS_ACC_ERR, F.GROOM_STATUS_RUNNING, F.GROOM_STATUS_WIGN]⟩,
  ⟨"GROOM_WIGN_ADDR", 0x8, 1, 4, 1, [F.GROOM_WIGN_ADDR]⟩,
  ⟨"GROOM_CFG", 0x10, 1, 4, 1, [F.GROOM_CFG_CARRY_MAX, F.GROOM_CFG_FIT]⟩,
  ⟨"GROOM_POOL", 0x14, 1, 4, 1, [F.GROOM_POOL_AVAIL, F.GROOM_POOL_SVC]⟩,
  ⟨"GROOM_FLOOR", 0x18, 1, 4, 1, [F.GROOM_FLOOR]⟩,
  ⟨"GROOM_RUNCYC", 0x1C, 1, 4, 1, [F.GROOM_RUNCYC]⟩,
  ⟨"GROOM_FCAST_CFG", 0x20, 1, 4, 1, [F.GROOM_FCAST_CFG_OFF_AFTER, F.GROOM_FCAST_CFG_MARGIN, F.GROOM_FCAST_CFG_MIN_Q]⟩,
  ⟨"GROOM_FCAST_OUT", 0x24, 1, 4, 1, [F.GROOM_FCAST_OUT_OFF_OK, F.GROOM_FCAST_OUT_NEED_B2, F.GROOM_FCAST_OUT_NEED_B1]⟩,
  ⟨"GROOM_IACC_IDX", 0x30, 1, 4, 1, [F.GROOM_IACC_IDX]⟩,
  ⟨"GROOM_IACC_CMD", 0x34, 1, 4, 1, [F.GROOM_IACC_CMD_BUSY, F.GROOM_IACC_CMD_ERR, F.GROOM_IACC_CMD_CODE, F.GROOM_IACC_CMD_OP]⟩,
  ⟨"GROOM_IACC_DATAn", 0x40, 16, 4, 1, [F.GROOM_IACC_DATAn]⟩,
  ⟨"GROOM_FACC_IDX", 0x80, 1, 4, 1, [F.GROOM_FACC_IDX]⟩,
  ⟨"GROOM_FACC_CMD", 0x84, 1, 4, 1, [F.GROOM_FACC_CMD_BUSY, F.GROOM_FACC_CMD_ERR, F.GROOM_FACC_CMD_DEST, F.GROOM_FACC_CMD_OP]⟩,
  ⟨"GROOM_FACC_DATAn", 0x88, 4, 4, 1, [F.GROOM_FACC_DATAn]⟩,
  ⟨"GROOM_SSTAT_IDX", 0xA0, 1, 4, 1, [F.GROOM_SSTAT_IDX]⟩,
  ⟨"GROOM_SSTAT_DATAn", 0xC0, 16, 4, 1, [F.GROOM_SSTAT_DATAn]⟩,
  ⟨"GROOM_BLOG_HEAD", 0x100, 1, 4, 1, [F.GROOM_BLOG_HEAD]⟩,
  ⟨"GROOM_BLOG_TAIL", 0x104, 1, 4, 1, [F.GROOM_BLOG_TAIL]⟩,
  ⟨"GROOM_BLOG_IDX", 0x108, 1, 4, 1, [F.GROOM_BLOG_IDX]⟩,
  ⟨"GROOM_BLOG_DATAn", 0x110, 4, 4, 1, [F.GROOM_BLOG_DATAn]⟩,
  ⟨"GROOM_CNT_DISPATCHED", 0x200, 1, 8, 2, [F.GROOM_CNT_DISPATCHED]⟩,
  ⟨"GROOM_CNT_DONE", 0x208, 1, 8, 2, [F.GROOM_CNT_DONE]⟩,
  ⟨"GROOM_CNT_FAILED", 0x210, 1, 8, 2, [F.GROOM_CNT_FAILED]⟩] ++ [
  ⟨"GROOM_CNT_FAULT", 0x218, 1, 8, 2, [F.GROOM_CNT_FAULT]⟩,
  ⟨"GROOM_CNT_OVERRUN", 0x220, 1, 8, 2, [F.GROOM_CNT_OVERRUN]⟩,
  ⟨"GROOM_CNT_LOST", 0x228, 1, 8, 2, [F.GROOM_CNT_LOST]⟩,
  ⟨"GROOM_CNT_NOT_RUN", 0x230, 1, 8, 2, [F.GROOM_CNT_NOT_RUN]⟩,
  ⟨"GROOM_CNT_STALE", 0x238, 1, 8, 2, [F.GROOM_CNT_STALE]⟩,
  ⟨"GROOM_CNT_REFUSED", 0x240, 1, 8, 2, [F.GROOM_CNT_REFUSED]⟩,
  ⟨"GROOM_CNT_TRIP_SHORT", 0x248, 1, 8, 2, [F.GROOM_CNT_TRIP_SHORT]⟩,
  ⟨"GROOM_CNT_BORROW", 0x250, 1, 8, 2, [F.GROOM_CNT_BORROW]⟩,
  ⟨"GROOM_CNT_MOVES", 0x258, 1, 8, 2, [F.GROOM_CNT_MOVES]⟩,
  ⟨"GROOM_CNT_MOVE_ABANDONED", 0x260, 1, 8, 2, [F.GROOM_CNT_MOVE_ABANDONED]⟩,
  ⟨"GROOM_CNT_FCAST_MISS", 0x268, 1, 8, 2, [F.GROOM_CNT_FCAST_MISS]⟩,
  ⟨"GROOM_CNT_BLOG_DROP", 0x270, 1, 8, 2, [F.GROOM_CNT_BLOG_DROP]⟩,
  ⟨"GROOM_SLICE_CFGn", 0x400, 256, 4, 1, [F.GROOM_SLICE_CFGn_FROZEN, F.GROOM_SLICE_CFGn_CAP, F.GROOM_SLICE_CFGn_WEIGHT]⟩]

/-- The registers of block SHED (offsets within the block or the instance). -/
def regsShed : List RegDef := [
  ⟨"SHED_CTRL", 0x0, 1, 4, 1, [F.SHED_CTRL_CNT_CLR, F.SHED_CTRL_EN]⟩,
  ⟨"SHED_STATUS", 0x4, 1, 4, 1, [F.SHED_STATUS_PWR_REFUSED, F.SHED_STATUS_UE_SEEN, F.SHED_STATUS_RETIRED, F.SHED_STATUS_ROM_ERR, F.SHED_STATUS_INIT_BUSY, F.SHED_STATUS_RUNNING, F.SHED_STATUS_WIGN]⟩,
  ⟨"SHED_WIGN_ADDR", 0x8, 1, 4, 1, [F.SHED_WIGN_ADDR]⟩,
  ⟨"SHED_CFG", 0x10, 1, 4, 1, [F.SHED_CFG]⟩,
  ⟨"SHED_STALL_OK", 0x14, 1, 4, 1, [F.SHED_STALL_OK]⟩,
  ⟨"SHED_BANK_PWR", 0x18, 1, 4, 1, [F.SHED_BANK_PWR]⟩,
  ⟨"SHED_BANK_LIVE", 0x1C, 1, 4, 1, [F.SHED_BANK_LIVE]⟩,
  ⟨"SHED_SEM_OWNn", 0x20, 8, 4, 1, [F.SHED_SEM_OWNn_OWN3, F.SHED_SEM_OWNn_OWN2, F.SHED_SEM_OWNn_OWN1, F.SHED_SEM_OWNn_OWN0]⟩,
  ⟨"SHED_SEM_EN", 0x40, 1, 4, 1, [F.SHED_SEM_EN]⟩,
  ⟨"SHED_SEM_HELD", 0x44, 1, 4, 1, [F.SHED_SEM_HELD]⟩,
  ⟨"SHED_SEM_ORPH", 0x48, 1, 4, 1, [F.SHED_SEM_ORPH]⟩,
  ⟨"SHED_SEM_FORCE", 0x4C, 1, 4, 1, [F.SHED_SEM_FORCE]⟩,
  ⟨"SHED_STALL_PWR", 0x50, 1, 4, 1, [F.SHED_STALL_PWR]⟩,
  ⟨"SHED_STALL_STATn", 0x80, 16, 4, 1, [F.SHED_STALL_STATn_CODE, F.SHED_STALL_STATn_LAST_END, F.SHED_STALL_STATn_SLICE, F.SHED_STALL_STATn_STATE]⟩,
  ⟨"SHED_STALL_PCn", 0xC0, 16, 4, 1, [F.SHED_STALL_PCn]⟩,
  ⟨"SHED_CNT_MCONFn", 0x100, 19, 4, 1, [F.SHED_CNT_MCONFn]⟩,
  ⟨"SHED_CNT_SCONFn", 0x180, 16, 4, 1, [F.SHED_CNT_SCONFn]⟩,
  ⟨"SHED_CNT_CE", 0x1C0, 1, 4, 1, [F.SHED_CNT_CE]⟩,
  ⟨"SHED_CNT_UE", 0x1C4, 1, 4, 1, [F.SHED_CNT_UE]⟩,
  ⟨"SHED_CNT_STOPLATE", 0x1C8, 1, 4, 1, [F.SHED_CNT_STOPLATE]⟩,
  ⟨"SHED_CNT_SEM_ORPH", 0x1CC, 1, 4, 1, [F.SHED_CNT_SEM_ORPH]⟩,
  ⟨"SHED_CNT_SEM_LEFT", 0x1D0, 1, 4, 1, [F.SHED_CNT_SEM_LEFT]⟩,
  ⟨"SHED_CNT_SEM_BADREL", 0x1D4, 1, 4, 1, [F.SHED_CNT_SEM_BADREL]⟩,
  ⟨"SHED_CNT_SEM_DENIED", 0x1D8, 1, 4, 1, [F.SHED_CNT_SEM_DENIED]⟩] ++ [
  ⟨"SHED_CNT_WAKE_WAIT", 0x1DC, 1, 4, 1, [F.SHED_CNT_WAKE_WAIT]⟩,
  ⟨"SHED_CNT_FAULT", 0x1E0, 1, 4, 1, [F.SHED_CNT_FAULT]⟩,
  ⟨"SHED_CNT_BADSVC", 0x1E4, 1, 4, 1, [F.SHED_CNT_BADSVC]⟩]

/-- The registers of block SEAL (offsets within the block or the instance). -/
def regsSeal : List RegDef := [
  ⟨"SEAL_CTRL", 0x0, 1, 4, 1, [F.SEAL_CTRL]⟩,
  ⟨"SEAL_STATUS", 0x4, 1, 4, 1, [F.SEAL_STATUS_KEYFAIL, F.SEAL_STATUS_LATEBUILD, F.SEAL_STATUS_OVER_BUDGET, F.SEAL_STATUS_PACC_ERR, F.SEAL_STATUS_CFG_ERR, F.SEAL_STATUS_RUNNING, F.SEAL_STATUS_WIGN]⟩,
  ⟨"SEAL_WIGN_ADDR", 0x8, 1, 4, 1, [F.SEAL_WIGN_ADDR]⟩,
  ⟨"SEAL_OUT_CFG", 0x10, 1, 4, 1, [F.SEAL_OUT_CFG]⟩,
  ⟨"SEAL_BUDGET", 0x14, 1, 4, 1, [F.SEAL_BUDGET]⟩,
  ⟨"SEAL_DELTA", 0x18, 1, 4, 1, [F.SEAL_DELTA]⟩,
  ⟨"SEAL_DELTA_MAX", 0x1C, 1, 4, 1, [F.SEAL_DELTA_MAX]⟩,
  ⟨"SEAL_IV_FIXED", 0x20, 1, 4, 1, [F.SEAL_IV_FIXED]⟩,
  ⟨"SEAL_PACC_IDX", 0x30, 1, 4, 1, [F.SEAL_PACC_IDX]⟩,
  ⟨"SEAL_PACC_CMD", 0x34, 1, 4, 1, [F.SEAL_PACC_CMD_BUSY, F.SEAL_PACC_CMD_ERR, F.SEAL_PACC_CMD_OP]⟩,
  ⟨"SEAL_PACC_DATAn", 0x40, 16, 4, 1, [F.SEAL_PACC_DATAn]⟩,
  ⟨"SEAL_TACC_ADDR", 0x80, 1, 4, 1, [F.SEAL_TACC_ADDR]⟩,
  ⟨"SEAL_TACC_DATA", 0x84, 1, 4, 1, [F.SEAL_TACC_DATA]⟩,
  ⟨"SEAL_CURVEc_A", 0xA0, 8, 8, 1, [F.SEAL_CURVEc_A_MULT, F.SEAL_CURVEc_A_FIRST]⟩,
  ⟨"SEAL_CURVEc_B", 0xA4, 8, 8, 1, [F.SEAL_CURVEc_B]⟩,
  ⟨"SEAL_CNT_RECORDS", 0x100, 1, 8, 2, [F.SEAL_CNT_RECORDS]⟩,
  ⟨"SEAL_CNT_REFUSED", 0x108, 1, 8, 2, [F.SEAL_CNT_REFUSED]⟩,
  ⟨"SEAL_CNT_FULL", 0x110, 1, 8, 2, [F.SEAL_CNT_FULL]⟩,
  ⟨"SEAL_CNT_SENT", 0x118, 1, 8, 2, [F.SEAL_CNT_SENT]⟩,
  ⟨"SEAL_CNT_REPEAT", 0x120, 1, 8, 2, [F.SEAL_CNT_REPEAT]⟩,
  ⟨"SEAL_CNT_KEYFAIL", 0x128, 1, 8, 2, [F.SEAL_CNT_KEYFAIL]⟩,
  ⟨"SEAL_CNT_LATEBUILD", 0x130, 1, 8, 2, [F.SEAL_CNT_LATEBUILD]⟩,
  ⟨"SEAL_CNT_QDROP", 0x138, 1, 8, 2, [F.SEAL_CNT_QDROP]⟩]

/-- The registers of block PAIR (offsets within the block or the instance). -/
def regsPair : List RegDef := [
  ⟨"PAIR_CTRL", 0x0, 1, 4, 1, [F.PAIR_CTRL_FAILING, F.PAIR_CTRL_HANDOVER_COLD, F.PAIR_CTRL_HANDOVER, F.PAIR_CTRL_RESYNC, F.PAIR_CTRL_EN]⟩,
  ⟨"PAIR_STATUS", 0x4, 1, 4, 1, [F.PAIR_STATUS_GRID, F.PAIR_STATUS_HO_REFUSED, F.PAIR_STATUS_ROLE_CHG, F.PAIR_STATUS_GATE_OPEN, F.PAIR_STATUS_IL_QUIET, F.PAIR_STATUS_FOREIGN, F.PAIR_STATUS_SKEW_BAD, F.PAIR_STATUS_IL_RB_FAULT, F.PAIR_STATUS_LINK_UP, F.PAIR_STATUS_SYNC, F.PAIR_STATUS_STATE, F.PAIR_STATUS_CFG_ERR, F.PAIR_STATUS_RUNNING, F.PAIR_STATUS_WIGN]⟩,
  ⟨"PAIR_WIGN_ADDR", 0x8, 1, 4, 1, [F.PAIR_WIGN_ADDR]⟩,
  ⟨"PAIR_CFG", 0x10, 1, 4, 1, [F.PAIR_CFG_TIME_FOLLOW, F.PAIR_CFG_COLD_TAKE, F.PAIR_CFG_AUTO_RS, F.PAIR_CFG_PREFER, F.PAIR_CFG_MODE]⟩,
  ⟨"PAIR_HB_CFG", 0x14, 1, 4, 1, [F.PAIR_HB_CFG_LISTEN_TMO, F.PAIR_HB_CFG_MISS, F.PAIR_HB_CFG_PERIOD]⟩,
  ⟨"PAIR_RS_CFG", 0x18, 1, 4, 1, [F.PAIR_RS_CFG]⟩,
  ⟨"PAIR_PROBE_CFG", 0x1C, 1, 4, 1, [F.PAIR_PROBE_CFG]⟩,
  ⟨"PAIR_HEALTH", 0x20, 1, 4, 1, [F.PAIR_HEALTH]⟩,
  ⟨"PAIR_PHEALTH", 0x24, 1, 4, 1, [F.PAIR_PHEALTH]⟩,
  ⟨"PAIR_SKEW", 0x28, 1, 4, 1, [F.PAIR_SKEW]⟩,
  ⟨"PAIR_RTT", 0x2C, 1, 4, 1, [F.PAIR_RTT]⟩,
  ⟨"PAIR_RTT_MAX", 0x30, 1, 4, 1, [F.PAIR_RTT_MAX]⟩,
  ⟨"PAIR_PEER", 0x34, 1, 4, 1, [F.PAIR_PEER_STRAP, F.PAIR_PEER_DEVICE_ID]⟩,
  ⟨"PAIR_COMMIT", 0x38, 1, 4, 2, [F.PAIR_COMMIT]⟩,
  ⟨"PAIR_RS_LEFT", 0x40, 1, 4, 1, [F.PAIR_RS_LEFT]⟩,
  ⟨"PAIR_PFROZENn", 0x60, 8, 4, 1, [F.PAIR_PFROZENn]⟩,
  ⟨"PAIR_CNT_PROMOTE", 0x100, 1, 8, 2, [F.PAIR_CNT_PROMOTE]⟩,
  ⟨"PAIR_CNT_RERUN", 0x108, 1, 8, 2, [F.PAIR_CNT_RERUN]⟩,
  ⟨"PAIR_CNT_HANDOVER", 0x110, 1, 8, 2, [F.PAIR_CNT_HANDOVER]⟩,
  ⟨"PAIR_CNT_RESYNC", 0x118, 1, 8, 2, [F.PAIR_CNT_RESYNC]⟩,
  ⟨"PAIR_CNT_DIGEST", 0x120, 1, 8, 2, [F.PAIR_CNT_DIGEST]⟩,
  ⟨"PAIR_CNT_CRC", 0x128, 1, 8, 2, [F.PAIR_CNT_CRC]⟩,
  ⟨"PAIR_CNT_SEQ_GAP", 0x130, 1, 8, 2, [F.PAIR_CNT_SEQ_GAP]⟩,
  ⟨"PAIR_CNT_NACK", 0x138, 1, 8, 2, [F.PAIR_CNT_NACK]⟩] ++ [
  ⟨"PAIR_CNT_IL_FAULT", 0x140, 1, 8, 2, [F.PAIR_CNT_IL_FAULT]⟩,
  ⟨"PAIR_CNT_PROBES", 0x148, 1, 8, 2, [F.PAIR_CNT_PROBES]⟩,
  ⟨"PAIR_CNT_PROBE_FAIL", 0x150, 1, 8, 2, [F.PAIR_CNT_PROBE_FAIL]⟩,
  ⟨"PAIR_CNT_STBY_NOMEMBER", 0x158, 1, 8, 2, [F.PAIR_CNT_STBY_NOMEMBER]⟩,
  ⟨"PAIR_CNT_LOST", 0x160, 1, 8, 2, [F.PAIR_CNT_LOST]⟩,
  ⟨"PAIR_CNT_SPLIT", 0x168, 1, 8, 2, [F.PAIR_CNT_SPLIT]⟩,
  ⟨"PAIR_CNT_SKEW", 0x170, 1, 8, 2, [F.PAIR_CNT_SKEW]⟩]

/-- The registers of block TUDEL (offsets within the block or the instance). -/
def regsTudel : List RegDef := [
  ⟨"TUDEL_CTRL", 0x0, 1, 4, 1, [F.TUDEL_CTRL]⟩,
  ⟨"TUDEL_STATUS", 0x4, 1, 4, 1, [F.TUDEL_STATUS_MISWIRED, F.TUDEL_STATUS_EPOCH_EVICT, F.TUDEL_STATUS_FACC_ERR, F.TUDEL_STATUS_CFG_ERR, F.TUDEL_STATUS_RUNNING, F.TUDEL_STATUS_WIGN]⟩,
  ⟨"TUDEL_WIGN_ADDR", 0x8, 1, 4, 1, [F.TUDEL_WIGN_ADDR]⟩,
  ⟨"TUDEL_CFG", 0x10, 1, 4, 1, [F.TUDEL_CFG_LINK_EN, F.TUDEL_CFG_BOARD_POS, F.TUDEL_CFG_DEVICE_ID]⟩,
  ⟨"TUDEL_ORIGIN", 0x14, 1, 4, 1, [F.TUDEL_ORIGIN]⟩,
  ⟨"TUDEL_TRAIN", 0x18, 1, 4, 1, [F.TUDEL_TRAIN]⟩,
  ⟨"TUDEL_LINKj_STATUS", 0x20, 8, 4, 1, [F.TUDEL_LINKj_STATUS_PEER_ID, F.TUDEL_LINKj_STATUS_PEER_POS, F.TUDEL_LINKj_STATUS_MISWIRE, F.TUDEL_LINKj_STATUS_LSTATE]⟩,
  ⟨"TUDEL_LINKj_CFG", 0x40, 8, 4, 1, [F.TUDEL_LINKj_CFG_DELAY, F.TUDEL_LINKj_CFG_TX_PRESET, F.TUDEL_LINKj_CFG_RX_POL, F.TUDEL_LINKj_CFG_TX_POL]⟩,
  ⟨"TUDEL_SKEWj", 0x60, 8, 4, 1, [F.TUDEL_SKEWj]⟩,
  ⟨"TUDEL_FACC_IDX", 0x80, 1, 4, 1, [F.TUDEL_FACC_IDX]⟩,
  ⟨"TUDEL_FACC_CMD", 0x84, 1, 4, 1, [F.TUDEL_FACC_CMD_BUSY, F.TUDEL_FACC_CMD_ERR, F.TUDEL_FACC_CMD_OP]⟩,
  ⟨"TUDEL_FACC_DATAn", 0x88, 4, 4, 1, [F.TUDEL_FACC_DATAn]⟩,
  ⟨"TUDEL_FRZ_CMD", 0xA0, 1, 4, 1, [F.TUDEL_FRZ_CMD_GO, F.TUDEL_FRZ_CMD_PUB]⟩,
  ⟨"TUDEL_FRZ_ARG01", 0xA4, 2, 4, 1, [F.TUDEL_FRZ_ARG01]⟩,
  ⟨"TUDEL_FRZ_ARG2", 0xAC, 1, 4, 1, [F.TUDEL_FRZ_ARG2_DEST, F.TUDEL_FRZ_ARG2_REASON]⟩,
  ⟨"TUDEL_CNT_FWD_FRAMES", 0x100, 1, 8, 2, [F.TUDEL_CNT_FWD_FRAMES]⟩,
  ⟨"TUDEL_CNT_FWD_LATE", 0x108, 1, 8, 2, [F.TUDEL_CNT_FWD_LATE]⟩,
  ⟨"TUDEL_CNT_RX_FRAMES", 0x110, 1, 8, 2, [F.TUDEL_CNT_RX_FRAMES]⟩,
  ⟨"TUDEL_CNT_RX_DROP", 0x118, 1, 8, 2, [F.TUDEL_CNT_RX_DROP]⟩,
  ⟨"TUDEL_CNT_TX_DOWN", 0x120, 1, 8, 2, [F.TUDEL_CNT_TX_DOWN]⟩,
  ⟨"TUDEL_CNT_NOT_MINE", 0x128, 1, 8, 2, [F.TUDEL_CNT_NOT_MINE]⟩,
  ⟨"TUDEL_CNT_EPOCH_EVICT", 0x130, 1, 8, 2, [F.TUDEL_CNT_EPOCH_EVICT]⟩]

/-- The registers of block VAULT (offsets within the block or the instance). -/
def regsVault : List RegDef := [
  ⟨"VAULT_CTRL", 0x0, 1, 4, 1, [F.VAULT_CTRL]⟩,
  ⟨"VAULT_STATUS", 0x4, 1, 4, 1, [F.VAULT_STATUS_HOLD, F.VAULT_STATUS_NO_ENTROPY, F.VAULT_STATUS_SLOT_BAD, F.VAULT_STATUS_KAT_FAIL, F.VAULT_STATUS_ROOT_FAIL, F.VAULT_STATUS_CMD_ERR, F.VAULT_STATUS_INIT_BUSY, F.VAULT_STATUS_CFG_ERR, F.VAULT_STATUS_RUNNING, F.VAULT_STATUS_WIGN]⟩,
  ⟨"VAULT_WIGN_ADDR", 0x8, 1, 4, 1, [F.VAULT_WIGN_ADDR]⟩,
  ⟨"VAULT_CFG", 0x10, 1, 4, 1, [F.VAULT_CFG]⟩,
  ⟨"VAULT_UIDn", 0x14, 4, 4, 1, [F.VAULT_UIDn]⟩,
  ⟨"VAULT_SLOT_SUM", 0x24, 1, 4, 1, [F.VAULT_SLOT_SUM_BAD, F.VAULT_SLOT_SUM_VALID]⟩,
  ⟨"VAULT_CMD", 0x30, 1, 4, 1, [F.VAULT_CMD_BUSY, F.VAULT_CMD_OP]⟩,
  ⟨"VAULT_CMD_RES", 0x34, 1, 4, 1, [F.VAULT_CMD_RES]⟩,
  ⟨"VAULT_CMD_DATAn", 0x40, 16, 4, 1, [F.VAULT_CMD_DATAn]⟩,
  ⟨"VAULT_CMD_OUTn", 0x80, 16, 4, 1, [F.VAULT_CMD_OUTn]⟩,
  ⟨"VAULT_RNG_CFG", 0x100, 1, 4, 1, [F.VAULT_RNG_CFG_APT_CUT, F.VAULT_RNG_CFG_RCT_CUT, F.VAULT_RNG_CFG_RETEST]⟩,
  ⟨"VAULT_RNG_STATUS", 0x104, 1, 4, 1, [F.VAULT_RNG_STATUS_POLICY, F.VAULT_RNG_STATUS_STARTUP, F.VAULT_RNG_STATUS_FAILED, F.VAULT_RNG_STATUS_IN_USE]⟩,
  ⟨"VAULT_RNG_RAWSEL", 0x108, 1, 4, 1, [F.VAULT_RNG_RAWSEL]⟩,
  ⟨"VAULT_RNG_RAW", 0x10C, 1, 4, 1, [F.VAULT_RNG_RAW]⟩,
  ⟨"VAULT_DRBG_IDX", 0x110, 1, 4, 1, [F.VAULT_DRBG_IDX]⟩,
  ⟨"VAULT_DRBG_STAT", 0x114, 1, 4, 1, [F.VAULT_DRBG_STAT_READY, F.VAULT_DRBG_STAT_COUNT]⟩,
  ⟨"VAULT_HOLD", 0x118, 1, 4, 1, [F.VAULT_HOLD]⟩,
  ⟨"VAULT_HOLD_MAX", 0x11C, 1, 4, 1, [F.VAULT_HOLD_MAX]⟩,
  ⟨"VAULT_GEN_USED", 0x120, 1, 4, 1, [F.VAULT_GEN_USED]⟩,
  ⟨"VAULT_CNT_CMDS", 0x200, 1, 8, 2, [F.VAULT_CNT_CMDS]⟩,
  ⟨"VAULT_CNT_REFUSED", 0x208, 1, 8, 2, [F.VAULT_CNT_REFUSED]⟩,
  ⟨"VAULT_CNT_UNWRAP", 0x210, 1, 8, 2, [F.VAULT_CNT_UNWRAP]⟩,
  ⟨"VAULT_CNT_RESEED", 0x218, 1, 8, 2, [F.VAULT_CNT_RESEED]⟩,
  ⟨"VAULT_CNT_HOLDS", 0x220, 1, 8, 2, [F.VAULT_CNT_HOLDS]⟩] ++ [
  ⟨"VAULT_CNT_HOLD_TMO", 0x228, 1, 8, 2, [F.VAULT_CNT_HOLD_TMO]⟩,
  ⟨"VAULT_CNT_ROOT_VOTE", 0x230, 1, 8, 2, [F.VAULT_CNT_ROOT_VOTE]⟩,
  ⟨"VAULT_CNT_SLOT_REPAIR", 0x238, 1, 8, 2, [F.VAULT_CNT_SLOT_REPAIR]⟩,
  ⟨"VAULT_CNT_RCTn", 0x240, 4, 8, 2, [F.VAULT_CNT_RCTn]⟩,
  ⟨"VAULT_CNT_APTn", 0x260, 4, 8, 2, [F.VAULT_CNT_APTn]⟩,
  ⟨"VAULT_PK_CFG", 0x400, 1, 4, 1, [F.VAULT_PK_CFG_TMO, F.VAULT_PK_CFG_INFLIGHT]⟩,
  ⟨"VAULT_PK_STATUS", 0x404, 1, 4, 1, [F.VAULT_PK_STATUS_BUSY, F.VAULT_PK_STATUS_ENG_OK]⟩,
  ⟨"VAULT_PK_CMD", 0x408, 1, 4, 1, [F.VAULT_PK_CMD_BUSY, F.VAULT_PK_CMD_STATUS, F.VAULT_PK_CMD_GO]⟩,
  ⟨"VAULT_PK_DESCn", 0x440, 24, 4, 1, [F.VAULT_PK_DESCn]⟩,
  ⟨"VAULT_PK_OUTn", 0x4A0, 12, 4, 1, [F.VAULT_PK_OUTn]⟩,
  ⟨"VAULT_DC_CFG", 0x500, 1, 4, 1, [F.VAULT_DC_CFG]⟩,
  ⟨"VAULT_DC_CMD", 0x504, 1, 4, 1, [F.VAULT_DC_CMD_BUSY, F.VAULT_DC_CMD_CODE, F.VAULT_DC_CMD_HOST, F.VAULT_DC_CMD_OP]⟩,
  ⟨"VAULT_DC_ADDR", 0x508, 1, 4, 2, [F.VAULT_DC_ADDR]⟩,
  ⟨"VAULT_DC_LEN", 0x510, 1, 4, 1, [F.VAULT_DC_LEN]⟩,
  ⟨"VAULT_DC_OPEN", 0x514, 1, 4, 1, [F.VAULT_DC_OPEN]⟩,
  ⟨"VAULT_DC_TRIP_CRC", 0x518, 1, 4, 1, [F.VAULT_DC_TRIP_CRC]⟩,
  ⟨"VAULT_DC_PENDING", 0x51C, 1, 4, 1, [F.VAULT_DC_PENDING]⟩,
  ⟨"VAULT_DC_CHALn", 0x520, 8, 4, 1, [F.VAULT_DC_CHALn]⟩,
  ⟨"VAULT_DC_REF", 0x540, 1, 4, 2, [F.VAULT_DC_REF]⟩,
  ⟨"VAULT_DC_DETAIL", 0x548, 1, 4, 1, [F.VAULT_DC_DETAIL]⟩,
  ⟨"VAULT_CUST_IDX", 0x600, 1, 4, 1, [F.VAULT_CUST_IDX]⟩,
  ⟨"VAULT_CUST_SUM", 0x604, 1, 4, 1, [F.VAULT_CUST_SUM_B, F.VAULT_CUST_SUM_A]⟩,
  ⟨"VAULT_CUST_DATAn", 0x640, 32, 4, 1, [F.VAULT_CUST_DATAn]⟩,
  ⟨"VAULT_CNT_PK_JOBS", 0x800, 1, 8, 2, [F.VAULT_CNT_PK_JOBS]⟩] ++ [

  ⟨"VAULT_CNT_PK_VFAIL", 0x808, 1, 8, 2, [F.VAULT_CNT_PK_VFAIL]⟩,
  ⟨"VAULT_CNT_PK_SIGFAULT", 0x810, 1, 8, 2, [F.VAULT_CNT_PK_SIGFAULT]⟩,
  ⟨"VAULT_CNT_PK_TMO", 0x818, 1, 8, 2, [F.VAULT_CNT_PK_TMO]⟩,
  ⟨"VAULT_CNT_DC_OK", 0x820, 1, 8, 2, [F.VAULT_CNT_DC_OK]⟩,
  ⟨"VAULT_CNT_DC_REFUSED", 0x828, 1, 8, 2, [F.VAULT_CNT_DC_REFUSED]⟩]

/-- The registers of block GUARD (offsets within the block or the instance). -/
def regsGuard : List RegDef := [
  ⟨"GUARD_CTRL", 0x0, 1, 4, 1, [F.GUARD_CTRL]⟩,
  ⟨"GUARD_STATUS", 0x4, 1, 4, 1, [F.GUARD_STATUS_REP_FULL, F.GUARD_STATUS_TAG_UE, F.GUARD_STATUS_ACC_ERR, F.GUARD_STATUS_CFG_ERR, F.GUARD_STATUS_RUNNING, F.GUARD_STATUS_WIGN]⟩,
  ⟨"GUARD_WIGN_ADDR", 0x8, 1, 4, 1, [F.GUARD_WIGN_ADDR]⟩,
  ⟨"GUARD_RACC_IDX", 0x20, 1, 4, 1, [F.GUARD_RACC_IDX_SLICE, F.GUARD_RACC_IDX_REGION]⟩,
  ⟨"GUARD_RACC_CMD", 0x24, 1, 4, 1, [F.GUARD_RACC_CMD_BUSY, F.GUARD_RACC_CMD_ERR, F.GUARD_RACC_CMD_OP]⟩,
  ⟨"GUARD_RACC_DATAn", 0x30, 4, 4, 1, [F.GUARD_RACC_DATAn]⟩,
  ⟨"GUARD_TAG_SEL", 0x40, 1, 4, 1, [F.GUARD_TAG_SEL_MEM, F.GUARD_TAG_SEL_INDEX]⟩,
  ⟨"GUARD_TAG_OFS", 0x44, 1, 4, 1, [F.GUARD_TAG_OFS]⟩,
  ⟨"GUARD_TAG_LEN", 0x48, 1, 4, 1, [F.GUARD_TAG_LEN]⟩,
  ⟨"GUARD_TAG_CMD", 0x4C, 1, 4, 1, [F.GUARD_TAG_CMD_BUSY, F.GUARD_TAG_CMD_ERR, F.GUARD_TAG_CMD_COLOUR, F.GUARD_TAG_CMD_OP]⟩,
  ⟨"GUARD_REP_CNT", 0x60, 1, 4, 1, [F.GUARD_REP_CNT]⟩,
  ⟨"GUARD_REP_POP", 0x64, 1, 4, 1, [F.GUARD_REP_POP]⟩,
  ⟨"GUARD_REP_DATAn", 0x70, 8, 4, 1, [F.GUARD_REP_DATAn]⟩,
  ⟨"GUARD_CNT_REFUSE", 0x100, 1, 8, 2, [F.GUARD_CNT_REFUSE]⟩,
  ⟨"GUARD_CNT_PRIV", 0x108, 1, 8, 2, [F.GUARD_CNT_PRIV]⟩,
  ⟨"GUARD_CNT_REP_DROP", 0x110, 1, 8, 2, [F.GUARD_CNT_REP_DROP]⟩,
  ⟨"GUARD_CNT_TAG_CE", 0x118, 1, 8, 2, [F.GUARD_CNT_TAG_CE]⟩,
  ⟨"GUARD_CNT_TAG_UE", 0x120, 1, 8, 2, [F.GUARD_CNT_TAG_UE]⟩,
  ⟨"GUARD_CNT_POLICY", 0x128, 1, 8, 2, [F.GUARD_CNT_POLICY]⟩,
  ⟨"GUARD_SCOLn", 0x400, 256, 4, 1, [F.GUARD_SCOLn_STATE_COL, F.GUARD_SCOLn_HIST_COL, F.GUARD_SCOLn_SCR_COL]⟩,
  ⟨"GUARD_POLn", 0x800, 256, 4, 1, [F.GUARD_POLn_COUNT, F.GUARD_POLn_COUNT_MAX, F.GUARD_POLn_CLR, F.GUARD_POLn_ARMED, F.GUARD_POLn_ACTION]⟩]

/-- The registers of block EVT (offsets within the block or the instance). -/
def regsEvt : List RegDef := [
  ⟨"EVT_CTRL", 0x0, 1, 4, 1, [F.EVT_CTRL_LDG_EN, F.EVT_CTRL_EN]⟩,
  ⟨"EVT_STATUS", 0x4, 1, 4, 1, [F.EVT_STATUS_CLEARING, F.EVT_STATUS_NO_FLASH, F.EVT_STATUS_FULL, F.EVT_STATUS_DROP, F.EVT_STATUS_TORN, F.EVT_STATUS_STACK_ORDER, F.EVT_STATUS_RECOVER_BUSY, F.EVT_STATUS_RUNNING, F.EVT_STATUS_WIGN]⟩,
  ⟨"EVT_WIGN_ADDR", 0x8, 1, 4, 1, [F.EVT_WIGN_ADDR]⟩,
  ⟨"EVT_CLAIM", 0x10, 1, 4, 1, [F.EVT_CLAIM_VALID, F.EVT_CLAIM_PRIO, F.EVT_CLAIM_SOURCE]⟩,
  ⟨"EVT_EOI", 0x14, 1, 4, 1, [F.EVT_EOI]⟩,
  ⟨"EVT_STACK_TOP", 0x18, 1, 4, 1, [F.EVT_STACK_TOP_VALID, F.EVT_STACK_TOP_DEPTH, F.EVT_STACK_TOP_PRIO, F.EVT_STACK_TOP_SOURCE]⟩,
  ⟨"EVT_FW_CODE", 0x1C, 1, 4, 1, [F.EVT_FW_CODE]⟩,
  ⟨"EVT_FW_Pn", 0x20, 4, 4, 1, [F.EVT_FW_Pn]⟩,
  ⟨"EVT_SOFT", 0x30, 1, 4, 1, [F.EVT_SOFT]⟩,
  ⟨"EVT_PENDn", 0x80, 16, 4, 1, [F.EVT_PENDn]⟩,
  ⟨"EVT_STACKn", 0xC0, 16, 4, 1, [F.EVT_STACKn_VALID, F.EVT_STACKn_DEPTH, F.EVT_STACKn_PRIO, F.EVT_STACKn_SOURCE]⟩,
  ⟨"LDG_CFG", 0x100, 1, 4, 1, [F.LDG_CFG]⟩,
  ⟨"LDG_NEXT", 0x104, 1, 4, 1, [F.LDG_NEXT]⟩,
  ⟨"LDG_BUF", 0x108, 1, 4, 1, [F.LDG_BUF]⟩,
  ⟨"LDG_SEQ", 0x10C, 1, 4, 1, [F.LDG_SEQ]⟩,
  ⟨"LDG_RD_IDX", 0x110, 1, 4, 1, [F.LDG_RD_IDX]⟩,
  ⟨"LDG_RD_STAT", 0x114, 1, 4, 1, [F.LDG_RD_STAT_ERASED, F.LDG_RD_STAT_CRC_OK]⟩,
  ⟨"LDG_RD_DATAn", 0x120, 16, 4, 1, [F.LDG_RD_DATAn]⟩,
  ⟨"LDG_EXP_CMD", 0x160, 1, 4, 1, [F.LDG_EXP_CMD_BUSY, F.LDG_EXP_CMD_ERR, F.LDG_EXP_CMD_HOST, F.LDG_EXP_CMD_GO]⟩,
  ⟨"LDG_EXP_ADDR", 0x164, 1, 4, 2, [F.LDG_EXP_ADDR]⟩,
  ⟨"LDG_EXP_MAN", 0x16C, 1, 4, 2, [F.LDG_EXP_MAN]⟩,
  ⟨"LDG_EXP_FIRST", 0x174, 1, 4, 1, [F.LDG_EXP_FIRST]⟩,
  ⟨"LDG_EXP_COUNT", 0x178, 1, 4, 1, [F.LDG_EXP_COUNT]⟩,
  ⟨"LDG_CLR_POS", 0x17C, 1, 4, 1, [F.LDG_CLR_POS]⟩] ++ [
  ⟨"LDG_EXP_SEQ", 0x180, 1, 4, 2, [F.LDG_EXP_SEQ]⟩,
  ⟨"LDG_CNT_RECORDS", 0x200, 1, 8, 2, [F.LDG_CNT_RECORDS]⟩,
  ⟨"LDG_CNT_DROP", 0x208, 1, 8, 2, [F.LDG_CNT_DROP]⟩,
  ⟨"LDG_CNT_TORN", 0x210, 1, 8, 2, [F.LDG_CNT_TORN]⟩,
  ⟨"EVT_CNT_STACK_ORDER", 0x218, 1, 8, 2, [F.EVT_CNT_STACK_ORDER]⟩,
  ⟨"EVT_CNTn", 0x400, 128, 4, 1, [F.EVT_CNTn]⟩,
  ⟨"EVT_SRCn_CFG", 0x800, 512, 4, 1, [F.EVT_SRCn_CFG_WAKE, F.EVT_SRCn_CFG_HOSTVEC, F.EVT_SRCn_CFG_EN, F.EVT_SRCn_CFG_PRIO]⟩]

/-- The registers of block PWR (offsets within the block or the instance). -/
def regsPwr : List RegDef := [
  ⟨"PWR_CTRL", 0x0, 1, 4, 1, [F.PWR_CTRL]⟩,
  ⟨"PWR_STATUS", 0x4, 1, 4, 1, [F.PWR_STATUS_THERM_WARN, F.PWR_STATUS_WAKE_LATE, F.PWR_STATUS_CFG_ERR, F.PWR_STATUS_RUNNING, F.PWR_STATUS_WIGN]⟩,
  ⟨"PWR_WIGN_ADDR", 0x8, 1, 4, 1, [F.PWR_WIGN_ADDR]⟩,
  ⟨"PWR_POLICY", 0x10, 1, 4, 1, [F.PWR_POLICY_DWELL, F.PWR_POLICY_BANK_IDLE]⟩,
  ⟨"PWR_THERM_CFG", 0x14, 1, 4, 1, [F.PWR_THERM_CFG_ALERT_EN, F.PWR_THERM_CFG_WARN, F.PWR_THERM_CFG_HYST]⟩,
  ⟨"PWR_TEMP", 0x18, 1, 4, 1, [F.PWR_TEMP_SENSOR, F.PWR_TEMP_TJ]⟩,
  ⟨"PWR_DOMd_CFG", 0x20, 20, 4, 1, [F.PWR_DOMd_CFG_FLOOR, F.PWR_DOMd_CFG_TOL]⟩,
  ⟨"PWR_DOMd_STAT", 0x80, 20, 4, 1, [F.PWR_DOMd_STAT_BINDING, F.PWR_DOMd_STAT_TARGET, F.PWR_DOMd_STAT_STATE, F.PWR_DOMd_STAT_WAKING, F.PWR_DOMd_STAT_HELD, F.PWR_DOMd_STAT_TOL]⟩,
  ⟨"PWR_DOMd_NJ", 0x100, 20, 4, 1, [F.PWR_DOMd_NJ]⟩,
  ⟨"PWR_AON_NJ", 0x150, 1, 4, 1, [F.PWR_AON_NJ]⟩,
  ⟨"PWR_BEAT_NJ", 0x160, 1, 4, 1, [F.PWR_BEAT_NJ]⟩,
  ⟨"PWR_DEV_FJ", 0x164, 1, 4, 1, [F.PWR_DEV_FJ]⟩,
  ⟨"PWR_VFY_FJ", 0x168, 1, 4, 1, [F.PWR_VFY_FJ]⟩,
  ⟨"PWR_VFY_FLOOR", 0x16C, 1, 4, 1, [F.PWR_VFY_FLOOR]⟩,
  ⟨"PWR_VFY_RATIO", 0x170, 1, 4, 1, [F.PWR_VFY_RATIO]⟩,
  ⟨"PWR_SMTR_IDX", 0x180, 1, 4, 1, [F.PWR_SMTR_IDX]⟩,
  ⟨"PWR_SMTR_DATAn", 0x184, 6, 4, 1, [F.PWR_SMTR_DATAn]⟩,
  ⟨"PWR_CNT_TRANS", 0x200, 1, 8, 2, [F.PWR_CNT_TRANS]⟩,
  ⟨"PWR_CNT_WAKE_LATE", 0x208, 1, 8, 2, [F.PWR_CNT_WAKE_LATE]⟩,
  ⟨"PWR_CNT_ABANDON", 0x210, 1, 8, 2, [F.PWR_CNT_ABANDON]⟩,
  ⟨"PWR_CNT_UJ", 0x218, 1, 8, 2, [F.PWR_CNT_UJ]⟩]

/-- The registers of block LIFE (offsets within the block or the instance). -/
def regsLife : List RegDef := [
  ⟨"TAMP_CTRL", 0x0, 1, 4, 1, [F.TAMP_CTRL]⟩,
  ⟨"TAMP_STATUS", 0x4, 1, 4, 1, [F.TAMP_STATUS_VBAT_LOST, F.TAMP_STATUS_INV_ERR, F.TAMP_STATUS_ALERT, F.TAMP_STATUS_LOCKED, F.TAMP_STATUS_CFG_ERR, F.TAMP_STATUS_RUNNING, F.TAMP_STATUS_WIGN]⟩,
  ⟨"TAMP_WIGN_ADDR", 0x8, 1, 4, 1, [F.TAMP_WIGN_ADDR]⟩,
  ⟨"LIFE_STATE", 0x10, 1, 4, 1, [F.LIFE_STATE_DBG_LEVEL, F.LIFE_STATE_DBG_OPEN, F.LIFE_STATE_DISAGREE, F.LIFE_STATE_STATE]⟩,
  ⟨"LIFE_COPY01", 0x14, 1, 4, 1, [F.LIFE_COPY01_COPY1, F.LIFE_COPY01_COPY0]⟩,
  ⟨"LIFE_COPY2", 0x18, 1, 4, 1, [F.LIFE_COPY2]⟩,
  ⟨"LIFE_DIGESTS", 0x1C, 1, 4, 1, [F.LIFE_DIGESTS_DBG_OWNER, F.LIFE_DIGESTS_DBG_VENDOR, F.LIFE_DIGESTS_SCRAP, F.LIFE_DIGESTS_RETURN, F.LIFE_DIGESTS_FIELD, F.LIFE_DIGESTS_BENCH]⟩,
  ⟨"LIFE_CMD", 0x20, 1, 4, 1, [F.LIFE_CMD_BUSY, F.LIFE_CMD_ERR, F.LIFE_CMD_OP]⟩,
  ⟨"LIFE_CMD_DATAn", 0x40, 16, 4, 1, [F.LIFE_CMD_DATAn]⟩,
  ⟨"LIFE_DBG", 0x80, 1, 4, 1, [F.LIFE_DBG_LEVEL, F.LIFE_DBG_OWNER, F.LIFE_DBG_REMAIN]⟩,
  ⟨"TAMP_MTC", 0x84, 1, 4, 2, [F.TAMP_MTC]⟩,
  ⟨"TAMP_ERA", 0x8C, 1, 4, 1, [F.TAMP_ERA]⟩,
  ⟨"TAMP_STICKY", 0x90, 1, 4, 1, [F.TAMP_STICKY]⟩,
  ⟨"TAMP_LIVE", 0x94, 1, 4, 1, [F.TAMP_LIVE]⟩,
  ⟨"TAMP_INV_ADDR", 0x98, 1, 4, 1, [F.TAMP_INV_ADDR]⟩,
  ⟨"TAMP_SRCn_CFG", 0x100, 32, 4, 1, [F.TAMP_SRCn_CFG_EN, F.TAMP_SRCn_CFG_N, F.TAMP_SRCn_CFG_RESP, F.TAMP_SRCn_CFG_WINDOW]⟩,
  ⟨"TAMP_RECn_FIRST", 0x200, 25, 16, 1, [F.TAMP_RECn_FIRST]⟩,
  ⟨"TAMP_RECn_LAST", 0x204, 25, 16, 1, [F.TAMP_RECn_LAST]⟩,
  ⟨"TAMP_RECn_CNT", 0x208, 25, 16, 1, [F.TAMP_RECn_CNT_COUNT, F.TAMP_RECn_CNT_PARAM]⟩,
  ⟨"TAMP_CNT_INV", 0x400, 1, 8, 2, [F.TAMP_CNT_INV]⟩]

/-- The registers of block MTEST (offsets within the block or the instance). -/
def regsMtest : List RegDef := [
  ⟨"MTEST_CTRL", 0x0, 1, 4, 1, [F.MTEST_CTRL]⟩,
  ⟨"MTEST_STATUS", 0x4, 1, 4, 1, [F.MTEST_STATUS_REC_FULL, F.MTEST_STATUS_SPARES_OUT, F.MTEST_STATUS_RETIRED, F.MTEST_STATUS_CFG_ERR, F.MTEST_STATUS_RUNNING, F.MTEST_STATUS_WIGN]⟩,
  ⟨"MTEST_WIGN_ADDR", 0x8, 1, 4, 1, [F.MTEST_WIGN_ADDR]⟩,
  ⟨"MTEST_CFG", 0x10, 1, 4, 1, [F.MTEST_CFG_AGE_LOG_H, F.MTEST_CFG_CE_LIMIT, F.MTEST_CFG_PASS_M]⟩,
  ⟨"MTEST_SPARES", 0x14, 1, 4, 1, [F.MTEST_SPARES_SHEDS, F.MTEST_SPARES_BANKS]⟩,
  ⟨"MTEST_REC", 0x18, 1, 4, 1, [F.MTEST_REC]⟩,
  ⟨"MTEST_PASS", 0x1C, 1, 4, 1, [F.MTEST_PASS]⟩,
  ⟨"MTEST_CNT_FOUND", 0x100, 1, 8, 2, [F.MTEST_CNT_FOUND]⟩,
  ⟨"MTEST_CNT_ROWREP", 0x108, 1, 8, 2, [F.MTEST_CNT_ROWREP]⟩,
  ⟨"MTEST_CNT_SPARED", 0x110, 1, 8, 2, [F.MTEST_CNT_SPARED]⟩,
  ⟨"MTEST_CNT_RETIRED", 0x118, 1, 8, 2, [F.MTEST_CNT_RETIRED]⟩]

/-- The registers of block SLICE (offsets within the block or the instance). -/
def regsSlice : List RegDef := [
  ⟨"SLICE_CTRL", 0x0, 1, 4, 1, [F.SLICE_CTRL_WAKE_EN, F.SLICE_CTRL_EN]⟩,
  ⟨"SLICE_STATUS", 0x4, 1, 4, 1, [F.SLICE_STATUS_STATE, F.SLICE_STATUS_RESTORED, F.SLICE_STATUS_SAVED, F.SLICE_STATUS_INIT_BUSY, F.SLICE_STATUS_DMA_FAULT, F.SLICE_STATUS_CQ_LOST, F.SLICE_STATUS_CFG_ERR, F.SLICE_STATUS_RUNNING, F.SLICE_STATUS_WIGN]⟩,
  ⟨"SLICE_WIGN_ADDR", 0x8, 1, 4, 1, [F.SLICE_WIGN_ADDR]⟩,
  ⟨"SLICE_ID", 0xC, 1, 4, 1, [F.SLICE_ID_PASID, F.SLICE_ID_SLICE]⟩,
  ⟨"SLICE_TENANT", 0x10, 1, 4, 2, [F.SLICE_TENANT]⟩,
  ⟨"SLICE_RATE", 0x18, 1, 4, 1, [F.SLICE_RATE_DMA_RATE, F.SLICE_RATE_CMD_RATE]⟩,
  ⟨"SLICE_SQ_BASE", 0x20, 1, 4, 2, [F.SLICE_SQ_BASE]⟩,
  ⟨"SLICE_SQ_SIZE", 0x28, 1, 4, 1, [F.SLICE_SQ_SIZE]⟩,
  ⟨"SLICE_CQ_BASE", 0x30, 1, 4, 2, [F.SLICE_CQ_BASE]⟩,
  ⟨"SLICE_CQ_SIZE", 0x38, 1, 4, 1, [F.SLICE_CQ_SIZE]⟩,
  ⟨"SLICE_DR_BASE", 0x40, 1, 4, 2, [F.SLICE_DR_BASE]⟩,
  ⟨"SLICE_DR_SIZE", 0x48, 1, 4, 1, [F.SLICE_DR_SIZE]⟩,
  ⟨"SLICE_EVR_BASE", 0x50, 1, 4, 2, [F.SLICE_EVR_BASE]⟩,
  ⟨"SLICE_EVR_SIZE", 0x58, 1, 4, 1, [F.SLICE_EVR_SIZE]⟩,
  ⟨"SLICE_LTR", 0x60, 1, 4, 1, [F.SLICE_LTR_HOST_TOL, F.SLICE_LTR_WORK_TOL]⟩,
  ⟨"SLICE_MIG_CMD", 0x64, 1, 4, 1, [F.SLICE_MIG_CMD_BUSY, F.SLICE_MIG_CMD_ERR, F.SLICE_MIG_CMD_OP]⟩,
  ⟨"SLICE_MIG_ADDR", 0x68, 1, 4, 2, [F.SLICE_MIG_ADDR]⟩,
  ⟨"SLICE_MIG_LEN", 0x70, 1, 4, 1, [F.SLICE_MIG_LEN]⟩,
  ⟨"SLICE_MIG_DONE", 0x74, 1, 4, 1, [F.SLICE_MIG_DONE]⟩,
  ⟨"SLICE_CFG_CRC", 0x80, 1, 4, 1, [F.SLICE_CFG_CRC]⟩,
  ⟨"SLICE_USE", 0x84, 1, 4, 1, [F.SLICE_USE_HELD, F.SLICE_USE_ITEMS, F.SLICE_USE_KEYS, F.SLICE_USE_FLOWS]⟩,
  ⟨"SLICE_CNT_CMD", 0x100, 1, 8, 2, [F.SLICE_CNT_CMD]⟩,
  ⟨"SLICE_CNT_CMD_ERR", 0x108, 1, 8, 2, [F.SLICE_CNT_CMD_ERR]⟩,
  ⟨"SLICE_CNT_CQ_DROP", 0x110, 1, 8, 2, [F.SLICE_CNT_CQ_DROP]⟩] ++ [
  ⟨"SLICE_CNT_DR_DROP", 0x118, 1, 8, 2, [F.SLICE_CNT_DR_DROP]⟩,
  ⟨"SLICE_CNT_RATE_HOLD", 0x120, 1, 8, 2, [F.SLICE_CNT_RATE_HOLD]⟩,
  ⟨"SLICE_CNT_DMA_BYTES", 0x128, 1, 8, 2, [F.SLICE_CNT_DMA_BYTES]⟩,
  ⟨"SLICE_SQ_TAIL", 0x1000, 1, 4, 1, [F.SLICE_SQ_TAIL]⟩,
  ⟨"SLICE_CQ_HEAD", 0x1004, 1, 4, 1, [F.SLICE_CQ_HEAD]⟩,
  ⟨"SLICE_DR_HEAD", 0x1008, 1, 4, 1, [F.SLICE_DR_HEAD]⟩,
  ⟨"SLICE_EVR_HEAD", 0x100C, 1, 4, 1, [F.SLICE_EVR_HEAD]⟩,
  ⟨"SLICE_SQ_HEAD", 0x1010, 1, 4, 1, [F.SLICE_SQ_HEAD]⟩,
  ⟨"SLICE_CQ_TAIL", 0x1014, 1, 4, 1, [F.SLICE_CQ_TAIL]⟩,
  ⟨"SLICE_DR_TAIL", 0x1018, 1, 4, 1, [F.SLICE_DR_TAIL]⟩,
  ⟨"SLICE_EVR_TAIL", 0x101C, 1, 4, 1, [F.SLICE_EVR_TAIL]⟩]

end Sys2Proof.Machine
end

