-- ==== Sys2Proof/Machine/SoftFloat.lean ====
section
/-! DEFINITION. Single-precision arithmetic of IEEE 754-2008 as the F extension uses it (R170): exact arithmetic on
m · 2^e, then one rounding in one of the five modes, with the flags NX 1, UF 2, OF 4, DZ 8, NV 16. Tininess is detected
after rounding and the NaN produced is 0x7FC00000 (RISC-V F 2.2; assumption log 40). -/

namespace Sys2Proof.Machine

/-- The parts of a binary32 number. -/
def fSign (b : Nat) : Bool := b.testBit 31
def fExp (b : Nat) : Nat := b / 2 ^ 23 % 256
def fFrac (b : Nat) : Nat := b % 2 ^ 23
def fNaN (b : Nat) : Bool := fExp b == 255 && fFrac b != 0
/-- A signalling NaN: its quiet bit is 0. -/
def fSNaN (b : Nat) : Bool := fNaN b && !b.testBit 22
def fInf (b : Nat) : Bool := fExp b == 255 && fFrac b == 0
def fZero (b : Nat) : Bool := b % 2 ^ 31 == 0
/-- Significand and exponent of a finite number: it is significand · 2^exponent. -/
def fMan (b : Nat) : Nat := if fExp b = 0 then fFrac b else fFrac b + 2 ^ 23
def fScale (b : Nat) : Int := if fExp b = 0 then -149 else (fExp b : Int) - 150

def qNaN : Nat := 0x7FC00000
def signBit (s : Bool) : Nat := if s then 2 ^ 31 else 0
def fInfinity (s : Bool) : Nat := signBit s + 0x7F800000

/-- Whether the kept part of a number is raised: `rem` of `2^sh` was cut off (rounding modes RNE 0, RTZ 1, RDN 2, RUP 3,
RMM 4). -/
def roundUp (rm : Nat) (s : Bool) (kept rem sh : Nat) : Bool :=
  match rm with
  | 0 => decide (2 ^ sh < 2 * rem) || (2 * rem == 2 ^ sh && rem != 0 && kept % 2 == 1)
  | 1 => false
  | 2 => s && rem != 0
  | 3 => !s && rem != 0
  | _ => rem != 0 && decide (2 ^ sh ≤ 2 * rem)

/-- `m` with its low `sh` bits rounded away, and whether that was inexact. -/
def roundShift (rm : Nat) (s : Bool) (m : Nat) (sh : Int) : Nat × Bool :=
  if sh ≤ 0 then (m * 2 ^ (-sh).toNat, false)
  else
    let k := sh.toNat
    (m / 2 ^ k + b2n (roundUp rm s (m / 2 ^ k) (m % 2 ^ k) k), m % 2 ^ k != 0)

/-- The number ±m · 2^e rounded to binary32: its bits and the flags. -/
def roundPack (rm : Nat) (s : Bool) (m : Nat) (e : Int) : Nat × Nat :=
  if m = 0 then (signBit s, 0)
  else
    let n : Int := (Nat.log2 m : Int) + e
    let q : Int := max (n - 23) (-149)
    let (k, nx) := roundShift rm s m (q - e)
    let bits := ((q + 149) * 2 ^ 23).toNat + k
    if bits ≥ 255 * 2 ^ 23 then
      let toInf := match rm with
        | 1 => false
        | 2 => s
        | 3 => !s
        | _ => true
      (if toInf then fInfinity s else signBit s + 0x7F7FFFFF, 5)
    else
      let tiny := n < -127 || (n = -127 && (roundShift rm s m (n - 23 - e)).1 < 2 ^ 24)
      (signBit s + bits, b2n nx + 2 * b2n (nx && tiny))

/-- The flags of operands that are signalling NaNs. -/
def nvFlag (l : List Nat) : Nat := if l.any fSNaN then 16 else 0

/-- An exact sum of two numbers given by sign, significand and exponent. -/
def addExact (rm : Nat) (s1 : Bool) (m1 : Nat) (e1 : Int) (s2 : Bool) (m2 : Nat) (e2 : Int) : Nat × Nat :=
  let e := min e1 e2
  let a : Int := m1 * 2 ^ (e1 - e).toNat
  let b : Int := m2 * 2 ^ (e2 - e).toNat
  let t := (if s1 then -a else a) + (if s2 then -b else b)
  if t = 0 then (signBit (if s1 = s2 then s1 else rm = 2), 0)
  else roundPack rm (decide (t < 0)) t.natAbs e

def fAdd (rm a b : Nat) : Nat × Nat :=
  if fNaN a || fNaN b then (qNaN, nvFlag [a, b])
  else if fInf a && fInf b then (if fSign a = fSign b then (a, 0) else (qNaN, 16))
  else if fInf a then (a, 0)
  else if fInf b then (b, 0)
  else addExact rm (fSign a) (fMan a) (fScale a) (fSign b) (fMan b) (fScale b)

/-- The opposite sign. -/
def fNeg (a : Nat) : Nat := (a + 2 ^ 31) % 2 ^ 32

def fSub (rm a b : Nat) : Nat × Nat :=
  if fNaN a || fNaN b then (qNaN, nvFlag [a, b]) else fAdd rm a (fNeg b)

def fMul (rm a b : Nat) : Nat × Nat :=
  let s := fSign a != fSign b
  if fNaN a || fNaN b then (qNaN, nvFlag [a, b])
  else if fInf a || fInf b then (if fZero a || fZero b then (qNaN, 16) else (fInfinity s, 0))
  else roundPack rm s (fMan a * fMan b) (fScale a + fScale b)

/-- a × b + c with one rounding; infinity times zero is invalid even when c is a quiet NaN. -/
def fMulAdd (rm a b c : Nat) : Nat × Nat :=
  let s := fSign a != fSign b
  let bad := (fInf a && fZero b) || (fZero a && fInf b)
  if bad && !fNaN a && !fNaN b then (qNaN, 16)
  else if fNaN a || fNaN b || fNaN c then (qNaN, nvFlag [a, b, c])
  else if fInf a || fInf b then
    (if fInf c && fSign c != s then (qNaN, 16) else (fInfinity s, 0))
  else if fInf c then (c, 0)
  else addExact rm s (fMan a * fMan b) (fScale a + fScale b) (fSign c) (fMan c) (fScale c)

def fDiv (rm a b : Nat) : Nat × Nat :=
  let s := fSign a != fSign b
  if fNaN a || fNaN b then (qNaN, nvFlag [a, b])
  else if fInf a then (if fInf b then (qNaN, 16) else (fInfinity s, 0))
  else if fInf b then (signBit s, 0)
  else if fZero b then (if fZero a then (qNaN, 16) else (fInfinity s, 8))
  else
    let n := fMan a * 2 ^ 64
    roundPack rm s (2 * (n / fMan b) + b2n (n % fMan b != 0)) (fScale a - fScale b - 65)

/-- The integer square root, bit by bit from bit `i - 1`. -/
def isqrt (n : Nat) : Nat → Nat → Nat
  | 0, r => r
  | i + 1, r => if (r + 2 ^ i) * (r + 2 ^ i) ≤ n then isqrt n i (r + 2 ^ i) else isqrt n i r

def fSqrt (rm a : Nat) : Nat × Nat :=
  if fNaN a then (qNaN, nvFlag [a])
  else if fZero a then (a, 0)
  else if fSign a then (qNaN, 16)
  else if fInf a then (a, 0)
  else
    let odd := fScale a % 2 != 0
    let m := (if odd then 2 * fMan a else fMan a) * 2 ^ 64
    let e : Int := (if odd then fScale a - 1 else fScale a) - 64
    let r := isqrt m 48 0
    roundPack rm false (2 * r + b2n (r * r != m)) (e / 2 - 1)

/-- The order of two numbers that are not NaN: a < b. -/
def fLess (a b : Nat) : Bool :=
  if fZero a && fZero b then false
  else if fSign a != fSign b then fSign a
  else if fSign a then decide (b % 2 ^ 31 < a % 2 ^ 31) else decide (a % 2 ^ 31 < b % 2 ^ 31)

def fSame (a b : Nat) : Bool := a == b || (fZero a && fZero b)

/-- FEQ.S, FLT.S, FLE.S: the result and the flags. -/
def fEq (a b : Nat) : Nat × Nat :=
  if fNaN a || fNaN b then (0, nvFlag [a, b]) else (b2n (fSame a b), 0)
def fLt (a b : Nat) : Nat × Nat :=
  if fNaN a || fNaN b then (0, 16) else (b2n (fLess a b), 0)
def fLe (a b : Nat) : Nat × Nat :=
  if fNaN a || fNaN b then (0, 16) else (b2n (fLess a b || fSame a b), 0)

/-- FMIN.S and FMAX.S: one NaN gives the other operand, and −0 lies below +0. -/
def fMinMax (mx : Bool) (a b : Nat) : Nat × Nat :=
  let nv := nvFlag [a, b]
  if fNaN a then (if fNaN b then qNaN else b, nv)
  else if fNaN b then (a, nv)
  else
    let less := fLess a b || (fZero a && fZero b && fSign a && !fSign b)
    (if less != mx then a else b, nv)

/-- FCVT.W.S and FCVT.WU.S. -/
def fToInt (rm : Nat) (uns : Bool) (a : Nat) : Nat × Nat :=
  let top : Nat := if uns then 2 ^ 32 - 1 else 2 ^ 31 - 1
  if fNaN a then (top, 16)
  else if fInf a then (if fSign a then (if uns then 0 else 2 ^ 31) else top, 16)
  else
    let (k, nx) := roundShift rm (fSign a) (fMan a) (-fScale a)
    let v : Int := if fSign a then -(k : Int) else k
    if v < (if uns then 0 else -(2 ^ 31 : Int)) then (if uns then 0 else 2 ^ 31, 16)
    else if (top : Int) < v then (top, 16)
    else (ofSigned 32 v, b2n nx)

/-- FCVT.S.W and FCVT.S.WU. -/
def fOfInt (rm : Nat) (uns : Bool) (a : Nat) : Nat × Nat :=
  let v : Int := if uns then a else toSigned 32 a
  roundPack rm (decide (v < 0)) v.natAbs 0

/-- FCLASS.S. -/
def fClass (a : Nat) : Nat :=
  let s := fSign a
  if fNaN a then (if fSNaN a then 256 else 512)
  else if fInf a then (if s then 1 else 128)
  else if fZero a then (if s then 8 else 16)
  else if fExp a = 0 then (if s then 4 else 32)
  else if s then 2 else 64

end Sys2Proof.Machine
end

