-- ==== Sys2Proof/Machine/Rv32.lean ====
section
/-! DEFINITION. The stall core as pure data and functions: RV32IMFC with Zicsr, Zifencei, Zba and Zbb (R170) and Xdlp
(R181 to R186). Encodings and results of the RISC-V extensions are those of the specifications R170 names (assumption
log 40). Decoding gives one `Rv` for each instruction; `Core.compute` gives the effect of every instruction that neither
reaches memory nor calls a service. -/

namespace Sys2Proof.Machine

/-- The registers of a stall core (R170, R182): integer registers (x0 never listed), F registers, pc, fcsr, ACC0 to ACC3,
the window CSRs and DLP_FLAGS, and retired instructions. -/
structure Core where
  x : Table Word
  f : Table Word
  pc : Word
  fcsr : Nat
  acc : List (Int × Int)
  win : Word
  wpres : Word
  wdata : Word
  wstride : Word
  welem : Word
  wlim : Word
  dflags : Nat
  instret : Nat
  deriving DecidableEq, Repr

def Core.zero : Core :=
  { x := [], f := [], pc := 0, fcsr := 0, acc := [(0, 0), (0, 0), (0, 0), (0, 0)], win := 0, wpres := 0, wdata := 0,
    wstride := 0, welem := 0, wlim := 0, dflags := 0, instret := 0 }

def Core.rx (c : Core) (r : Nat) : Word := Table.at 0 r c.x
/-- A write of an integer register; x0 discards it. -/
def Core.wx (c : Core) (r : Nat) (v : Word) : Core := if r = 0 then c else { c with x := Table.put 0 r v c.x }
def Core.rf (c : Core) (r : Nat) : Word := Table.at 0 r c.f
def Core.wf (c : Core) (r : Nat) (v : Word) : Core := { c with f := Table.put 0 r v c.f }
/-- Raise floating-point flags. -/
def Core.fflags (c : Core) (n : Nat) : Core := { c with fcsr := c.fcsr ||| n }
/-- Go on at pc + n, one more instruction retired. -/
def Core.next (c : Core) (n : Nat) : Core := { c with pc := c.pc + BitVec.ofNat 32 n, instret := (c.instret + 1) % 2 ^ 64 }
/-- Go on at `a`. -/
def Core.goto (c : Core) (a : Word) : Core := { c with pc := a, instret := (c.instret + 1) % 2 ^ 64 }

/-- Operations on two integer operands: I, M, Zba, Zbb. -/
inductive Alu where
  | add | sub | sll | slt | sltu | xor | srl | sra | or | and
  | mul | mulh | mulhsu | mulhu | div | divu | rem | remu
  | sh1add | sh2add | sh3add
  | andn | orn | xnor | max | maxu | min | minu | rol | ror
  deriving DecidableEq, Repr

/-- Operations of Zbb on one operand. -/
inductive Una where
  | clz | ctz | cpop | sextb | sexth | zexth | orcb | rev8
  deriving DecidableEq, Repr

/-- Operations of F on F registers. -/
inductive Fop where
  | add | sub | mul | div | sqrt | sgnj | sgnjn | sgnjx | min | max
  deriving DecidableEq, Repr

/-- Operations of F into an integer register. -/
inductive Fcmp where
  | le | lt | eq | cvtW | cvtWu | mvXW | fclass
  deriving DecidableEq, Repr

/-- Saturating operations of R181. -/
inductive Qop where
  | qadd | qsub | qmul | qadd16 | qsub16 | qmul16 | qabs | qneg
  deriving DecidableEq, Repr

/-- Complex accumulation and accumulator reads (R181). -/
inductive Cop where
  | cmac | cmacj | cmsu | cmsuj
  deriving DecidableEq, Repr
inductive Rop where
  | ardre | ardim | apk16
  deriving DecidableEq, Repr
/-- Slab loads (R185). -/
inductive Lop where
  | lsh | lsw | lsp
  deriving DecidableEq, Repr

/-- A decoded instruction. Immediates and offsets are sign-extended words. -/
inductive Rv where
  | alu (op : Alu) (rd rs1 rs2 : Nat)
  | alui (op : Alu) (rd rs1 : Nat) (imm : Word)
  | una (op : Una) (rd rs1 : Nat)
  | lui (rd : Nat) (imm : Word)
  | auipc (rd : Nat) (imm : Word)
  | jal (rd : Nat) (ofs : Word)
  | jalr (rd rs1 : Nat) (imm : Word)
  | branch (cond rs1 rs2 : Nat) (ofs : Word)
  | load (fp : Bool) (rd rs1 : Nat) (imm : Word) (size : Nat) (signed : Bool)
  | store (fp : Bool) (rs2 rs1 : Nat) (imm : Word) (size : Nat)
  | fence
  | fenceI
  | ecall
  | ebreak
  | csr (op rd : Nat) (useImm : Bool) (rs1 csr : Nat)
  | fma (op rd rs1 rs2 rs3 rm : Nat)
  | farith (op : Fop) (rd rs1 rs2 rm : Nat)
  | fcmp (op : Fcmp) (rd rs1 rs2 rm : Nat)
  | fcvtS (uns : Bool) (rd rs1 rm : Nat)
  | fmvWX (rd rs1 : Nat)
  | q (op : Qop) (rd rs1 rs2 : Nat)
  | c (op : Cop) (acc rs1 rs2 : Nat)
  | aclr (acc : Nat)
  | r (op : Rop) (rd acc sh : Nat)
  | l (op : Lop) (rd rs1 : Nat) (imm : Word)
  | illegal
  deriving DecidableEq, Repr

/-- A sign-extended field of `n` bits. -/
def sext (n v : Nat) : Word := BitVec.ofInt 32 (toSigned n v)

/-! Decoding of 32-bit instructions. -/

/-- OP: funct7 and funct3. -/
def decodeOp (f7 f3 rs2 : Nat) : Option (Alu ⊕ Una) :=
  match f7, f3 with
  | 0, 0 => some (.inl .add) | 0, 1 => some (.inl .sll) | 0, 2 => some (.inl .slt) | 0, 3 => some (.inl .sltu)
  | 0, 4 => some (.inl .xor) | 0, 5 => some (.inl .srl) | 0, 6 => some (.inl .or) | 0, 7 => some (.inl .and)
  | 0x20, 0 => some (.inl .sub) | 0x20, 5 => some (.inl .sra) | 0x20, 4 => some (.inl .xnor)
  | 0x20, 6 => some (.inl .orn) | 0x20, 7 => some (.inl .andn)
  | 1, 0 => some (.inl .mul) | 1, 1 => some (.inl .mulh) | 1, 2 => some (.inl .mulhsu) | 1, 3 => some (.inl .mulhu)
  | 1, 4 => some (.inl .div) | 1, 5 => some (.inl .divu) | 1, 6 => some (.inl .rem) | 1, 7 => some (.inl .remu)
  | 0x10, 2 => some (.inl .sh1add) | 0x10, 4 => some (.inl .sh2add) | 0x10, 6 => some (.inl .sh3add)
  | 5, 4 => some (.inl .min) | 5, 5 => some (.inl .minu) | 5, 6 => some (.inl .max) | 5, 7 => some (.inl .maxu)
  | 0x30, 1 => some (.inl .rol) | 0x30, 5 => some (.inl .ror)
  | 4, 4 => if rs2 = 0 then some (.inr .zexth) else none
  | _, _ => none

/-- OP-IMM with a shift or a bit operation: the upper seven bits and the lower five of the immediate. -/
def decodeShift (f3 hi lo : Nat) : Option (Alu ⊕ Una) :=
  match f3, hi with
  | 1, 0 => some (.inl .sll)
  | 5, 0 => some (.inl .srl)
  | 5, 0x20 => some (.inl .sra)
  | 5, 0x30 => some (.inl .ror)
  | 1, 0x30 =>
    (match lo with
     | 0 => some (.inr .clz) | 1 => some (.inr .ctz) | 2 => some (.inr .cpop) | 4 => some (.inr .sextb)
     | 5 => some (.inr .sexth) | _ => none)
  | 5, 0x14 => if lo = 7 then some (.inr .orcb) else none
  | 5, 0x34 => if lo = 0x18 then some (.inr .rev8) else none
  | _, _ => none

/-- Whether a rounding mode field is one that exists; 7 takes frm, which is judged when the instruction runs. -/
def rmOk (rm : Nat) : Bool := decide (rm < 5) || rm == 7

/-- OP-FP. -/
def decodeFp (f7 f3 rd rs1 rs2 : Nat) : Rv :=
  let ar (o : Fop) : Rv := if rmOk f3 then .farith o rd rs1 rs2 f3 else .illegal
  match f7 with
  | 0x00 => ar .add
  | 0x04 => ar .sub
  | 0x08 => ar .mul
  | 0x0C => ar .div
  | 0x2C => if rs2 = 0 then ar .sqrt else .illegal
  | 0x10 => if f3 = 0 then .farith .sgnj rd rs1 rs2 0 else if f3 = 1 then .farith .sgnjn rd rs1 rs2 0
            else if f3 = 2 then .farith .sgnjx rd rs1 rs2 0 else .illegal
  | 0x14 => if f3 = 0 then .farith .min rd rs1 rs2 0 else if f3 = 1 then .farith .max rd rs1 rs2 0 else .illegal
  | 0x50 => if f3 = 0 then .fcmp .le rd rs1 rs2 0 else if f3 = 1 then .fcmp .lt rd rs1 rs2 0
            else if f3 = 2 then .fcmp .eq rd rs1 rs2 0 else .illegal
  | 0x60 => if !rmOk f3 then .illegal else if rs2 = 0 then .fcmp .cvtW rd rs1 0 f3
            else if rs2 = 1 then .fcmp .cvtWu rd rs1 0 f3 else .illegal
  | 0x68 => if !rmOk f3 then .illegal else if rs2 = 0 then .fcvtS false rd rs1 f3
            else if rs2 = 1 then .fcvtS true rd rs1 f3 else .illegal
  | 0x70 => if rs2 ≠ 0 then .illegal else if f3 = 0 then .fcmp .mvXW rd rs1 0 0
            else if f3 = 1 then .fcmp .fclass rd rs1 0 0 else .illegal
  | 0x78 => if rs2 = 0 ∧ f3 = 0 then .fmvWX rd rs1 else .illegal
  | _ => .illegal

/-- custom-0 (R181). -/
def decodeCustom0 (f7 f3 rd rs1 rs2 : Nat) : Rv :=
  match f3 with
  | 0 =>
    (match f7 with
     | 0 => .q .qadd rd rs1 rs2 | 1 => .q .qsub rd rs1 rs2 | 2 => .q .qmul rd rs1 rs2
     | 4 => .q .qadd16 rd rs1 rs2 | 5 => .q .qsub16 rd rs1 rs2 | 6 => .q .qmul16 rd rs1 rs2
     | 8 => if rs2 = 0 then .q .qabs rd rs1 0 else .illegal
     | 9 => if rs2 = 0 then .q .qneg rd rs1 0 else .illegal
     | _ => .illegal)
  | 1 =>
    if 4 ≤ rd then .illegal else
    (match f7 with
     | 0 => .c .cmac rd rs1 rs2 | 1 => .c .cmacj rd rs1 rs2 | 2 => .c .cmsu rd rs1 rs2 | 3 => .c .cmsuj rd rs1 rs2
     | 4 => if rs1 = 0 ∧ rs2 = 0 then .aclr rd else .illegal
     | _ => .illegal)
  | 2 =>
    if 4 ≤ rs1 then .illegal else
    (match f7 with
     | 0 => .r .ardre rd rs1 rs2 | 1 => .r .ardim rd rs1 rs2 | 2 => .r .apk16 rd rs1 rs2
     | _ => .illegal)
  | _ => .illegal

/-- A 32-bit instruction word. -/
def decode32 (w : Nat) : Rv :=
  let rd := bitsOf w 7 5
  let f3 := bitsOf w 12 3
  let rs1 := bitsOf w 15 5
  let rs2 := bitsOf w 20 5
  let f7 := bitsOf w 25 7
  let immI := sext 12 (bitsOf w 20 12)
  let immS := sext 12 (rd + 32 * f7)
  let immB := sext 13 (2 * bitsOf w 8 4 + 32 * bitsOf w 25 6 + 2048 * bitsOf w 7 1 + 4096 * bitsOf w 31 1)
  let immU := BitVec.ofNat 32 (w / 4096 * 4096)
  let immJ := sext 21 (2 * bitsOf w 21 10 + 2048 * bitsOf w 20 1 + 4096 * bitsOf w 12 8 + 1048576 * bitsOf w 31 1)
  match bitsOf w 0 7 with
  | 0x37 => .lui rd immU
  | 0x17 => .auipc rd immU
  | 0x6F => .jal rd immJ
  | 0x67 => if f3 = 0 then .jalr rd rs1 immI else .illegal
  | 0x63 => if f3 = 2 ∨ f3 = 3 then .illegal else .branch f3 rs1 rs2 immB
  | 0x03 =>
    (match f3 with
     | 0 => .load false rd rs1 immI 1 true | 1 => .load false rd rs1 immI 2 true | 2 => .load false rd rs1 immI 4 true
     | 4 => .load false rd rs1 immI 1 false | 5 => .load false rd rs1 immI 2 false | _ => .illegal)
  | 0x07 => if f3 = 2 then .load true rd rs1 immI 4 false else .illegal
  | 0x23 =>
    (match f3 with
     | 0 => .store false rs2 rs1 immS 1 | 1 => .store false rs2 rs1 immS 2 | 2 => .store false rs2 rs1 immS 4
     | _ => .illegal)
  | 0x27 => if f3 = 2 then .store true rs2 rs1 immS 4 else .illegal
  | 0x0F => if f3 = 0 then .fence else if f3 = 1 then .fenceI else .illegal
  | 0x13 =>
    (match f3 with
     | 0 => .alui .add rd rs1 immI | 2 => .alui .slt rd rs1 immI | 3 => .alui .sltu rd rs1 immI
     | 4 => .alui .xor rd rs1 immI | 6 => .alui .or rd rs1 immI | 7 => .alui .and rd rs1 immI
     | _ =>
       (match decodeShift f3 f7 rs2 with
        | some (.inl o) => .alui o rd rs1 (BitVec.ofNat 32 rs2)
        | some (.inr o) => .una o rd rs1
        | none => .illegal))
  | 0x33 =>
    (match decodeOp f7 f3 rs2 with
     | some (.inl o) => .alu o rd rs1 rs2
     | some (.inr o) => .una o rd rs1
     | none => .illegal)
  | 0x73 =>
    if f3 = 0 then (if w = 0x73 then .ecall else if w = 0x100073 then .ebreak else .illegal)
    else if f3 = 4 then .illegal
    else .csr (f3 % 4) rd (decide (4 ≤ f3)) rs1 (bitsOf w 20 12)
  | 0x43 => if f7 % 4 = 0 ∧ rmOk f3 then .fma 0 rd rs1 rs2 (f7 / 4) f3 else .illegal
  | 0x47 => if f7 % 4 = 0 ∧ rmOk f3 then .fma 1 rd rs1 rs2 (f7 / 4) f3 else .illegal
  | 0x4B => if f7 % 4 = 0 ∧ rmOk f3 then .fma 2 rd rs1 rs2 (f7 / 4) f3 else .illegal
  | 0x4F => if f7 % 4 = 0 ∧ rmOk f3 then .fma 3 rd rs1 rs2 (f7 / 4) f3 else .illegal
  | 0x53 => decodeFp f7 f3 rd rs1 rs2
  | 0x0B => decodeCustom0 f7 f3 rd rs1 rs2
  | 0x2B =>
    (match f3 with
     | 0 => .l .lsh rd rs1 immI
     | 1 => .l .lsw rd rs1 immI
     | 2 => if bitsOf w 20 12 = 0 then .l .lsp rd rs1 0 else .illegal
     | _ => .illegal)
  | _ => .illegal

/-! Decoding of compressed instructions. -/

/-- Quadrant 0. -/
def decodeC0 (w : Nat) : Rv :=
  let rd := 8 + bitsOf w 2 3
  let rs1 := 8 + bitsOf w 7 3
  let uimm := BitVec.ofNat 32 (8 * bitsOf w 10 3 + 4 * bitsOf w 6 1 + 64 * bitsOf w 5 1)
  match bitsOf w 13 3 with
  | 0 =>
    let n := 4 * bitsOf w 6 1 + 8 * bitsOf w 5 1 + 16 * bitsOf w 11 2 + 64 * bitsOf w 7 4
    if n = 0 then .illegal else .alui .add rd 2 (BitVec.ofNat 32 n)
  | 2 => .load false rd rs1 uimm 4 true
  | 3 => .load true rd rs1 uimm 4 false
  | 6 => .store false rd rs1 uimm 4
  | 7 => .store true rd rs1 uimm 4
  | _ => .illegal

/-- Quadrant 1. -/
def decodeC1 (w : Nat) : Rv :=
  let rd := bitsOf w 7 5
  let r' := 8 + bitsOf w 7 3
  let imm := sext 6 (bitsOf w 2 5 + 32 * bitsOf w 12 1)
  let sh := bitsOf w 2 5
  let ofsJ := sext 12 (2 * bitsOf w 3 3 + 16 * bitsOf w 11 1 + 32 * bitsOf w 2 1 + 64 * bitsOf w 7 1 + 128 * bitsOf w 6 1
    + 256 * bitsOf w 9 2 + 1024 * bitsOf w 8 1 + 2048 * bitsOf w 12 1)
  let ofsB := sext 9 (2 * bitsOf w 3 2 + 8 * bitsOf w 10 2 + 32 * bitsOf w 2 1 + 64 * bitsOf w 5 2 + 256 * bitsOf w 12 1)
  match bitsOf w 13 3 with
  | 0 => .alui .add rd rd imm
  | 1 => .jal 1 ofsJ
  | 2 => .alui .add rd 0 imm
  | 3 =>
    if rd = 2 then
      let n := 16 * bitsOf w 6 1 + 32 * bitsOf w 2 1 + 64 * bitsOf w 5 1 + 128 * bitsOf w 3 2 + 512 * bitsOf w 12 1
      if n = 0 then .illegal else .alui .add 2 2 (sext 10 n)
    else if imm = 0 then .illegal else .lui rd (imm * 4096)
  | 4 =>
    (match bitsOf w 10 2 with
     | 0 => if bitsOf w 12 1 = 1 then .illegal else .alui .srl r' r' (BitVec.ofNat 32 sh)
     | 1 => if bitsOf w 12 1 = 1 then .illegal else .alui .sra r' r' (BitVec.ofNat 32 sh)
     | 2 => .alui .and r' r' imm
     | _ =>
       let rs2 := 8 + bitsOf w 2 3
       if bitsOf w 12 1 = 1 then .illegal
       else match bitsOf w 5 2 with
         | 0 => .alu .sub r' r' rs2
         | 1 => .alu .xor r' r' rs2
         | 2 => .alu .or r' r' rs2
         | _ => .alu .and r' r' rs2)
  | 5 => .jal 0 ofsJ
  | 6 => .branch 0 r' 0 ofsB
  | _ => .branch 1 r' 0 ofsB

/-- Quadrant 2. -/
def decodeC2 (w : Nat) : Rv :=
  let rd := bitsOf w 7 5
  let rs2 := bitsOf w 2 5
  let ul := BitVec.ofNat 32 (4 * bitsOf w 4 3 + 32 * bitsOf w 12 1 + 64 * bitsOf w 2 2)
  let us := BitVec.ofNat 32 (4 * bitsOf w 9 4 + 64 * bitsOf w 7 2)
  match bitsOf w 13 3 with
  | 0 => if bitsOf w 12 1 = 1 then .illegal else .alui .sll rd rd (BitVec.ofNat 32 rs2)
  | 2 => if rd = 0 then .illegal else .load false rd 2 ul 4 true
  | 3 => .load true rd 2 ul 4 false
  | 4 =>
    if bitsOf w 12 1 = 0 then
      (if rs2 = 0 then (if rd = 0 then .illegal else .jalr 0 rd 0) else .alu .add rd 0 rs2)
    else if rs2 = 0 then (if rd = 0 then .ebreak else .jalr 1 rd 0)
    else .alu .add rd rd rs2
  | 6 => .store false rs2 2 us 4
  | 7 => .store true rs2 2 us 4
  | _ => .illegal

/-- A 16-bit parcel whose low bits are not 11. -/
def decode16 (w : Nat) : Rv :=
  match w % 4 with
  | 0 => decodeC0 w
  | 1 => decodeC1 w
  | _ => decodeC2 w

/-! Integer arithmetic. -/

/-- Leading zeros, counted over the `n` bits below bit `n`. -/
def clzFrom (a : Word) : Nat → Nat
  | 0 => 0
  | n + 1 => if a.getLsbD n then 0 else 1 + clzFrom a n

/-- Trailing zeros from bit `i` on, over `n` bits. -/
def ctzFrom (a : Word) : Nat → Nat → Nat
  | _, 0 => 0
  | i, n + 1 => if a.getLsbD i then 0 else 1 + ctzFrom a (i + 1) n

/-- Byte `i` of a word. -/
def wbyte (a : Word) (i : Nat) : Nat := a.toNat / 2 ^ (8 * i) % 256

def Alu.eval (op : Alu) (a b : Word) : Word :=
  let sh := b.toNat % 32
  match op with
  | .add => a + b
  | .sub => a - b
  | .sll => a <<< sh
  | .slt => BitVec.ofNat 32 (b2n (a.slt b))
  | .sltu => BitVec.ofNat 32 (b2n (a.ult b))
  | .xor => a ^^^ b
  | .srl => a >>> sh
  | .sra => a.sshiftRight sh
  | .or => a ||| b
  | .and => a &&& b
  | .mul => a * b
  | .mulh => BitVec.ofInt 32 (a.toInt * b.toInt / 2 ^ 32)
  | .mulhsu => BitVec.ofInt 32 (a.toInt * (b.toNat : Int) / 2 ^ 32)
  | .mulhu => BitVec.ofNat 32 (a.toNat * b.toNat / 2 ^ 32)
  | .div => if b = 0 then BitVec.allOnes 32 else a.sdiv b
  | .divu => if b = 0 then BitVec.allOnes 32 else a / b
  | .rem => if b = 0 then a else a.srem b
  | .remu => if b = 0 then a else a % b
  | .sh1add => b + (a <<< 1)
  | .sh2add => b + (a <<< 2)
  | .sh3add => b + (a <<< 3)
  | .andn => a &&& ~~~b
  | .orn => a ||| ~~~b
  | .xnor => ~~~(a ^^^ b)
  | .max => if a.slt b then b else a
  | .maxu => if a.ult b then b else a
  | .min => if a.slt b then a else b
  | .minu => if a.ult b then a else b
  | .rol => a.rotateLeft sh
  | .ror => a.rotateRight sh

def Una.eval (op : Una) (a : Word) : Word :=
  match op with
  | .clz => BitVec.ofNat 32 (clzFrom a 32)
  | .ctz => BitVec.ofNat 32 (ctzFrom a 0 32)
  | .cpop => BitVec.ofNat 32 (popCount 32 a.toNat)
  | .sextb => sext 8 a.toNat
  | .sexth => sext 16 a.toNat
  | .zexth => BitVec.ofNat 32 (a.toNat % 65536)
  | .orcb => BitVec.ofNat 32 (leNat ((List.range 4).map fun i => if wbyte a i = 0 then 0 else 255))
  | .rev8 => BitVec.ofNat 32 (leNat ((leBytes 4 a.toNat).reverse))

/-- The condition of a branch by funct3. -/
def branchTaken (cond : Nat) (a b : Word) : Bool :=
  match cond with
  | 0 => a == b
  | 1 => a != b
  | 4 => a.slt b
  | 5 => !a.slt b
  | 6 => a.ult b
  | _ => !a.ult b

/-! Floating point. -/

/-- The rounding mode in force: that of the instruction, or frm where it says 7; none when frm holds no mode. -/
def Core.rm (c : Core) (rm : Nat) : Option Nat :=
  let m := if rm = 7 then c.fcsr / 32 % 8 else rm
  if m < 5 then some m else none

def Fop.eval (op : Fop) (rm a b : Nat) : Nat × Nat :=
  match op with
  | .add => fAdd rm a b
  | .sub => fSub rm a b
  | .mul => fMul rm a b
  | .div => fDiv rm a b
  | .sqrt => fSqrt rm a
  | .sgnj => (a % 2 ^ 31 + b / 2 ^ 31 * 2 ^ 31, 0)
  | .sgnjn => (a % 2 ^ 31 + (1 - b / 2 ^ 31) * 2 ^ 31, 0)
  | .sgnjx => (a ^^^ (b / 2 ^ 31 * 2 ^ 31), 0)
  | .min => fMinMax false a b
  | .max => fMinMax true a b

def Fcmp.eval (op : Fcmp) (rm a b : Nat) : Nat × Nat :=
  match op with
  | .le => fLe a b
  | .lt => fLt a b
  | .eq => fEq a b
  | .cvtW => fToInt rm false a
  | .cvtWu => fToInt rm true a
  | .mvXW => (a, 0)
  | .fclass => (fClass a, 0)

/-- FMADD 0, FMSUB 1, FNMSUB 2, FNMADD 3. -/
def fmaEval (op rm a b c : Nat) : Nat × Nat :=
  match op with
  | 0 => fMulAdd rm a b c
  | 1 => fMulAdd rm a b (fNeg c)
  | 2 => fMulAdd rm (fNeg a) b c
  | _ => fMulAdd rm (fNeg a) b (fNeg c)

/-! Xdlp (R181 to R186). -/

/-- rnd(x, sh). -/
def rnd (x : Int) (sh : Nat) : Int := if sh = 0 then x else (x + 2 ^ (sh - 1)) / 2 ^ sh
/-- Clip to the signed range of `n` bits, and whether that changed the value. -/
def satS (n : Nat) (x : Int) : Int × Bool :=
  let y := max (-(2 ^ (n - 1) : Int)) (min (2 ^ (n - 1) - 1) x)
  (y, y != x)

/-- DLP_FLAGS.SAT and WOOB. -/
def Core.sat (c : Core) (b : Bool) : Core := if b then { c with dflags := setBit c.dflags 0 } else c
def Core.woob (c : Core) : Core := { c with dflags := setBit c.dflags 1 }

/-- Halves of a word, and the word of two halves. -/
def lo16 (a : Word) : Int := toSigned 16 a.toNat
def hi16 (a : Word) : Int := toSigned 16 (a.toNat / 65536)
def packHalves (lo hi : Int) : Word := BitVec.ofNat 32 (ofSigned 16 lo + 65536 * ofSigned 16 hi)

/-- A saturating operation on both halves. -/
def qHalves (g : Int → Int → Int) (a b : Word) : Word × Bool :=
  let (l, sl) := satS 16 (g (lo16 a) (lo16 b))
  let (h, sh) := satS 16 (g (hi16 a) (hi16 b))
  (packHalves l h, sl || sh)

def q32 (x : Int) : Word × Bool := (BitVec.ofInt 32 (satS 32 x).1, (satS 32 x).2)

def Qop.eval (op : Qop) (a b : Word) : Word × Bool :=
  match op with
  | .qadd => q32 (a.toInt + b.toInt)
  | .qsub => q32 (a.toInt - b.toInt)
  | .qmul => q32 (rnd (a.toInt * b.toInt) 31)
  | .qadd16 => qHalves (· + ·) a b
  | .qsub16 => qHalves (· - ·) a b
  | .qmul16 => qHalves (fun x y => rnd (x * y) 15) a b
  | .qabs => q32 (if a.toInt < 0 then -a.toInt else a.toInt)
  | .qneg => q32 (-a.toInt)

/-- The exact complex term of a CMAC family instruction; real part first. -/
def Cop.term (op : Cop) (a b : Word) : Int × Int :=
  let re := lo16 a
  let im := hi16 a
  let re' := lo16 b
  let im' := hi16 b
  let p := (re * re' - im * im', re * im' + im * re')
  let j := (re * re' + im * im', im * re' - re * im')
  match op with
  | .cmac => p
  | .cmacj => j
  | .cmsu => (-p.1, -p.2)
  | .cmsuj => (-j.1, -j.2)

def Core.getAcc (c : Core) (a : Nat) : Int × Int := c.acc.getD a (0, 0)

/-- An accumulation with sat48. -/
def Core.accum (c : Core) (op : Cop) (acc : Nat) (a b : Word) : Core :=
  let t := op.term a b
  let z := c.getAcc acc
  let (re, s1) := satS 48 (z.1 + t.1)
  let (im, s2) := satS 48 (z.2 + t.2)
  { c with acc := c.acc.set acc (re, im) }.sat (s1 || s2)

def Rop.eval (op : Rop) (z : Int × Int) (sh : Nat) : Word × Bool :=
  match op with
  | .ardre => q32 (rnd z.1 sh)
  | .ardim => q32 (rnd z.2 sh)
  | .apk16 =>
    let (l, s1) := satS 16 (rnd z.1 sh)
    let (h, s2) := satS 16 (rnd z.2 sh)
    (packHalves l h, s1 || s2)

/-- What a slab load does (R185, R186): none where it returns zero and sets WOOB, else its address. For LSP the address
is that of the word that holds the presence bit, of the two that make the 64-bit bitmap word. -/
def Core.slabEA (c : Core) (op : Lop) (rs1 : Nat) (imm : Word) : Option Word :=
  let v := (c.rx rs1).toNat
  let m := v / 65536
  let sl := v % 65536
  let members := c.wlim.toNat / 65536
  let slots := c.wlim.toNat % 65536
  let size := match op with
    | .lsh => 2
    | .lsw => 4
    | .lsp => 0
  if members ≤ m ∨ slots ≤ sl then none
  else match op with
    | .lsp =>
      some (c.win + c.wpres + BitVec.ofNat 32 (m * 8 * ((slots + 63) / 64) + 8 * (sl / 64) + 4 * (sl % 64 / 32)))
    | _ =>
      if imm.toInt < 0 ∨ (c.welem.toNat : Int) < imm.toInt + size then none
      else some (c.win + c.wdata + BitVec.ofNat 32 m * c.wstride + BitVec.ofNat 32 sl * c.welem + imm)

/-! CSRs (R170, R182). -/

/-- What the counters and the read-only Xdlp CSRs show. -/
structure CsrEnv where
  cycle : Nat
  budget : Nat
  beat : Nat
  tq : Nat
  slice : Nat
  deriving DecidableEq, Repr

/-- The value of a CSR that U mode may read; none where the access is illegal. -/
def Core.csrRead (c : Core) (e : CsrEnv) (n : Nat) : Option Word :=
  match n with
  | 0x001 => some (BitVec.ofNat 32 (c.fcsr % 32))
  | 0x002 => some (BitVec.ofNat 32 (c.fcsr / 32 % 8))
  | 0x003 => some (BitVec.ofNat 32 (c.fcsr % 256))
  | 0xC00 => some (BitVec.ofNat 32 e.cycle)
  | 0xC80 => some (BitVec.ofNat 32 (e.cycle / 2 ^ 32))
  | 0xC02 => some (BitVec.ofNat 32 c.instret)
  | 0xC82 => some (BitVec.ofNat 32 (c.instret / 2 ^ 32))
  | 0x800 => some c.win
  | 0x801 => some c.wpres
  | 0x802 => some c.wdata
  | 0x803 => some c.wstride
  | 0x804 => some c.welem
  | 0x805 => some c.wlim
  | 0x806 => some (BitVec.ofNat 32 c.dflags)
  | 0xCC0 => some (BitVec.ofNat 32 e.budget)
  | 0xCC1 => some (BitVec.ofNat 32 e.beat)
  | 0xCC2 => some (BitVec.ofNat 32 (e.beat / 2 ^ 32))
  | 0xCC3 => some (BitVec.ofNat 32 (e.tq % 8))
  | 0xCC4 => some (BitVec.ofNat 32 (e.slice % 256))
  | _ => none

/-- A write of a CSR; none for a read-only one. -/
def Core.csrWrite (c : Core) (n : Nat) (v : Word) : Option Core :=
  match n with
  | 0x001 => some { c with fcsr := c.fcsr / 32 * 32 + v.toNat % 32 }
  | 0x002 => some { c with fcsr := c.fcsr % 32 + v.toNat % 8 * 32 }
  | 0x003 => some { c with fcsr := v.toNat % 256 }
  | 0x800 => some { c with win := v &&& ~~~63#32 }
  | 0x801 => some { c with wpres := v }
  | 0x802 => some { c with wdata := v }
  | 0x803 => some { c with wstride := v }
  | 0x804 => some { c with welem := BitVec.ofNat 32 (v.toNat % 65536) }
  | 0x805 => some { c with wlim := v }
  | 0x806 => some { c with dflags := v.toNat % 4 }
  | _ => none

/-- A CSR instruction of `len` bytes (op 1 write, 2 set, 3 clear); none where it is illegal. CSRRS and CSRRC with rs1 = x0
or a zero immediate do not write. -/
def Core.csrOp (c : Core) (e : CsrEnv) (len op rd : Nat) (useImm : Bool) (rs1 n : Nat) : Option Core :=
  match c.csrRead e n with
  | none => none
  | some old =>
    let src := if useImm then BitVec.ofNat 32 rs1 else c.rx rs1
    if op ≠ 1 ∧ rs1 = 0 then some ((c.wx rd old).next len)
    else
      let v := if op = 1 then src else if op = 2 then old ||| src else old &&& ~~~src
      (c.csrWrite n v).map fun c => (c.wx rd old).next len

/-! Execution without memory. -/

/-- The effect of an instruction of `len` bytes that neither reaches memory, a CSR nor a service; none where it is
illegal. -/
def Core.compute (c : Core) (len : Nat) : Rv → Option Core
  | .alu op rd a b => some ((c.wx rd (op.eval (c.rx a) (c.rx b))).next len)
  | .alui op rd a imm => some ((c.wx rd (op.eval (c.rx a) imm)).next len)
  | .una op rd a => some ((c.wx rd (op.eval (c.rx a))).next len)
  | .lui rd imm => some ((c.wx rd imm).next len)
  | .auipc rd imm => some ((c.wx rd (c.pc + imm)).next len)
  | .jal rd ofs => some ((c.wx rd (c.pc + BitVec.ofNat 32 len)).goto (c.pc + ofs))
  | .jalr rd a imm => some ((c.wx rd (c.pc + BitVec.ofNat 32 len)).goto ((c.rx a + imm) &&& ~~~1#32))
  | .branch k a b ofs => some (if branchTaken k (c.rx a) (c.rx b) then c.goto (c.pc + ofs) else c.next len)
  | .fma op rd a b d rm =>
    (c.rm rm).map fun m =>
      let r := fmaEval op m (c.rf a).toNat (c.rf b).toNat (c.rf d).toNat
      ((c.wf rd (BitVec.ofNat 32 r.1)).fflags r.2).next len
  | .farith op rd a b rm =>
    (c.rm rm).map fun m =>
      let r := op.eval m (c.rf a).toNat (c.rf b).toNat
      ((c.wf rd (BitVec.ofNat 32 r.1)).fflags r.2).next len
  | .fcmp op rd a b rm =>
    (c.rm rm).map fun m =>
      let r := op.eval m (c.rf a).toNat (c.rf b).toNat
      ((c.wx rd (BitVec.ofNat 32 r.1)).fflags r.2).next len
  | .fcvtS u rd a rm =>
    (c.rm rm).map fun m =>
      let r := fOfInt m u (c.rx a).toNat
      ((c.wf rd (BitVec.ofNat 32 r.1)).fflags r.2).next len
  | .fmvWX rd a => some ((c.wf rd (c.rx a)).next len)
  | _ => none

/-- The effect of an Xdlp instruction other than a slab load; none for any other instruction. -/
def Core.xdlp (c : Core) (len : Nat) : Rv → Option Core
  | .q op rd a b =>
    let r := op.eval (c.rx a) (c.rx b)
    some (((c.wx rd r.1).sat r.2).next len)
  | .c op acc a b => some ((c.accum op acc (c.rx a) (c.rx b)).next len)
  | .aclr acc => some ({ c with acc := c.acc.set acc (0, 0) }.next len)
  | .r op rd acc sh =>
    let r := op.eval (c.getAcc acc) sh
    some (((c.wx rd r.1).sat r.2).next len)
  | _ => none

end Sys2Proof.Machine
end

