-- ==== Sys2Proof/Machine/State.lean ====
section
/-! DEFINITION. The state of the block: every register field, queue, buffer, counter, timer and pin the spec gives it,
as plain data, and the queue of waiting commands. -/

namespace Sys2Proof.Machine

/-- Reasons for which a command stops the block. -/
inductive Fault where
  /-- Raised by no meaning: the spec gives every command an effect. Safe: the block would stop. -/
  | noSuchUnit
  deriving DecidableEq, Repr

/-- Reasons for which a command is turned away. -/
inductive Refusal where
  /-- The arm of Dispatch.lean for a command without a meaning. Safe: the block stops. -/
  | notModelled (mnemonic : String)
  deriving DecidableEq, Repr

/-- One entry of the once-per-second limiter of R615: the event code and its key, the elapsed time at which it was
last raised, and the occurrences suppressed since. -/
structure RateEntry where
  code : Nat
  key : Nat
  last : Nat
  suppressed : Nat
  deriving DecidableEq, Repr

/-- The interrupt controller and the ledger engine (chapter 16), beyond their registers. -/
structure EvtSt where
  /-- Claimed sources with their priorities, top first (R477). -/
  stack : List (Nat × Nat)
  /-- The open ledger record and the elapsed time at which it opened (R487). -/
  openRec : Option (LedgerRec × Nat)
  /-- Records not yet in flash, oldest first (R488). -/
  buf : List LedgerRec
  /-- The newest programmed slots, for reading (R488). -/
  recent : Table LedgerRec
  /-- Records dropped since the last GAP record, and the SEQ that stood at the first drop (R489). -/
  dropped : Nat
  dropSeq : Nat
  /-- The clear in progress: LAST_SLOT and the low SEQ word of that slot (R495). -/
  clearReq : Option (Nat × Nat)
  clears : Nat
  /-- The limiter of R615. -/
  rate : List RateEntry
  /-- Queues that dropped since the last 0xF007 (R496). -/
  overload : Nat
  /-- A queue dropped in the present command. -/
  overNew : Bool
  deriving DecidableEq, Repr

/-- A slice command that has been started and not completed (R351, R354). -/
structure InProg where
  op : Nat
  cmdId : Nat
  quiet : Bool
  a0 : Nat
  a1 : Nat
  a2 : Nat
  body : List Byte
  at' : Nat
  deriving DecidableEq, Repr

/-- One slice beyond its window's registers (chapter 11). -/
structure SliceSt where
  /-- Staged completion entries and event records, oldest first (R361). -/
  cqStage : List Cqe
  evStage : List EventRec
  /-- Entries dropped since the last LOST entry (R362). -/
  lost : Nat
  /-- SEQ of the next event record (R483). -/
  evSeq : Nat
  /-- PHASE of the present pass through the completion queue and the event ring (R348). -/
  cqPhase : Bool
  evPhase : Bool
  /-- Command bucket in 1/1,000,000 of a command, and the elapsed time of its last refill (R350). -/
  bucket : Nat
  bucketAt : Nat
  /-- Entries fetched and not yet started, oldest first, and the ms in which fetching was last held (R350). -/
  fetched : List (List Byte)
  heldMs : Option Nat
  /-- FREEZE or THAW written, to take effect at the edge of this beat (R354, R616). -/
  freezeIn : Option Nat
  thawIn : Option Nat
  /-- The beat whose edge froze the slice (R356), and the elapsed time of that edge. -/
  freezeBeat : Nat
  freezeAt : Nat
  /-- Commands started and not completed. -/
  inProg : List InProg
  /-- A bind (PASID, TENANT_ID, CMD_RATE, DMA_RATE) or an unbind waits for the clearing of R344. -/
  clearing : Option (Option (Nat × Nat × Nat × Nat))
  /-- The SLICE_LTR value in force and the value written that the next edge takes (R364). -/
  ltrNow : Nat
  deriving DecidableEq, Repr

/-- A slice right after reset: nothing staged, phases 1, a full command bucket. -/
def SliceSt.init : SliceSt :=
  { cqStage := [], evStage := [], lost := 0, evSeq := 0, cqPhase := true, evPhase := true,
    bucket := 64000000, bucketAt := 0, fetched := [], heldMs := none, freezeIn := none, thawIn := none, freezeBeat := 0,
    freezeAt := 0, inProg := [], clearing := none,
    ltrNow := 0xFFFF0000 }

/-- The power states of the PCIe function (R365). -/
inductive FnState where
  | d0 | d3hot | d3cold | training
  deriving DecidableEq, Repr

/-- The host interface (chapter 11). -/
structure HostSt where
  slices : Table SliceSt
  fn : FnState
  pmeStatus : Bool
  wakeN : Bool
  /-- Wakes sent (R367 counts a wake once). -/
  wakes : Nat
  /-- SLICE_SIG of each slice as the image applied gives it (R540). -/
  sliceSigs : Table (List Byte)
  /-- MSI-X table words (vector × 4 + word) and pending bits (R340). -/
  msix : Table Nat
  pba : List Nat
  /-- The LTR value last sent (R364). -/
  ltrSent : Nat
  /-- PE_REFCLK present (R368). -/
  peRefclk : Bool
  perstN : Bool
  /-- The next slice in round-robin order for DMA (R350). -/
  rr : Nat
  deriving DecidableEq, Repr

/-- The outcome bits of one run beat (BEAT_RESULT, R30). -/
structure BeatRes where
  ovr : Nat
  standby : Bool
  emitted : Bool
  withheld : Bool
  ackLate : Bool
  uncopied : Bool
  unpaired : Bool
  isSealed : Bool
  cutLate : Bool
  tq : Nat
  deriving DecidableEq, Repr

def BeatRes.init : BeatRes := ⟨0, false, false, false, false, false, false, false, false, 0⟩

/-- The beat generator (chapter 1) beyond its registers. -/
structure BeatSt where
  /-- The number of the next edge (R16). -/
  next : Nat
  /-- The frequency adjustment in force, 32 bits; the next edge takes the one that BEAT_FREQ_ADJ holds (R29, R37). -/
  adjNow : Nat
  /-- Values that the next edge takes: quality request (R35), reseat offset (R40). -/
  reqPend : Option Nat
  reseatPend : Option Int
  /-- The quality that a reseat leads to, and whether its edges count as lost (R40, R41). -/
  reseatTgt : Nat
  reseatCounts : Bool
  /-- Elapsed time at which EN was written, the watchdog was restarted, and HOLDOVER began (R35). -/
  startAt : Nat
  syncAt : Nat
  holdAt : Nat
  /-- Timers that have expired since (R35). -/
  startDue : Bool
  syncDue : Bool
  holdDue : Bool
  /-- The present beat is a run beat, and its outcome so far. -/
  running : Bool
  res : BeatRes
  /-- Phase marks of the present beat (R23): dispatch open, deadline passed, delta closed, emit decision taken. -/
  dispatchOpen : Bool
  deadline : Bool
  deltaClosed : Bool
  decision : Option Bool
  /-- The egress gate as sampled for the next edge (R290), once it has been. -/
  gateOpen : Option Bool
  /-- The elapsed time at which PPS_OUT last rose (R43). -/
  ppsAt : Option Nat
  deriving DecidableEq, Repr

/-- A port beyond its registers (R59): when UP_PENDING, the present fault and HELD began, and the times of the downs
that count for flap damping. -/
structure PortSt where
  upAt : Nat
  faultAt : Option Nat
  heldAt : Nat
  downs : List Nat
  /-- The output frame in transmission with its transmit time in ns (R57, R273). -/
  tx : Option (OutFrame × Nat)
  deriving DecidableEq, Repr

def PortSt.init : PortSt := ⟨0, none, 0, [], none⟩

/-- A node entry of a redundancy pair (R61): its address, when it last sent, and its last 256 sequence numbers with
LAN (0 A, 1 B) and arrival time, newest first. -/
structure NodeEntry where
  mac : Nat
  lastAt : Nat
  seqs : List (Nat × Nat × Nat)
  deriving DecidableEq, Repr

/-- A redundancy pair beyond its registers: node table, transmit sequence number, whether 0x2004 has been raised since
FULL was last 0 (R64), the ring-forwarding duplicate table: source, sequence number, LAN of arrival, time (R66), and when
supervision frames last left (R61). -/
structure RedSt where
  nodes : List NodeEntry
  txSeq : Nat
  fullSeen : Bool
  ring : List (Nat × Nat × Nat × Nat)
  lifeAt : Nat
  deriving DecidableEq, Repr

def RedSt.init : RedSt := ⟨[], 0, false, [], 0⟩

/-- Ports, lanes and redundancy pairs (chapter 2). -/
structure PortsSt where
  ports : Table PortSt
  reds : Table RedSt
  /-- Lane groups whose reference clock is absent (R67). -/
  lrefAbsent : List Nat
  deriving DecidableEq, Repr

/-- A power domain beyond its registers (R504 to R506): since when its target has been lower, the state it is entering,
when its wake started and the tolerance then in force (ns, none unbounded), and the request a vault hold defers with
its source and time (R415). -/
structure DomSt where
  dwellAt : Option Nat
  entering : Option Nat
  wakeAt : Nat
  wakeTol : Option Nat
  deferred : Option (Nat × Nat)
  deriving DecidableEq, Repr

def DomSt.init : DomSt := ⟨none, none, 0, none, none⟩

/-- Power, temperature and energy (chapter 17) beyond the registers. -/
structure PwrSt where
  doms : Table DomSt
  /-- Both yardmaster cores wait in WFI and PD20 is gated by R507. -/
  wfi : Bool
  /-- The PCIe link is in L1 (R511). -/
  linkL1 : Bool
  /-- ALERT_N is asserted by the temperature warning (R512). -/
  thermAlert : Bool
  /-- Slice meters of the last beat (R515). -/
  smtr : Table (List Nat)
  /-- Device energy not yet counted as whole microjoules (PWR_CNT_UJ). -/
  njRest : Nat
  /-- Bytes passed to the check gate and GMAC span bits verified since the last latch (R516, R517). -/
  rxBytes : Nat
  gmacBits : Nat
  /-- Sum and number of temperature samples of the present hour (R606). -/
  tempSum : Int
  tempCnt : Nat
  deriving DecidableEq, Repr

/-- The yardmaster's inbound queues of frames, oldest first: port, arrival time and bytes (R496, R621). -/
structure YmSt where
  stray : List (Nat × Nat × List Byte)
  small : List (Nat × Nat × List Byte)
  ptp : List (Nat × Nat × List Byte)
  /-- Done events of queue sources 452 to 456 not yet taken (R476). -/
  done : List Nat
  deriving DecidableEq, Repr

/-- The replay state of a flow (R97); the timestamp in ns. -/
structure Replay where
  top : Nat
  bitmap : Nat
  lastTs : Nat
  active : Bool
  deriving DecidableEq, Repr

def Replay.empty : Replay := ⟨0, 0, 0, false⟩

/-- One entry of the flow table (R78, R79): its bytes (missing ones zero), replay state, the counters of READ_STATS
(accepted, then TAG, REPLAY, TS, KEY, OTHER, CAP_DROP, QUAR, TS_UNCHECKED), when its previous key was replaced (R93),
when a frame was last accepted (R83), and whether its samples were last unsynchronised (event 0x500B). -/
structure FlowEnt where
  e : List Byte
  rep : Replay
  cnt : List Nat
  graceAt : Nat
  lastAt : Nat
  unsync : Option Bool
  deriving DecidableEq, Repr

def FlowEnt.empty : FlowEnt := ⟨[], Replay.empty, [0, 0, 0, 0, 0, 0, 0, 0, 0], 0, 0, none⟩

/-- One entry of the key cache (R89), with its material, which no register shows, and what the vault keeps of it (R400):
ORIGIN, MOBILITY, fingerprint and FLAGS.PLATFORM. -/
structure KeyEnt where
  keyId : Nat
  alg : Nat
  st : Nat
  usage : Nat
  notBefore : Nat
  notAfter : Nat
  count : Nat
  material : List Byte
  origin : Nat
  mobility : Nat
  fp : List Byte
  platform : Bool
  deriving DecidableEq, Repr

def KeyEnt.empty : KeyEnt := ⟨0, 0, 0, 0, 0, 0, 0, [], 0, 0, [], false⟩

/-- A frame between stages 5 and 6, with the entry as it stood at stage 1 (R103) and the key that stage 4 selected. -/
structure Inflight where
  seq : Nat
  fr : RxFrame
  flow : Nat
  entry : List Byte
  sec : Sec
  key : Nat
  material : List Byte
  deriving DecidableEq, Repr

/-- One verification engine (R86, R87): the work in service with its priority, and the two queues, oldest first, in
units of 3.125 ps. -/
structure Engine where
  cur : Option (Bool × Nat)
  prio : List Nat
  other : List Nat
  deriving DecidableEq, Repr

def Engine.idle : Engine := ⟨none, [], []⟩

/-- What a change to a flow entry does (R103). -/
inductive FlowOp where
  | invalidate
  | resetReplay
  | setQuar
  | clearQuar
  | setNext (key : Nat) (valid : Bool)
  | install (e : List Byte)
  deriving DecidableEq, Repr

/-- Who waits for the change: the access register, a slice command, or nobody. -/
inductive FlowBy where
  | facc
  | slice (n cmdId : Nat) (quiet : Bool)
  | hw
  deriving DecidableEq, Repr

/-- A change that waits for the frames classified before it (R103). -/
structure FlowChange where
  seq : Nat
  flow : Nat
  op : FlowOp
  by' : FlowBy
  deriving DecidableEq, Repr

/-- A slice MAC job (R99, R101): descriptor bytes, when it was accepted, and whether it is in service. -/
structure MacJob where
  slice : Nat
  cmdId : Nat
  quiet : Bool
  body : List Byte
  at' : Nat
  started : Bool
  deriving DecidableEq, Repr

/-- The check gate (chapter 3). -/
structure GateSt where
  flows : Table FlowEnt
  keys : Table KeyEnt
  inflight : List Inflight
  seq : Nat
  gmac : Engine
  hmac : Engine
  /-- Elapsed time to which the engines have been run. -/
  engAt : Nat
  /-- Strays since the last selected one (R621). -/
  strays : Nat
  /-- Tokens in 10^-9 of a token with the time of the last refill; none full (R622). -/
  strayTok : Option (Nat × Nat)
  ptpTok : Option (Nat × Nat)
  otherTok : Option (Nat × Nat)
  changes : List FlowChange
  jobs : List MacJob
  /-- The slice whose job was last taken into service (R101); 255 before any. -/
  jobRr : Nat
  /-- The fixed field of MAC job IVs, drawn from the nonce DRBG (R100). -/
  macFixed : Nat
  /-- Templates whose KEY_NEXT is still to reach their instances (R83). -/
  propagate : List Nat
  deriving DecidableEq, Repr

/-- A member index of a flow group (R109, R110): the edges that must pass before a removed one is free. -/
structure Member where
  idx : Nat
  flow : Nat
  removed : Option Nat
  deriving DecidableEq, Repr

/-- A slab that exists: its window, and whether it has been closed by the cut settle. -/
structure Win where
  k : Nat
  closed : Bool
  deriving DecidableEq, Repr

/-- A flow group (R107): its entry, the counters of READ_STATS (PLACED, LATE, FUTURE, FORMAT, NO_MEMBER, CONFLICT,
LOST_WINDOWS), its members, its slabs, and whether the next slab carries REPLACED. -/
structure GroupEnt where
  e : List Byte
  cnt : List Nat
  members : List Member
  wins : List Win
  replaced : Bool
  deriving DecidableEq, Repr

def GroupEnt.empty : GroupEnt := ⟨[], [0, 0, 0, 0, 0, 0, 0], [], [], false⟩

/-- An accepted frame handed to the yard: the flow, its entry, the position, the beat in which stage 6 completed with its
quality, whether its times were unchecked, whether the yard was enabled then (R133), the member index that the flow had or was
given (R109), and the windows in which its placement has been abandoned (R120). -/
structure Handover where
  fr : RxFrame
  flow : Nat
  entry : List Byte
  beat : Nat
  tq : Nat
  unchecked : Bool
  on : Bool
  member : Option Nat
  gone : List Nat
  deriving DecidableEq, Repr

/-- The marshalling yard (chapter 4): groups, SRAM, frames not yet placed, the spare-bank map, spare takeovers in
progress (logical bank, spare, complete), retired banks and banks retired since the last edge. -/
structure YardSt where
  groups : Table GroupEnt
  mem : Memory
  queue : List Handover
  bankMap : Table Nat
  taking : List (Nat × Nat × Bool)
  retired : List Nat
  retiring : List Nat
  /-- MEMBER records of the present beat: op, group, flow, index, beat (R285). -/
  recs : List (Nat × Nat × Nat × Nat × Nat)
  /-- Tags of the 64-byte granules of yard SRAM (R371). -/
  tags : TagMap
  /-- The yard epoch table (R331): YFLOW and EPOCH, updated last first. -/
  epochs : List (Nat × Nat)
  deriving DecidableEq, Repr

/-- A ring segment (R144): its header fields and its entries as stored, oldest first; SEQ 0 marks it invalid. -/
structure Segment where
  seq : Nat
  hdr : List Byte
  ents : List (List Byte)
  used : Nat
  tFirst : Nat
  tLast : Nat
  beatFirst : Nat
  closed : Bool
  pins : Nat
  retired : Bool
  deriving DecidableEq, Repr

def Segment.none : Segment := ⟨0, [], [], 64, 0, 0, 0, false, 0, false⟩

/-- A freeze slot (R150, R151) with its spans in µs, the segments it pins, and the segment open at the trigger. -/
structure FrzSlot where
  st : Nat
  flags : Nat
  slice : Nat
  source : Nat
  reason : Nat
  tTrig : Nat
  bTrig : Nat
  pre : Nat
  post : Nat
  segs : List Nat
  openAt : Option Nat
  deriving DecidableEq, Repr

def FrzSlot.free : FrzSlot := ⟨0, 0, 0, 0, 0, 0, 0, 0, 0, [], none⟩

/-- An export that runs or waits (R152, R155); `cmd` is none for the yardmaster's. -/
structure ExpReq where
  slot : Nat
  scope : Nat
  slice : Nat
  addr : Nat
  len : Nat
  man : Nat
  start : Nat
  cmd : Option (Nat × Bool)
  at' : Nat
  deriving DecidableEq, Repr

/-- The Loft (chapter 5): record buffer (entries with the beat of their stage 6), drops not yet marked by a GAP entry
(count, first and last arrival), segments, open segment, freeze slots, exports, slice history and its colour tags (R371),
the moved history megabytes (R161), the halves that run (R164), whether its content is of an earlier enable, and whether a
start is in progress. -/
structure LoftSt where
  buf : List (Nat × List Byte)
  bufBytes : Nat
  gap : Option (Nat × Nat × Nat)
  segs : Table Segment
  openSeg : Option Nat
  slots : Table FrzSlot
  exports : List ExpReq
  hist : Memory
  tags : TagMap
  moved : Table Nat
  halves : Nat
  kept : Bool
  untrained : Bool
  tested : Nat
  passAt : Nat
  deriving DecidableEq, Repr

/-- A store in a store buffer (R178). -/
structure SbEnt where
  addr : Word
  size : Nat
  data : Nat
  deriving DecidableEq, Repr

/-- A load whose data has not returned (R176): its destination, address, size, how it extends, the bit that LSP picks,
whether the guard granted it, and the bytes of the load instruction, behind which the item goes on when the data is there. -/
structure PendLoad where
  fp : Bool
  rd : Nat
  addr : Word
  size : Nat
  signed : Bool
  bit : Option Nat
  granted : Bool
  len : Nat
  deriving DecidableEq, Repr

/-- An item (R213): its descriptor, its table entry (none for a submitted one), its order of creation, how often it was
carried, its tier (1 to 5, R228; for a TRIP item from the plan on), the window of its primary slab and whether that was
discarded, whether CAP ever held it, and after its hand-over its stall number, the elapsed time of the hand-over and the
flow's epoch there. -/
structure Item where
  d : List Byte
  entry : Option Nat
  seq : Nat
  carried : Nat
  tier : Nat
  window : Option Nat
  noSlab : Bool
  capHeld : Bool
  stall : Option Nat
  handAt : Nat
  epoch : Nat
  deriving DecidableEq, Repr

/-- A stall (chapter 6), by physical number: its core, its local memory with tags, its store buffer and pending load, the
item in service, the slice of the item before and whether the memory was OFF since, the guard's active set with its slice
(R376), the instruction cache's lines, whether the present access or drain waits for a memory to wake, traps taken by the
item (R192), the item's report record (R383), the beats of its resets under R198, the beat of its last hand-over, mstatus
(R187, R192), the ending of a DONE or FAIL service that was entered and waits for the buffer (R194), and whether the entry of
the item waits for the local memory to wake (R203). -/
structure Stall where
  core : Core
  mem : Memory
  tags : TagMap
  sb : List SbEnt
  load : Option PendLoad
  item : Option Item
  lastSlice : Option Nat
  wasOff : Bool
  setSlice : Option Nat
  regions : List (List Byte)
  icache : Table (List Byte)
  waiting : Bool
  drainWaits : Bool
  traps : Nat
  report : Option Nat
  resets : List Nat
  handBeat : Nat
  mstatus : Nat
  ending : Option Nat
  entering : Bool
  deriving DecidableEq, Repr

def Stall.init : Stall :=
  { core := Core.zero, mem := [], tags := [], sb := [], load := none, item := none, lastSlice := none, wasOff := true,
    setSlice := none, regions := [], icache := [], waiting := false, drainWaits := false, traps := 0, report := none,
    resets := [], handBeat := 0, mstatus := 0x200000, ending := none, entering := false }

/-- A physical shed: its memory with tags, the code cache's lines, the holders of its semaphores, banks and stall
memories waking, the beat of the last access to each bank, and the releases that a later command of the same cycle brings, as
(semaphore, local stall or 32 for SHED_SEM_FORCE, clk) (R201). -/
structure Shed where
  mem : Memory
  tags : TagMap
  ccache : Table (List Byte)
  holders : Table Nat
  waking : List Nat
  stallWaking : List Nat
  bankBeat : Table Nat
  early : List (Nat × Nat × Nat)
  deriving DecidableEq, Repr

def Shed.init : Shed := ⟨[], [], [], [], [], [], [], []⟩

/-- The compute pool (chapter 6): stalls by 16 × physical shed + local stall, sheds, and the spare sheds that are to take
over, as (failing shed, spare), or the sheds that are to be retired without one, the spare then being 68. -/
structure PoolSt where
  stalls : Table Stall
  sheds : Table Shed
  takeovers : List (Nat × Nat)
  /-- Sheds one of whose banks failed: their pages cannot be moved (R240). -/
  bankBad : List Nat
  /-- Slices whose code-cache invalidation waits for the next edge (R173). -/
  invalidate : Bool
  deriving DecidableEq, Repr

/-- A report record of the guards (R383). -/
structure GuardRep where
  id : Nat
  beat : Nat
  addr : Nat
  master : Nat
  slice : Nat
  cause : Nat
  flow : Nat
  access : Nat
  tag : Nat
  key : Nat
  rep : Nat
  epoch : Nat
  hits : Nat
  deriving DecidableEq, Repr

/-- The guards (chapter 12): the slice region table by 16 × slice + region, queued reports oldest first, the next record's
number, and the actions that the next edge takes: slice, beat of the refusal, and the offending flow if any (R384). -/
structure GuardSt where
  regions : Table (List Byte)
  reports : List GuardRep
  nextId : Nat
  acts : List (Nat × Nat × Option Nat)
  deriving DecidableEq, Repr

/-- A flow record (R217). -/
structure FlowRec where
  epoch : Nat
  len : Nat
  home : Nat
  pageValid : Bool
  movePending : Bool
  stateLost : Bool
  inService : Bool
  pos : Nat
  lastStall : Option Nat
  ofs : Nat
  deriving DecidableEq, Repr

def FlowRec.empty : FlowRec := ⟨0, 0, 0, false, false, false, false, 0, none, 0⟩

/-- A page move (R236, R237): flow, destination position and offset, and whether its copy is under way in this beat. -/
structure PageMove where
  flow : Nat
  dest : Nat
  ofs : Nat
  copied : Bool
  deriving DecidableEq, Repr

/-- What the plan and its charging keep for one slice in a run beat (R225, R231), in stall cycles: TRIP capacity that its
funded TRIP items may still commit, own non-TRIP allocation left, slack used, non-TRIP cycles committed (R223), unfunded
TRIP demand, and the figures of the plan for the statistics: used, own TRIP, borrowed from slack and from lenders, and
lent by RECORD, MEASURE, CONTROL. -/
structure SlicePlan where
  tripLeft : Int
  ownLeft : Int
  slackUsed : Int
  committed : Int
  short : Nat
  used : Nat
  ownTrip : Nat
  bSlack : Nat
  bLent : Nat
  lent : List Nat
  deriving DecidableEq, Repr

def SlicePlan.zero : SlicePlan := ⟨0, 0, 0, 0, 0, 0, 0, 0, 0, [0, 0, 0]⟩

/-- A slice's statistics: 0 to 7 of the last completed run beat, 8 to 15 totals (R247). -/
abbrev SliceStat := List Nat

/-- A result record waiting for the edge (R233): its slice and its bytes, FLAGS.WITHHELD still open, with the epoch and
beat it names inside. -/
structure ResultRec where
  slice : Nat
  bytes : List Byte
  deriving DecidableEq, Repr

/-- The Groom (chapter 7). -/
structure GroomSt where
  /-- Item table, and writes to runtime entries that the next edge applies, with the command that waits (R210, R351). -/
  items : Table (List Byte)
  writes : List (Nat × List Byte × Nat × Nat × Bool)
  flows : Table FlowRec
  /-- Ready, carried and held items, and submitted ones, in order of creation; the next order number. -/
  ready : List Item
  nextSeq : Nat
  results : List ResultRec
  /-- The plan in force: per slice, slack_left, rr_ptr of the five tiers, and whether a TRIP item ended OVERRUN. -/
  plan : Table SlicePlan
  slackLeft : Int
  rr : List Nat
  tripOver : Bool
  stats : Table SliceStat
  blog : Table (List Byte)
  moves : List PageMove
  /-- Flows whose page was lost and waits for room (R240). -/
  lost : List Nat
  /-- Charged totals of the last 16 run beats, newest first, and of the present one; beats for which each quadrant has
  been needed in neither forecast. -/
  charged : List Nat
  chargedNow : Nat
  idleBeats : List Nat
  /-- Stalls that waked in the run beat and joined the pool (R244). -/
  planAvail : List Nat
  /-- The borrowings of the last second, per borrower: when, from slack, from lenders (R248). -/
  owed : Table (List (Nat × Nat × Nat))
  /-- n_svc at the last edge (R241). -/
  lastSvc : Nat
  /-- A forecast miss was counted for the present beat (R225, R244). -/
  missed : Bool
  /-- WEIGHT + 256 × CAP of each slice as the last plan took them (R223). -/
  cfg : Table Nat
  deriving DecidableEq, Repr

/-- An output record in the store (R249, R252): the item that queued it, its slice, class, flow, epoch and run beat, its
bytes, and whether it stands in the common pool. -/
structure OutRec where
  item : Nat
  slice : Nat
  cls : Nat
  flow : Nat
  epoch : Nat
  beat : Nat
  bytes : List Byte
  pooled : Bool
  deriving DecidableEq, Repr

/-- A frame of the egress tag engine (R261 to R268): publication, class, run beat of its record, repetition number (0 for
none), the record, numbers SEQ_A and SEQ_B, GOOSE state time with its quality and timeAllowedtoLive in ms, whether it is
reported and timestamped, its state (0 not built, 1 built, 3 KEY_FAIL, 6 LEN), IV and bytes, and whether it is released. -/
structure SFrame where
  pub : Nat
  cls : Nat
  beat : Nat
  rep : Nat
  bytes : List Byte
  seqA : Nat
  seqB : Nat
  t : Nat
  tq : Nat
  ttl : Nat
  report : Bool
  ts : Bool
  st : Nat
  iv : List Byte
  frame : List Byte
  released : Bool
  deriving DecidableEq, Repr

/-- A GOOSE state under repetition (R269 to R271): the frame of the state, the elapsed device time at which the next
repetition is due, its number, and the interval that follows it, in ns. -/
structure Repeat where
  frame : SFrame
  due : Nat
  k : Nat
  interval : Nat
  deriving DecidableEq, Repr

/-- Seal and emission (chapter 8): publications, templates, the records of the open run beat and the frames of beats not
yet gone, provisional publications of the sealed beat, delta inputs of the present beat (granules marked, epochs raised with 2^32 added where the state was lost,
publications changed), running repetitions, and the fate of the sealed beat's delta: sent, over budget, acknowledgement
status. -/
structure SealSt where
  pubs : Table (List Byte)
  prov : Table (List Byte)
  tpl : Memory
  store : List OutRec
  sealedRecs : List OutRec
  frames : List SFrame
  marks : List (Nat × Nat)
  epochs : List (Nat × Nat)
  changed : List Nat
  reps : Table Repeat
  /-- Publications whose repetition waits for the edge of its own cycle (R273). -/
  repWait : List Nat
  oversize : Bool
  endSent : Bool
  ack : Option Nat
  deriving DecidableEq, Repr

/-- One thing that a resync pass has still to send (R302): a record, or `len` bytes of a page. -/
inductive RsItem where
  | record (bs : List Byte)
  | page (flow ofs len : Nat)
  deriving DecidableEq, Repr

/-- A resync pass under way (R302, R304): what is left, bytes and records sent, the first beat, bytes sent in the present
beat, the records of trailing deltas that go first, and whether RS_END has been sent and the sync point offered. -/
structure RsTx where
  queue : List RsItem
  trail : List (List Byte)
  bytes : Nat
  count : Nat
  start : Nat
  inBeat : Nat
  ended : Bool
  offered : Bool
  deriving DecidableEq, Repr

/-- The pair link and the interlock (chapter 9) beyond the registers. -/
structure PairSt where
  /-- The level of PAIR_ROLE (strap B), and PAIR_SIG of the running image. -/
  strapB : Bool
  sig : List Byte
  /-- SEQ of the last frame received; elapsed times of the last frames received and sent, and of the last HELLO. -/
  rxSeq : Option Nat
  lastRx : Nat
  lastTx : Nat
  helloAt : Nat
  /-- When LISTEN was entered or a HELLO last arrived, and whether ACT_IN_N has moved since (R313). -/
  listenAt : Nat
  listenMoved : Bool
  /-- The partner is lost, by this cause. -/
  lost : Option Nat
  /-- The partner's state, strap and signature as last received. -/
  pState : Option Nat
  pStrap : Option Nat
  strapOk : Bool
  /-- ACT_OUT_N as driven (none released), ACT_IN_N, the device time of its last transition, and beats without one. -/
  actOut : Option Bool
  actIn : Bool
  actInAt : Option Nat
  quiet : Nat
  /-- In the present beat: the state at the cut-off, a toggle made with a good readback, a readback mismatch, a transition
  on ACT_IN_N inside the window of R290; the toggle that a PROMOTING device refrained from. -/
  stateAtC : Nat
  toggled : Bool
  rbBad : Bool
  inWindow : Bool
  refrained : Bool
  /-- It entered PROMOTING at or after the run deadline of the present beat, which then emits nothing (R298, R299). -/
  promoLate : Bool
  /-- The device becomes SOLO at the cut-off of this beat (R300). -/
  soloAt : Option Nat
  /-- Dispatch of a re-run opens at this elapsed time (R298). -/
  openAt : Nat
  /-- Delta frames received: beat, payload so far, first failing status; the acknowledged delta with its beat; PUBSTATE
  records that wait for OUTCOME, with their beat. -/
  rx : Option (Nat × List Byte × Nat)
  staged : Option (Nat × List (List Byte))
  pubWait : Option (Nat × List (List Byte))
  /-- A status that a discarded frame leaves for the delta in progress. -/
  rxBad : Nat
  /-- The delta of the beat carried HANDOVER, and its acknowledgement was OK; as standby, the acknowledged one did; across
  grids, the elapsed time of that acknowledgement. -/
  hoSent : Bool
  hoOk : Bool
  hoRx : Bool
  hoAckAt : Nat
  /-- The edge at which a cold handover takes effect. -/
  coldAt : Option Nat
  /-- Own readback failed with a HOT partner: a handover is wanted (R300). -/
  hoWant : Bool
  /-- Elapsed time at which the last byte of END left (R286). -/
  endAt : Nat
  resync : Option RsTx
  /-- A RESTORE asks for a resync pass whatever the partner's SYNC (R359). -/
  rsWant : Bool
  /-- A received pass: records so far, and whether it is whole; its end has come; its bytes and first beat. -/
  rsRx : Option (Nat × Bool)
  rsBeat : Nat
  rsDone : Bool
  rsBytes : Nat
  rsStart : Nat
  /-- Slices that the former active device held frozen (R355), as bits. -/
  heldMask : Nat
  /-- Heartbeats beyond the skew bound in a row (R291); consecutive digest mismatches by group, and those of the beat. -/
  skewRun : Nat
  digRun : Table Nat
  digMiss : Nat
  /-- Next stall number to probe, stalls that answered wrong once with the beat, probes run and a failure in the beat (R305). -/
  probeNext : Nat
  probeBad : List (Nat × Nat)
  probesDone : Nat
  probeFail : Bool
  mtestErr : Bool
  /-- The last SLICES mask sent (R296). -/
  sentMask : Option Nat
  /-- The driver test holds ACT_OUT_N at the opposite level (R306). -/
  testing : Bool
  deriving DecidableEq, Repr

def PairSt.init : PairSt :=
  { strapB := false, sig := List.replicate 48 0, rxSeq := none, lastRx := 0, lastTx := 0, helloAt := 0, listenAt := 0,
    listenMoved := false, lost := none, pState := none, pStrap := none, strapOk := false, actOut := none, actIn := true,
    actInAt := none, quiet := 0, stateAtC := 0, toggled := false, rbBad := false, inWindow := false, refrained := false, promoLate := false,
    soloAt := none, openAt := 0, rx := none, staged := none, pubWait := none, rxBad := 0, hoSent := false, hoOk := false,
    hoRx := false, hoAckAt := 0, coldAt := none, hoWant := false, endAt := 0, resync := none, rsWant := false, rsRx := none, rsBeat := 0, rsDone := false,
    rsBytes := 0, rsStart := 0, heldMask := 0, probesDone := 0,
    skewRun := 0, digRun := [], digMiss := 0, probeNext := 0, probeBad := [], probeFail := false, mtestErr := false,
    sentMask := none, testing := false }

/-- A Tudel link beyond its registers (R334, R337): elapsed times at which its state was entered, a frame last arrived and
a HELLO last left, and HELLOs beyond the skew bound in a row. -/
structure TLink where
  since : Nat
  rxAt : Nat
  helloAt : Nat
  skewRun : Nat
  deriving DecidableEq, Repr

def TLink.init : TLink := { since := 0, rxAt := 0, helloAt := 0, skewRun := 0 }

/-- The Tudel block (chapter 10): its forwarding table of 16-byte entries (R325) and its links. -/
structure TudelSt where
  fwd : Table (List Byte)
  links : Table TLink
  deriving DecidableEq, Repr

/-- Memory test, repair and age (chapter 21): corrected errors of the present pass by word, defective words not yet
repaired, spare rows used and volatile ones by unit (R609, R610), the elapsed time at which the pass began, at the last
hour (R606) and at the last age record (R607), age in units of 1/256 h below one hour, service positions as repair records
amend them (R168). -/
structure MtestSt where
  ce : Table Nat
  found : List (MemUnit × Nat)
  rows : List (MemUnit × Nat)
  volatileRows : List (MemUnit × Nat)
  passAt : Nat
  hourAt : Nat
  logAt : Nat
  ageAcc : Nat
  pos : Table Nat
  deriving DecidableEq, Repr

/-- Who asked for a vault command (R403): the yardmaster, a slice's KEY_LOAD, or an envelope (R440). -/
inductive VBy where
  | ym
  | slice (n cmdId : Nat) (quiet : Bool)
  | dc
  deriving DecidableEq, Repr

/-- A vault command (R402): its 64-byte block, and the elapsed time at which it started with PD17 ON. -/
structure VCmd where
  by' : VBy
  op : Nat
  block : List Byte
  startAt : Option Nat
  deriving DecidableEq, Repr

/-- A persistent slot as vault SRAM holds it (R391): its record, none when EMPTY, or UNUSABLE. -/
structure SlotSt where
  rec' : List Byte
  bad : Bool
  deriving DecidableEq, Repr

/-- A DRBG instance (R413): instantiated, requests since its last reseed, whether the next request reseeds first, and the bits that
its last instantiation or reseed took (R408). -/
structure Drbg where
  ready : Bool
  count : Nat
  fresh : Bool
  seed : Nat
  deriving DecidableEq, Repr

/-- A noise source (R407, R410): its shift register, raw bits since the last conditioned one, conditioned bits of the present
window (newest first), the last raw bit and its run, the window's first bit, position and count, when it was removed, and the
conditioned bits of passed windows that are not yet gathered (R408, oldest first). -/
structure Noise where
  sreg : Nat
  sub : Nat
  cond : List Bool
  last : Option Bool
  run : Nat
  first : Bool
  pos : Nat
  cnt : Nat
  removedAt : Option Nat
  got : List Bool
  deriving DecidableEq, Repr

def Noise.init : Noise := ⟨0, 0, [], none, 0, false, 0, 0, none, []⟩

/-- A public-key job (R425): its slice (none for the platform), descriptor and time of acceptance. -/
structure PkJob where
  slice : Option Nat
  cmdId : Nat
  desc : List Byte
  at' : Nat
  deriving DecidableEq, Repr

/-- A public-key engine: the job in service with the elapsed time of its start, jobs ended, and the number of the last one
that ended SIG_FAULT (R434). -/
structure PkEng where
  run : Option (PkJob × Nat)
  jobs : Nat
  fault : Option Nat
  deriving DecidableEq, Repr

def PkEng.idle : PkEng := ⟨none, 0, none⟩

/-- A pending setting change (R443): its beat, item entry and ARGS. -/
structure TripChange where
  beat : Nat
  entry : Nat
  args : List Byte
  deriving DecidableEq, Repr

/-- The vault (chapters 13 and 14) beyond its registers: OTP root key copies, check value and certificate digest; the voted
root key while it is good; persistent slots; commands waiting and the one in service, with the last source served (256 is
the yardmaster); the table of R401; DRBG instances; noise sources; when each held domain's hold began; the elapsed time
at which the vault timer started; open challenges with their draw time; custodians; the envelope submitted (address, bytes, host, elapsed time), and its bytes while a life-cycle transition waits; pending setting
changes; public-key jobs waiting, the last queue served, and the engines. -/
structure VaultSt where
  otpRoot : List (List Byte)
  otpKcv : Nat
  otpCert : List Byte
  root : Option (List Byte)
  slots : Table SlotSt
  queue : List VCmd
  cur : Option VCmd
  last : Nat
  gen : List (List Byte × Nat)
  drbg : Table Drbg
  noise : Table Noise
  /-- The source whose turn it is, and the conditioned bits gathered, oldest first (R408). -/
  turn : Nat
  pool : List Bool
  holdAt : Table (Option Nat)
  timerAt : Option Nat
  chals : List (List Byte × Nat)
  cust : Table (List Byte)
  envelope : Option (Nat × Nat × Bool × Nat)
  submitted : List Byte
  trips : List TripChange
  jobs : List PkJob
  pkLast : Nat
  engines : Table PkEng
  deriving DecidableEq, Repr

/-- One-time-programmable memory: the life-cycle copies (R448), the digests that are set, by target (1 BENCH, 2 FIELD, 3 RETURN,
4 SCRAP, 5 owner debug, 6 vendor debug), the vendor firmware key digest (R537), cell losses (R468), and the image and
firmware floors (R548). -/
structure OtpSt where
  copies : List Nat
  digests : Table (List Byte)
  fwKey : List Byte
  era : Nat
  floor : Nat
  fwFloor : Nat
  deriving DecidableEq, Repr

/-- Life-cycle, debug and tamper (chapter 15) beyond the registers: the transition under way (target, and whether an envelope
waits for it); when SCRAP took effect; the debug grant (elapsed time of its acceptance, seconds), the open debug challenge; the
TAP's instruction, its boundary register and the instruction that drives pins from it; occurrences of each source since its
last trigger (newest first), LOGGED bits, the backup canary, MTC at an elapsed time; main power present; REFCLK_SYS lost. -/
structure LifeSt where
  trans : Option (Nat × Bool)
  scrapAt : Option Nat
  grant : Option (Nat × Nat)
  chal : Option (List Byte)
  ir : Nat
  bsr : Nat
  hist : Table (List Nat)
  logged : Nat
  canary : Nat
  mtcBase : Nat
  mtcAt : Nat
  mainOn : Bool
  refclkLost : Bool
  deriving DecidableEq, Repr

/-- The running image: its slot, header (R531) and firmware floor (R537). -/
structure ImgSt where
  slot : Nat
  hdr : List Byte
  fwFloor : Nat
  deriving DecidableEq, Repr

/-- Start-up (chapter 18) beyond the registers: the level of BOOT_MODE, the reset asserted (true: power-on), POR_N and WRST_N; the elapsed time of the
last release; the boot record in force (R529, none empty); the slots still to be tried at this start, and whether they are first to be
accepted under their own custodians (R541); the first choice of this start; the running image; the elapsed time at which the
device became operational; the servo block (R535); the image command in progress (operation, slot, source, offset, length). -/
structure BootSt where
  mode : Nat
  porN : Bool
  wrstN : Bool
  inReset : Option Bool
  relAt : Nat
  record : List Byte
  cands : List (Nat × Bool)
  first : Nat
  img : Option ImgSt
  opAt : Option Nat
  servo : List Byte
  cmd : Option (Nat × Nat × Nat × Nat × Nat)
  deriving DecidableEq, Repr

/-- The state of the block. -/
structure State where
  /-- Register fields by key; an unlisted field holds its reset value. -/
  fields : Table Nat
  /-- XOR patterns of the copies of TMR fields that disagree, by key: copies 0, 1 and 2 (R564). -/
  tmr : Table (Nat × Nat × Nat)
  /-- XOR patterns between the inverted shadow of an INV field and its primary copy, by key (R469). -/
  inv : Table Nat
  /-- High-word shadows of RLH registers, by offset × 4 + master (R562). -/
  shadows : Table Nat
  /-- Elapsed time since power-on: whole nanoseconds of REFCLK_SYS, and eighths of one beyond them, of which a 1.6 GHz
  datapath cycle has five (R17). -/
  clk : Nat
  frac : Nat
  /-- Device time in units of 1/(2048 × 10^9) ns (R36, R37). -/
  dev : Nat
  /-- The next free value to use. -/
  free : Nat
  /-- What the block has sent outside, newest first. -/
  out : List Output
  /-- Events raised by the present command, not yet ordered and delivered (R474). -/
  evq : List Ev
  /-- The data the last register read returned. -/
  rdata : Nat
  /-- The image flash, whose unlisted bytes are erased (0xFF), and whether it is fitted (R552, R590). -/
  flash : Memory
  flashOk : Bool
  /-- DEVICE_ID of the running image. -/
  deviceId : Nat
  evt : EvtSt
  ym : YmSt
  bt : BeatSt
  prt : PortsSt
  /-- Frames released to each port's egress queues, in order of arrival (R60, R273). -/
  egress : Table (List OutFrame)
  pwr : PwrSt
  host : HostSt
  gate : GateSt
  yard : YardSt
  loft : LoftSt
  pool : PoolSt
  guard : GuardSt
  groom : GroomSt
  sealSt : SealSt
  vault : VaultSt
  otp : OtpSt
  lifeSt : LifeSt
  boot : BootSt
  tud : TudelSt
  mtest : MtestSt
  pair : PairSt
  /-- Frames that this device has sent to its partner (R283). -/
  pairSeq : Nat
  /-- The commands that wait, first in first out. -/
  pending : List Instr
  deriving DecidableEq, Repr

/-- The machine at the release of POR_N, before its start-up has run (R523, GLB_BOOT_STATUS.PHASE 0): every field at its reset
value, every memory, table, queue and buffer empty, main power and reference clocks present, PERST_N and ACT_OUT_N
released, a flash fitted and erased, straps reading 0 (R588), and OTP with the BENCH and vendor debug digests that Hexmeko
programs (assumption logs 2, 3, 107). -/
def State.reset : State :=
  { fields := [], tmr := [], inv := [], shadows := [], clk := 0, frac := 0, dev := 0, free := 0, out := [], evq := [], rdata := 0
    flash := [], flashOk := true, deviceId := 0
    evt := { stack := [], openRec := none, buf := [], recent := [], dropped := 0, dropSeq := 0, clearReq := none, clears := 0,
             rate := [], overload := 0, overNew := false }
    ym := { stray := [], small := [], ptp := [], done := [] }
    bt := { next := 0, adjNow := 0, reqPend := none, reseatPend := none, reseatTgt := 0, reseatCounts := false, startAt := 0,
            syncAt := 0, holdAt := 0, startDue := false, syncDue := false, holdDue := false, running := false,
            res := BeatRes.init, dispatchOpen := false, deadline := false, deltaClosed := false, decision := none,
            gateOpen := none, ppsAt := none }
    prt := { ports := [], reds := [], lrefAbsent := [] }
    egress := []
    pwr := { doms := [], wfi := false, linkL1 := false, thermAlert := false, smtr := [], njRest := 0, rxBytes := 0, gmacBits := 0,
             tempSum := 0, tempCnt := 0 }
    host := { slices := [], fn := .training, pmeStatus := false, wakeN := true, wakes := 0, sliceSigs := [], msix := [], pba := [],
              ltrSent := 0xFFFF, peRefclk := true, perstN := true, rr := 0 }
    gate := { flows := [], keys := [], inflight := [], seq := 0, gmac := Engine.idle, hmac := Engine.idle, engAt := 0, strays := 0,
              strayTok := none, ptpTok := none, otherTok := none, changes := [], jobs := [], jobRr := 255, macFixed := 0, propagate := [] }
    yard := { groups := [], mem := [], queue := [], bankMap := [], taking := [], retired := [], retiring := [], recs := [],
              tags := [], epochs := [] }
    loft := { buf := [], bufBytes := 0, gap := none, segs := [], openSeg := none, slots := [], exports := [], hist := [], tags := [],
              moved := [], halves := 0, kept := false, untrained := false, tested := 0, passAt := 0 }
    pool := { stalls := [], sheds := [], takeovers := [], bankBad := [], invalidate := false }
    guard := { regions := [], reports := [], nextId := 0, acts := [] }
    groom := { items := [], writes := [], flows := [], ready := [], nextSeq := 0, results := [], plan := [], slackLeft := 0, rr := [],
               tripOver := false, stats := [], blog := [], moves := [], lost := [], charged := [], chargedNow := 0,
               idleBeats := [0, 0, 0, 0], planAvail := [], owed := [], lastSvc := 0, missed := false, cfg := [] }
    sealSt := { pubs := [], prov := [], tpl := [], store := [], sealedRecs := [], frames := [], marks := [], epochs := [], changed := [],
                reps := [], repWait := [], oversize := false, endSent := false, ack := none }
    vault := { otpRoot := [List.replicate 32 0, List.replicate 32 0, List.replicate 32 0], otpKcv := 0, otpCert := List.replicate 48 0,
               root := none, slots := [], queue := [], cur := none, last := 256, gen := [], drbg := [], noise := [], turn := 0, pool := [], holdAt := [],
               timerAt := none, chals := [], cust := [], envelope := none, submitted := [], trips := [], jobs := [], pkLast := 256,
               engines := [] }
    otp := { copies := [0, 0, 0], digests := [(1, List.replicate 48 0), (6, List.replicate 48 0)], fwKey := List.replicate 48 0,
             era := 0, floor := 0, fwFloor := 0 }
    lifeSt := { trans := none, scrapAt := none, grant := none, chal := none, ir := 0x01, bsr := 0, hist := [], logged := 0,
                canary := 0xA5C35A3C96E1691E, mtcBase := 0, mtcAt := 0, mainOn := true, refclkLost := false }
    boot := { mode := 0, porN := false, wrstN := true, inReset := some true, relAt := 0, record := [], cands := [], first := 3,
              img := none, opAt := none, servo := [], cmd := none }
    tud := { fwd := [], links := [] }
    mtest := { ce := [], found := [], rows := [], volatileRows := [], passAt := 0, hourAt := 0, logAt := 0, ageAcc := 0, pos := [] }
    pair := PairSt.init, pairSeq := 0, pending := [] }

end Sys2Proof.Machine
end

