-- ==== Sys2Proof/Machine/Ops.lean ====
section
/-! DEFINITION. The named operations that every meaning uses: reading and writing register fields, saturating
counters, time, free values, outputs, the once-per-second limiter (R615) and raising an event (R474). -/

namespace Sys2Proof.Machine

/-- What a command answers. -/
abbrev Res := Host.Outcome State Fault Refusal

/-- The bitwise majority of three numbers. -/
def vote3 (a b c : Nat) : Nat := (a &&& b) ||| (a &&& c) ||| (b &&& c)

/-- The value of a register field: the reset value where unlisted; a TMR field is voted bit by bit (R564). -/
def State.get (s : State) (f : Fld) : Nat :=
  let v := Table.at f.rst f.key s.fields
  match Table.find f.key s.tmr with
  | none => v
  | some (a, b, c) => v ^^^ vote3 a b c

/-- A one-bit field as a Bool. -/
def State.bit (s : State) (f : Fld) : Bool := s.get f != 0

/-- Write a field: the value is cut to the field's width; all copies of a TMR field take it (R564), and both of an INV
field (R565). -/
def State.put (s : State) (f : Fld) (v : Nat) : State :=
  { s with
    fields := Table.put f.rst f.key (v % 2 ^ f.width) s.fields
    tmr := Table.erase f.key s.tmr
    inv := Table.erase f.key s.inv }

/-- Write a one-bit field. -/
def State.putB (s : State) (f : Fld) (b : Bool) : State := s.put f (b2n b)

/-- Set a flag. -/
def State.flag (s : State) (f : Fld) : State := s.put f 1

/-- Add to a counter, saturating at its width. -/
def State.addTo (s : State) (f : Fld) (n : Nat) : State := s.put f (satAdd f.width (s.get f) n)

/-- Add one to a counter. -/
def State.bump (s : State) (f : Fld) : State := s.addTo f 1

/-- Conditional update. -/
def State.when (s : State) (c : Bool) (g : State → State) : State := if c then g s else s

/-- Fold an update over a list. -/
def State.each {α : Type} (s : State) (l : List α) (g : α → State → State) : State := l.foldl (fun t a => g a t) s

/-- Insert into a list ordered by `le`. -/
def insertBy {α : Type} (le : α → α → Bool) (x : α) : List α → List α
  | [] => [x]
  | y :: t => if le x y then x :: y :: t else y :: insertBy le x t

/-- A list put in the order `le`. -/
def sortBy {α : Type} (le : α → α → Bool) (l : List α) : List α := l.foldr (insertBy le) []

/-! Changing one part of the state. -/

def State.setEvt (s : State) (g : EvtSt → EvtSt) : State := { s with evt := g s.evt }
def State.setYm (s : State) (g : YmSt → YmSt) : State := { s with ym := g s.ym }
def State.setPwr (s : State) (g : PwrSt → PwrSt) : State := { s with pwr := g s.pwr }
def State.setPrt (s : State) (g : PortsSt → PortsSt) : State := { s with prt := g s.prt }
def State.setTud (s : State) (g : TudelSt → TudelSt) : State := { s with tud := g s.tud }
def State.setHost (s : State) (g : HostSt → HostSt) : State := { s with host := g s.host }
def State.setFlash (s : State) (m : Memory) : State := { s with flash := m }

/-- The register read returns `v`. -/
def State.ret (s : State) (v : Nat) : State := { s with rdata := v }

/-- Send something outside. -/
def State.emit (s : State) (o : Output) : State := { s with out := o :: s.out }

/-- Take a free value of `w` bits (assumption log 5). -/
def State.freeVal (s : State) (w : Nat) : Nat := Config.freeValue s.free % 2 ^ w
/-- Count a free value as used. -/
def State.useFree (s : State) : State := { s with free := s.free + 1 }

/-- Device time in nanoseconds (R10). -/
def State.nowNs (s : State) : Nat := s.dev / 2048000000000
/-- Units of device time in an eighth of a nanosecond of REFCLK_SYS at the adjustment in force: 2^-8 ppb steps (R37). -/
def State.devRate (s : State) : Nat := (256000000000 + toSigned 32 s.bt.adjNow).toNat
/-- `dt` nanoseconds of REFCLK_SYS pass. -/
def State.elapse (s : State) (dt : Nat) : State := { s with clk := s.clk + dt, dev := s.dev + 8 * dt * s.devRate }
/-- `k` eighths of a nanosecond of REFCLK_SYS pass. -/
def State.elapse8 (s : State) (k : Nat) : State :=
  { s with clk := s.clk + (s.frac + k) / 8, frac := (s.frac + k) % 8, dev := s.dev + k * s.devRate }

/-- The current beat number and quality code (R47). -/
def State.beat (s : State) : Nat := s.get F.BEAT_NUM
def State.tq (s : State) : Nat := s.get F.BEAT_TQ_TQ

/-- Send a pair frame (R283), while the pair link is up: header, payload, CRC-32C, all big-endian. -/
def State.pairSend (s : State) (typ flags beat : Nat) (payload : List Byte) : State :=
  if !s.bit F.PAIR_STATUS_LINK_UP then s else
  let b := beBytes 1 typ ++ beBytes 1 flags ++ beBytes 2 payload.length ++ beBytes 4 s.pairSeq ++ beBytes 8 beat ++ payload
  { s.emit (.pairTx typ (b ++ beBytes 4 (crc32c b))) with
    pairSeq := (s.pairSeq + 1) % 2 ^ 32, pair := { s.pair with lastTx := s.clk } }

/-- Find a limiter entry. -/
def rateFind (code key : Nat) : List RateEntry → Option RateEntry
  | [] => none
  | e :: t => if e.code = code ∧ e.key = key then some e else rateFind code key t

/-- Replace or add a limiter entry. -/
def ratePut (e : RateEntry) : List RateEntry → List RateEntry
  | [] => [e]
  | x :: t => if x.code = e.code ∧ x.key = e.key then e :: t else x :: ratePut e t

/-- Queue an event of the present cycle (R474); `commit` orders and delivers it. -/
def State.raiseEv (s : State) (e : Ev) : State := { s with evq := s.evq ++ [e] }

/-- Raise an event with up to four parameters, cut to 32 bits. -/
def State.raise (s : State) (code source p1 p2 p3 p4 : Nat) : State :=
  s.raiseEv ⟨code, source, p1 % 2 ^ 32, p2 % 2 ^ 32, p3 % 2 ^ 32, p4 % 2 ^ 32, false, false, []⟩

/-- The limiter of R615: an occurrence of `code` for `key` that stands for `n` occurrences. `g` is applied with the
count since the last such event when the event is to be raised; otherwise the occurrences are kept. -/
def State.limited (s : State) (code key n : Nat) (g : Nat → State → State) : State :=
  match rateFind code key s.evt.rate with
  | none => g n (s.setEvt fun x => { x with rate := ratePut ⟨code, key, s.clk, 0⟩ s.evt.rate })
  | some e =>
    if s.clk ≥ e.last + 1000000000 then
      g (e.suppressed + n) (s.setEvt fun x => { x with rate := ratePut ⟨code, key, s.clk, 0⟩ s.evt.rate })
    else
      s.setEvt fun x => { x with rate := ratePut ⟨code, key, e.last, e.suppressed + n⟩ s.evt.rate }

/-- The limiter forgets what `p` selects: the first occurrence after an enable raises its event (R615). -/
def State.freshLimits (s : State) (p : RateEntry → Bool) : State :=
  s.setEvt fun x => { x with rate := x.rate.filter fun e => !p e }

/-- The entries of the events of one block, whose codes share their top digit (R475). -/
def rateBlock (n : Nat) (e : RateEntry) : Bool := e.code / 4096 == n

/-- An event raised at most once per second for a key, without a count among its parameters (R615). -/
def State.raiseLim (s : State) (key code source p1 p2 p3 p4 : Nat) : State :=
  s.limited code key 1 fun _ t => t.raise code source p1 p2 p3 p4

/-- The source of a slice's events (R475). -/
def sliceSource (n : Nat) : Nat := 192 + n

/-- Raise an event of the host interface for slice `n`: it also reaches the slice's event ring (R369, R483). -/
def State.raiseSlice (s : State) (code n p2 p3 p4 : Nat) : State :=
  s.raiseEv ⟨code, sliceSource n, n, p2 % 2 ^ 32, p3 % 2 ^ 32, p4 % 2 ^ 32, false, false, [n]⟩

/-- A field of slice `n`'s window; slices are numbered 0 to 255 (R342, R346). -/
def sl (f : Fld) (n : Nat) : Fld := f.shift (0x10000 * (n % 256))

/-- The state of slice `n` beyond its registers, and changing it. -/
def State.slice (s : State) (n : Nat) : SliceSt := Table.at SliceSt.init n s.host.slices
def State.setSlice (s : State) (n : Nat) (g : SliceSt → SliceSt) : State :=
  s.setHost fun x => { x with slices := Table.modify SliceSt.init n g s.host.slices }

/-- A DMA write of slice `n`, counted (R350). -/
def State.sliceDma (s : State) (n addr : Nat) (bytes : List Byte) : State :=
  if bytes.isEmpty then s
  else (s.emit (.dmaWrite (some n) addr bytes)).addTo (sl F.SLICE_CNT_DMA_BYTES n) bytes.length

/-- Element `i` of a list changed. -/
def listMod (l : List Nat) (i : Nat) (g : Nat → Nat) : List Nat := l.modify i g

/-- Bytes with the little-endian number `v` of `n` bytes at `o`, zeros being added as needed. -/
def setLe (bs : List Byte) (o n v : Nat) : List Byte :=
  let bs := bs ++ List.replicate (o + n - bs.length) 0
  bs.take o ++ leBytes n v ++ bs.drop (o + n)

/-- The big-endian number of `n` bytes at `o`. -/
def beAt (bs : List Byte) (o n : Nat) : Nat := leNat ((bs.drop o).take n).reverse

/-- Registers of an array loaded from bytes, four to a register, and their bytes. -/
def State.putBytes (s : State) (f : Fld) (n : Nat) (bs : List Byte) : State :=
  s.each (List.range n) fun i t => t.put (f.idx i) (leAt bs (4 * i) 4)
def State.getBytes (s : State) (f : Fld) (n : Nat) : List Byte :=
  (List.range n).flatMap fun i => leBytes 4 (s.get (f.idx i))

end Sys2Proof.Machine
end

