-- ==== Sys2Proof/Machine/HostOut.lean ====
section
/-! DEFINITION. Delivery to the host: MSI-X vectors (R340, R353), completion queues, data rings and event rings with
their staging (R348, R361, R362, R483), wake conditions (R366) and the LTR value (R364). -/

namespace Sys2Proof.Machine

/-- A word of the MSI-X table; the vector control word resets with its mask bit set (PCIe 6.0; assumption log 8). -/
def msixRst (k : Nat) : Nat := if k % 4 = 3 then 1 else 0
def State.msixWord (s : State) (k : Nat) : Nat := Table.at (msixRst k) k s.host.msix

/-- Raise an MSI-X vector: a message, or a pending bit while the vector is masked or the function is not in D0. -/
def State.raiseVector (s : State) (v : Nat) : State :=
  if bitOf (s.msixWord (4 * v + 3)) 0 || s.host.fn != .d0 then
    if s.host.pba.contains v then s else s.setHost fun x => { x with pba := v :: s.host.pba }
  else s.emit (.msix v (s.msixWord (4 * v) + 2 ^ 32 * s.msixWord (4 * v + 1)) (s.msixWord (4 * v + 2)))

/-- Entries of a queue whose size field holds `log2`. -/
def qSize (log2 : Nat) : Nat := 2 ^ log2

/-- Delivery into slice `n`'s queues is possible at all: enabled, and the function in D0 (R361). -/
def State.sliceOpen (s : State) (n : Nat) : Bool := s.bit (sl F.SLICE_CTRL_EN n) && s.host.fn == .d0

/-- The completion queue is open and not full (R361). -/
def State.cqRoom (s : State) (n : Nat) : Bool :=
  let size := qSize (s.get (sl F.SLICE_CQ_SIZE n))
  s.sliceOpen n && (s.get (sl F.SLICE_CQ_TAIL n) + 1) % size != s.get (sl F.SLICE_CQ_HEAD n) % size

/-- The event ring is open and not full. -/
def State.evRoom (s : State) (n : Nat) : Bool :=
  let size := qSize (s.get (sl F.SLICE_EVR_SIZE n))
  s.sliceOpen n && (s.get (sl F.SLICE_EVR_TAIL n) + 1) % size != s.get (sl F.SLICE_EVR_HEAD n) % size

/-- `n` rounded up to a multiple of 64. -/
def pad64 (n : Nat) : Nat := (n + 63) / 64 * 64

/-- Write a HOST entry's body to the data ring (R348), or lose it for want of room (R362): the entry as written, and
whether the body was lost. -/
def State.drWrite (s : State) (n : Nat) (e : Cqe) : State × Cqe × Bool :=
  if e.typ = 6 then
    let size := 2 ^ s.get (sl F.SLICE_DR_SIZE n)
    let tail := s.get (sl F.SLICE_DR_TAIL n)
    let used := (tail + size - s.get (sl F.SLICE_DR_HEAD n) % size) % size
    if used + pad64 e.body.length < size then
      let s := s.put (sl F.SLICE_DR_TAIL n) ((tail + pad64 e.body.length) % size)
      (s.addTo (sl F.SLICE_CNT_DMA_BYTES n) (pad64 e.body.length),
       { e with aux := tail + 2 ^ 32 * e.body.length }, false)
    else (s.bump (sl F.SLICE_CNT_DR_DROP n), { e with aux := 0, body := [] }, true)
  else (s, e, false)

/-- Write one completion entry at the tail, and raise the vector when the queue was empty from the device's view
(R348, R353). -/
def State.cqWriteNow (s : State) (n : Nat) (e : Cqe) : State :=
  let (s, e, lost) := s.drWrite n e
  let size := qSize (s.get (sl F.SLICE_CQ_SIZE n))
  let tail := s.get (sl F.SLICE_CQ_TAIL n)
  let wasEmpty := tail % size == s.get (sl F.SLICE_CQ_HEAD n) % size
  let ph := (s.slice n).cqPhase
  let s := (s.emit (.cqWrite n tail ph lost e)).put (sl F.SLICE_CQ_TAIL n) ((tail + 1) % size)
  let s := s.addTo (sl F.SLICE_CNT_DMA_BYTES n) 64
  let s := s.when ((tail + 1) % size == 0) fun t => t.setSlice n fun x => { x with cqPhase := !ph }
  s.when wasEmpty fun t => t.raiseVector n

/-- Write one event record at the tail (R483). -/
def State.evWriteNow (s : State) (n : Nat) (e : EventRec) : State :=
  let size := qSize (s.get (sl F.SLICE_EVR_SIZE n))
  let tail := s.get (sl F.SLICE_EVR_TAIL n)
  let wasEmpty := tail % size == s.get (sl F.SLICE_EVR_HEAD n) % size
  let ph := (s.slice n).evPhase
  let s := (s.emit (.evWrite n tail ph e)).put (sl F.SLICE_EVR_TAIL n) ((tail + 1) % size)
  let s := s.addTo (sl F.SLICE_CNT_DMA_BYTES n) 32
  let s := s.when ((tail + 1) % size == 0) fun t => t.setSlice n fun x => { x with evPhase := !ph }
  s.when wasEmpty fun t => t.raiseVector n

/-- A LOST entry for `k` dropped entries (R348, R362). -/
def lostEntry (k : Nat) : Cqe := ⟨7, 0, 0, 0, k, [], []⟩

/-- Write staged completion entries in order while there is room. -/
def State.flushCqList (s : State) (n : Nat) : List Cqe → State
  | [] => s.setSlice n fun x => { x with cqStage := [] }
  | e :: es =>
    if s.cqRoom n then (s.cqWriteNow n e).flushCqList n es
    else s.setSlice n fun x => { x with cqStage := e :: es }

/-- Deliver what is staged for the completion queue: after a drop, the LOST entry first (R361, R362). -/
def State.flushCq (s : State) (n : Nat) : State :=
  if s.cqRoom n then
    let k := (s.slice n).lost
    let s := s.when (k != 0) fun t => (t.cqWriteNow n (lostEntry k)).setSlice n fun x => { x with lost := 0 }
    s.flushCqList n (s.slice n).cqStage
  else s

/-- Write staged event records in order while there is room. -/
def State.flushEvList (s : State) (n : Nat) : List EventRec → State
  | [] => s.setSlice n fun x => { x with evStage := [] }
  | e :: es =>
    if s.evRoom n then (s.evWriteNow n e).flushEvList n es
    else s.setSlice n fun x => { x with evStage := e :: es }

def State.flushEv (s : State) (n : Nat) : State := s.flushEvList n (s.slice n).evStage

/-- Deliver everything staged for slice `n` that can be delivered (R361). -/
def State.flushSlice (s : State) (n : Nat) : State := (s.flushCq n).flushEv n

/-- An entry dropped for want of staging: counted, CQ_LOST set, event 0x0101 at most once per second with the entries
dropped since the last such event (R362, R369). -/
def State.cqDrop (s : State) (n : Nat) : State :=
  let s := (s.bump (sl F.SLICE_CNT_CQ_DROP n)).flag (sl F.SLICE_STATUS_CQ_LOST n)
  let s := s.setSlice n fun x => { x with lost := x.lost + 1 }
  s.limited 0x0101 n 1 fun k t => t.raiseSlice 0x0101 n k 0 0

/-- A completion entry for slice `n`: written, staged or dropped (R361, R362). -/
def State.cqPush (s : State) (n : Nat) (e : Cqe) : State :=
  let s := s.flushCq n
  if (s.slice n).cqStage.isEmpty && (s.slice n).lost == 0 && s.cqRoom n then s.cqWriteNow n e
  else if (s.slice n).cqStage.length < 64 then s.setSlice n fun x => { x with cqStage := x.cqStage ++ [e] }
  else s.cqDrop n

/-- An event record for slice `n`: it takes the next SEQ, and is written, staged, or dropped when the staging is full,
which the gap in SEQ shows (R483, R362; assumption log 9). -/
def State.evPush (s : State) (n : Nat) (code tq p1 p2 p3 p4 beat : Nat) : State :=
  let s := s.flushEv n
  let e : EventRec := ⟨code, tq, p1, p2, p3, p4, beat, (s.slice n).evSeq⟩
  let s := s.setSlice n fun x => { x with evSeq := (x.evSeq + 1) % 2 ^ 32 }
  if (s.slice n).evStage.isEmpty && s.evRoom n then s.evWriteNow n e
  else if (s.slice n).evStage.length < 64 then s.setSlice n fun x => { x with evStage := x.evStage ++ [e] }
  else s

/-- Slices that have any state of their own. -/
def State.sliceList (s : State) : List Nat := s.host.slices.map (·.1)

/-- Slice `n` has staged entries. -/
def State.staged (s : State) (n : Nat) : Bool := !(s.slice n).cqStage.isEmpty || !(s.slice n).evStage.isEmpty

/-- Source `i` is pending. -/
def State.isPending (s : State) (i : Nat) : Bool := bitOf (s.get (F.EVT_PENDn.idx (i / 32 % 16))) (i % 32)

/-- A wake condition of R366 holds. -/
def State.wakeCond (s : State) : Bool :=
  (s.sliceList.any fun n => s.staged n && s.bit (sl F.SLICE_CTRL_WAKE_EN n))
    || ((List.range 512).any fun i => s.bit (F.EVT_SRCn_CFG_WAKE.idx i) && s.isPending i)

/-- Evaluate the wake condition: PM_PME in D3hot, WAKE_N in D3cold (R365, R366; assumption log 10). -/
def State.evalWake (s : State) : State :=
  match s.host.fn with
  | .d3hot =>
    if !s.host.pmeStatus && s.wakeCond then
      (s.emit .pmPme).setHost fun x => { x with pmeStatus := true, wakes := x.wakes + 1 }
    else s
  | .d3cold =>
    if s.host.wakeN && s.wakeCond then
      s.setHost fun x => { x with wakeN := false, pmeStatus := true, wakes := s.host.wakes + 1 }
    else s
  | _ => s

/-- The LTR value the device asks for (R364). -/
def State.ltrValue (s : State) : Nat :=
  s.sliceList.foldl (fun m n =>
    if s.bit (sl F.SLICE_CTRL_EN n) && s.staged n then min m ((s.slice n).ltrNow / 2 ^ 16) else m) 0xFFFF

/-- A CMD completion (R348); QUIET suppresses status OK (R347). -/
def State.cmdDone (s : State) (n cmdId : Nat) (quiet : Bool) (status : Nat) (payload : List Byte) : State :=
  let s := s.when (status != 0) fun t => t.bump (sl F.SLICE_CNT_CMD_ERR n)
  if quiet && status == 0 then s else s.cqPush n ⟨1, cmdId, status, payload.length, 0, payload, []⟩

/-- An emission report (R275): STATUS, and the transmit time when there is one. -/
def emitReport (status : Nat) (i : EmitInfo) (tx : Option Nat) : List Byte :=
  leBytes 1 status ++ leBytes 1 i.kind ++ leBytes 2 i.pub ++ leBytes 4 i.seq ++ leBytes 8 i.beat
    ++ (i.iv ++ List.replicate (12 - i.iv.length) 0).take 12 ++ leBytes 2 i.key
    ++ leBytes 2 (b2n tx.isSome + 2 * b2n i.rep + 4 * b2n i.lanB)
    ++ (match tx with
        | none => leBytes 10 0
        | some t => timeBytes t) ++ leBytes 6 0

/-- Report what became of a frame, when it is reported at all. -/
def State.reportFrame (s : State) (status : Nat) (i : Option EmitInfo) (tx : Option Nat) : State :=
  match i with
  | none => s
  | some i => s.cqPush i.slice ⟨5, 0, 0, 48, 0, emitReport status i tx, []⟩

end Sys2Proof.Machine
end

