-- ==== Sys2Proof/Machine/Events.lean ====
section
/-! DEFINITION. Delivery of the events a command raised: order (R474), pending bits and counters (R481), host vectors
(R484), ledger records with folding and drops (R485 to R489), slice rings (R483), and the end of every command. -/

namespace Sys2Proof.Machine

/-- One more occurrence in the counter byte of source `i`, saturating at 255 (R481). Sources are numbered 0 to 511 (R475). -/
def State.countSource (s : State) (i : Nat) : State :=
  let f := F.EVT_CNTn.idx (i / 4 % 128)
  let w := s.get f
  let b := bitsOf w (8 * (i % 4)) 8
  if b < 255 then s.put f (w + 2 ^ (8 * (i % 4))) else s

/-- The pending bit of source `i` is set; a rise raises its host vector (R484). -/
def State.setPending (s : State) (i : Nat) : State :=
  let f := F.EVT_PENDn.idx (i / 32 % 16)
  let w := s.get f
  if bitOf w (i % 32) then s
  else
    let s := s.put f (setBit w (i % 32))
    let hv := s.get (F.EVT_SRCn_CFG_HOSTVEC.idx (i % 512))
    s.when (hv != 0) fun t => t.raiseVector (255 + hv)

/-- The pending bit of source `i` is cleared. -/
def State.clearPending (s : State) (i : Nat) : State :=
  let f := F.EVT_PENDn.idx (i / 32 % 16)
  s.put f (clearBit (s.get f) (i % 32))

/-- A queue source follows its queue: pending while it is non-empty (R476). -/
def State.queueSource (s : State) (i : Nat) (nonEmpty : Bool) : State :=
  if nonEmpty then s.setPending i else s.clearPending i

/-- Capacity of the ledger buffer (R488). -/
def ledgerBufMax : Nat := 16384

/-- A record enters the buffer, or is dropped and counted when 16,384 wait (R489). -/
def State.bufPush (s : State) (r : LedgerRec) : State :=
  if s.evt.buf.length < ledgerBufMax then
    let s := s.setEvt fun x => { x with buf := s.evt.buf ++ [r] }
    s.put F.LDG_BUF s.evt.buf.length
  else
    let s := (s.flag F.EVT_STATUS_DROP).bump F.LDG_CNT_DROP
    s.setEvt fun x => { x with
        dropSeq := if s.evt.dropped = 0 then r.seq else s.evt.dropSeq
        dropped := s.evt.dropped + 1
        overload := setBit s.evt.overload 5
        overNew := true }

/-- Close the open record: a closing copy follows when occurrences were folded in (R487). -/
def State.closeOpen (s : State) : State :=
  match s.evt.openRec with
  | none => s
  | some (r, _) =>
    let s := s.setEvt fun x => { x with openRec := none }
    if r.rep > 0 then s.bufPush { r with closed := true } else s

/-- A new record takes the next SEQ, opens, and goes to the buffer with REPEAT 0; a dropped record takes no SEQ and
does not open (R486, R487, R489). -/
def State.openNew (s : State) (r : LedgerRec) : State :=
  let r := { r with seq := s.get F.LDG_SEQ }
  let room := decide (s.evt.buf.length < ledgerBufMax)
  let s := s.bufPush r
  if room then
    (s.put F.LDG_SEQ (r.seq + 1)).setEvt fun x => { x with openRec := some (r, s.clk) }
  else s

/-- Record an event in the ledger, folding it into the open record where R487 allows. -/
def State.record (s : State) (e : Ev) : State :=
  let r : LedgerRec :=
    ⟨e.code, 0, 0, s.nowNs, s.tq, false, e.firmware, e.backup, e.source, s.beat, e.p1, e.p2, e.p3, e.p4, s.nowNs⟩
  match s.evt.openRec with
  | some (o, t0) =>
    if o.code = e.code ∧ o.p1 = e.p1 ∧ o.p2 = e.p2 ∧ o.rep < 65535
        ∧ s.clk < s.get F.LDG_CFG * 1000000 + t0 then
      let o := { o with rep := o.rep + 1, lastTime := s.nowNs }
      let s := s.setEvt fun x => { x with openRec := some (o, t0) }
      if o.rep = 65535 then s.closeOpen else s
    else s.closeOpen.openNew r
  | none => s.openNew r

/-- Deliver one event to its three places (R474). -/
def State.deliver (s : State) (e : Ev) : State :=
  let s := ((s.countSource e.source).setPending e.source).record e
  s.each e.slices fun n t => t.evPush n e.code t.tq e.p1 e.p2 e.p3 e.p4 t.beat

/-- Insert an event by ascending source, then ascending code (R474). -/
def evInsert (e : Ev) : List Ev → List Ev
  | [] => [e]
  | x :: t => if e.source < x.source ∨ (e.source = x.source ∧ e.code < x.code) then e :: x :: t else x :: evInsert e t

def evSort (l : List Ev) : List Ev := l.foldl (fun a e => evInsert e a) []

/-- Deliver the queued events in order. -/
def State.deliverAll (s : State) : State :=
  let l := evSort s.evq
  s.each l (fun e t => t.deliver e) |> fun t => { t with evq := t.evq.drop s.evq.length }

/-- Raise 0xF007 at most once per second when a queue of R496 dropped an entry; its mask is the queues that dropped
since the last such event. -/
def State.overloadEvent (s : State) : State :=
  if !s.evt.overNew then s
  else (s.setEvt fun x => { x with overNew := false }).limited 0xF007 0 1 fun _ t =>
    let m := t.evt.overload
    (t.raise 0xF007 187 m 0 0 0).setEvt fun x => { x with overload := 0 }

/-- A queue of R496 dropped an entry. -/
def State.queueDrop (s : State) (q : Nat) : State :=
  s.setEvt fun x => { x with overload := setBit s.evt.overload q, overNew := true }

/-- Source `i` is on the stack. -/
def State.onStack (s : State) (i : Nat) : Bool := s.evt.stack.any fun e => e.1 == i

/-- The priority field of source `i`: source 187 resets to 15 (R498). -/
def evtPrio (i : Nat) : Fld :=
  let f := F.EVT_SRCn_CFG_PRIO.idx i
  if i = 187 then { f with rst := 15 } else f

/-- The priority of source `i`. -/
def State.srcPrio (s : State) (i : Nat) : Nat := s.get (evtPrio i)

/-- Source `i` qualifies (R477, R478): enabled, pending, not on the stack, its priority above the top's. -/
def State.qualifies (s : State) (i : Nat) : Bool :=
  s.isPending i && s.bit (F.EVT_SRCn_CFG_EN.idx i) && !s.onStack i
    && match s.evt.stack with
      | [] => true
      | (_, p) :: _ => decide (p < s.srcPrio i)

/-- The winner among qualifying sources: the highest priority, then the lowest number (R477). -/
def State.winner (s : State) : Option Nat :=
  ((List.range 512).filter s.qualifies).foldl (fun b i =>
    match b with
    | none => some i
    | some j => if s.srcPrio j < s.srcPrio i then some i else some j) none

/-- The machine external interrupt line (R477, R498). -/
def State.irqLine (s : State) : Bool := s.bit F.EVT_CTRL_EN && s.winner.isSome

/-- PD20 returns to ON in the cycle in which the interrupt line is asserted (R507). -/
def State.ymWake (s : State) : State :=
  if s.pwr.wfi && s.irqLine then
    let s := s.setPwr fun x => { x with wfi := false }
    (s.put (F.PWR_DOMd_STAT_STATE.idx 19) 0).bump F.PWR_CNT_TRANS
  else s

/-- Commands of slice `n` that were in progress at the edge that froze it (R354). -/
def State.freezeWaits (s : State) (n : Nat) : Bool :=
  let t := (s.slice n).freezeAt
  ((s.slice n).inProg.any fun c => decide (0x40 ≤ c.op ∧ c.op ≤ 0x42 ∧ c.at' ≤ t))
    || (s.gate.jobs.any fun j => j.slice == n && decide (j.at' ≤ t))
    || (s.loft.exports.any fun x => x.cmd.isSome && x.slice == n && decide (x.at' ≤ t))
    || (s.vault.jobs.any fun j => j.slice == some n && decide (j.at' ≤ t))
    || (s.vault.engines.any fun e => match e.2.run with
        | none => false
        | some (j, _) => j.slice == some n && decide (j.at' ≤ t))

/-- A slice in FREEZING is FROZEN once those have completed: event 0x0102 (R343, R354). -/
def State.freezeDone (s : State) : State :=
  s.each (s.sliceList.filter fun n => s.get (sl F.SLICE_STATUS_STATE n) == 2 && (s.slice n).freezeIn.isNone && !s.freezeWaits n)
    fun n t => (t.put (sl F.SLICE_STATUS_STATE n) 3).raiseSlice 0x0102 n ((t.slice n).freezeBeat % 2 ^ 32) 0 0

/-- The end of every command: its events are ordered and delivered, an overload is reported, wake conditions are
evaluated (R366) and the LTR request follows (R364). Drops that the delivery itself causes are raised by it as well. -/
def State.commit (s : State) : State :=
  let s := s.freezeDone.deliverAll.overloadEvent.deliverAll.evalWake.ymWake
  if s.ltrValue = s.host.ltrSent then s
  else (s.emit (.ltr s.ltrValue)).setHost fun x => { x with ltrSent := s.ltrValue }

/-- Answer the next state after the end of the command. -/
def fin (s : State) : Res := .next s.commit

end Sys2Proof.Machine
end

