-- ==== Sys2Proof/Machine/LifeTable.lean ====
section
/-! DEFINITION. The functions that each life-cycle state permits (R454, R455). -/

namespace Sys2Proof.Machine

/-- The rows of R454. -/
inductive LifeFn where
  | imageAccept | ingest | workItems | emission | keyLoads | slot0Write | slot0Use | otherSlots | pkJobs
  | setDigest | rearmOrClear | rawNoise | ledgerRead
  deriving DecidableEq, Repr

/-- State codes: 0 BLANK, 1 BENCH, 2 FIELD, 3 RETURN, 4 SCRAP (R448). -/
def permits (st : Nat) : LifeFn → Bool
  | .imageAccept => st = 1 || st = 2
  | .ingest => st = 1 || st = 2 || st = 3
  | .workItems => st = 1 || st = 2 || st = 3
  | .emission => st = 1 || st = 2
  | .keyLoads => st = 1 || st = 2
  | .slot0Write => st = 0 || st = 1
  | .slot0Use => st = 0 || st = 1 || st = 2 || st = 3
  | .otherSlots => st = 1 || st = 2
  | .pkJobs => st = 1 || st = 2
  | .setDigest => st = 1
  | .rearmOrClear => st = 1 || st = 2
  | .rawNoise => st = 0 || st = 1 || st = 3
  | .ledgerRead => true

/-- The life-cycle state in force. -/
def State.life (s : State) : Nat := s.get F.LIFE_STATE_STATE

/-- The state in force permits the function. -/
def State.may (s : State) (f : LifeFn) : Bool := permits s.life f

/-- What the vault and the engines permit: while LOCKED, nothing that FIELD permits and RETURN does not (R466). -/
def State.mayVault (s : State) (f : LifeFn) : Bool :=
  s.may f && !(s.bit F.TAMP_STATUS_LOCKED && permits 2 f && !permits 3 f)

/-- Debug level without a grant, and the highest with one (R454): 0 NONE, 1 OBSERVE, 2 HALT, 3 SCAN. -/
def dbgOpenLevel (st : Nat) : Nat := if st = 0 then 3 else if st = 1 ∨ st = 3 then 1 else 0
def dbgMaxLevel (st : Nat) : Nat := if st = 1 ∨ st = 3 then 3 else if st = 2 then 1 else 0

end Sys2Proof.Machine
end

