-- ==== Sys2Proof/Machine/RegAccess.lean ====
section
/-! DEFINITION. Register access (chapter 19): the map of blocks, finding a register, what a write does to each field
under its access code and the gating enable (R559, R561), what a word reads as, refused accesses (R555, R556, R566)
and the high-word shadows (R562). -/

namespace Sys2Proof.Machine

/-- A block of the map of R569: its base, stride and instances, its registers, and its WIGN flag, WIGN_ADDR and
gating enable where it has them (fields of instance 0, moved by `stride`). -/
structure Block where
  base : Nat
  stride : Nat
  count : Nat
  regs : List RegDef
  wign : Option (Fld × Fld)
  gate : Option Fld
  /-- A gating enable of another block does not move with the instance (redundancy pairs). -/
  gateMoves : Bool
  deriving DecidableEq, Repr

/-- BAR2 stands here in one address space with BAR0 (R555). -/
def bar2Base : Nat := 0x4000000

/-- The blocks of R569 and R571. -/
def blocks : List Block :=
  [ ⟨0x0, 0x100000, 1, regsIdent, none, none, false⟩,
    ⟨0x100000, 0x100000, 1, regsBeat, some (F.BEAT_STATUS_WIGN, F.BEAT_WIGN_ADDR), some F.BEAT_CTRL_EN, true⟩,
    ⟨0x200000, 0x1000, 96, regsPort, some (F.PORT_STATUS_WIGN, F.PORT_WIGN_ADDR), some F.PORT_CTRL_EN, true⟩,
    ⟨0x260000, 0x1000, 1, regsPortGlb, some (F.PORT_GLB_STATUS_WIGN, F.PORT_GLB_WIGN_ADDR),
      some F.PORT_GLB_CTRL, true⟩,
    ⟨0x270000, 0x40, 48, regsRed, some (F.PORT_GLB_STATUS_WIGN, F.PORT_GLB_WIGN_ADDR), some F.PORT_GLB_CTRL, false⟩,
    ⟨0x300000, 0x400, 128, regsLane, some (F.LANE_STATUS_WIGN, F.LANE_WIGN_ADDR), some F.LANE_CTRL, true⟩,
    ⟨0x400000, 0x1000, 1, regsGate, some (F.GATE_STATUS_WIGN, F.GATE_WIGN_ADDR), some F.GATE_CTRL, true⟩,
    ⟨0x500000, 0x1000, 1, regsMyard, some (F.MYARD_STATUS_WIGN, F.MYARD_WIGN_ADDR), some F.MYARD_CTRL, true⟩,
    ⟨0x600000, 0x1000, 1, regsLoft, some (F.LOFT_STATUS_WIGN, F.LOFT_WIGN_ADDR), some F.LOFT_CTRL, true⟩,
    ⟨0x700000, 0x1000, 1, regsGroom, some (F.GROOM_STATUS_WIGN, F.GROOM_WIGN_ADDR), some F.GROOM_CTRL, true⟩,
    ⟨0x800000, 0x1000, 68, regsShed, some (F.SHED_STATUS_WIGN, F.SHED_WIGN_ADDR), some F.SHED_CTRL_EN, true⟩,
    ⟨0x900000, 0x1000, 1, regsSeal, some (F.SEAL_STATUS_WIGN, F.SEAL_WIGN_ADDR), some F.SEAL_CTRL, true⟩,
    ⟨0xA00000, 0x1000, 1, regsPair, some (F.PAIR_STATUS_WIGN, F.PAIR_WIGN_ADDR), some F.PAIR_CTRL_EN, true⟩,
    ⟨0xB00000, 0x1000, 1, regsTudel, some (F.TUDEL_STATUS_WIGN, F.TUDEL_WIGN_ADDR), some F.TUDEL_CTRL, true⟩,
    ⟨0xC00000, 0x1000, 1, regsVault, some (F.VAULT_STATUS_WIGN, F.VAULT_WIGN_ADDR), some F.VAULT_CTRL, true⟩,
    ⟨0xD00000, 0x1000, 1, regsGuard, some (F.GUARD_STATUS_WIGN, F.GUARD_WIGN_ADDR), some F.GUARD_CTRL, true⟩,
    ⟨0xE00000, 0x1000, 1, regsEvt, some (F.EVT_STATUS_WIGN, F.EVT_WIGN_ADDR), some F.EVT_CTRL_EN, true⟩,
    ⟨0xF00000, 0x1000, 1, regsPwr, some (F.PWR_STATUS_WIGN, F.PWR_WIGN_ADDR), some F.PWR_CTRL, true⟩,
    ⟨0x1000000, 0x1000, 1, regsLife, some (F.TAMP_STATUS_WIGN, F.TAMP_WIGN_ADDR), some F.TAMP_CTRL, true⟩,
    ⟨0x1100000, 0x1000, 1, regsMtest, some (F.MTEST_STATUS_WIGN, F.MTEST_WIGN_ADDR), some F.MTEST_CTRL, true⟩,
    ⟨bar2Base, 0x10000, 256, regsSlice, some (F.SLICE_STATUS_WIGN, F.SLICE_WIGN_ADDR), some F.SLICE_CTRL_EN, true⟩ ]

/-- A register found at an address: its block, the bytes its instance lies above instance 0, the register's offset
within the instance, its fields moved to the place, and which word of the register the address names. -/
structure Found where
  block : Block
  inst : Nat
  off : Nat
  fields : List Fld
  word : Nat
  words : Nat
  deriving DecidableEq, Repr

/-- The service position that shed `n` takes without repair records (R168). -/
def shedPos (n : Nat) : Nat := if n % 17 = 16 then 0x7F else 16 * (n / 17) + n % 17

/-- Fields whose reset value differs along an array: source 187 resets to priority 15 (R498), and shed `17q + i`
to service position `16q + i`, a spare (i = 16) to 0x7F (R168), a slice to its number, PD20's FLOOR to 1. -/
def fixRst (f : Fld) : Fld :=
  if f.off = F.EVT_SRCn_CFG_PRIO.off + 4 * 187 ∧ f.lo = F.EVT_SRCn_CFG_PRIO.lo then { f with rst := 15 }
  else if F.SHED_CFG.off ≤ f.off ∧ f.off < 0x844000 ∧ f.off % 0x1000 = F.SHED_CFG.off % 0x1000
      ∧ f.lo = F.SHED_CFG.lo then
    { f with rst := shedPos ((f.off - 0x800000) / 0x1000) }
  else if F.SLICE_ID_SLICE.off ≤ f.off ∧ f.off % 0x10000 = F.SLICE_ID_SLICE.off % 0x10000
      ∧ f.lo = F.SLICE_ID_SLICE.lo then { f with rst := (f.off - bar2Base) / 0x10000 }
  else if f.off = F.PWR_DOMd_CFG_FLOOR.off + 4 * 19 ∧ f.lo = F.PWR_DOMd_CFG_FLOOR.lo then { f with rst := 1 }
  else f

/-- Find the register of a list that covers offset `o`. -/
def findIn (b : Block) (inst o : Nat) : List RegDef → Option Found
  | [] => none
  | r :: rs =>
    if r.off ≤ o ∧ (o - r.off) / r.stride < r.count ∧ (o - r.off) % r.stride < 4 * r.words then
      let i := (o - r.off) / r.stride
      some ⟨b, inst, r.off + r.stride * i, r.fields.map fun f => fixRst (f.shift (inst + r.stride * i)),
        (o - r.off) % r.stride / 4, r.words⟩
    else findIn b inst o rs

/-- Find the register at a word-aligned address of the map (R569, R571); none where nothing is named. -/
def findReg (a : Nat) : List Block → Option Found
  | [] => none
  | b :: bs =>
    if b.base ≤ a ∧ a < b.base + b.stride * b.count then
      findIn b ((a - b.base) / b.stride * b.stride) ((a - b.base) % b.stride) b.regs
    else findReg a bs

/-- The part of a field's value that word `w` of its register shows, in place. -/
def fieldWord (f : Fld) (v w : Nat) : Nat :=
  if f.width > 32 then (if w = 0 then v % 2 ^ 32 else v / 2 ^ 32) else if w = 0 then v * 2 ^ f.lo else 0

/-- A word as its fields stand, write-only fields reading zero (R12). -/
def State.readFields (s : State) (fs : List Fld) (w : Nat) : Nat :=
  fs.foldl (fun a f => if f.acc = .wo ∨ f.acc = .w1s ∧ f.off = F.EVT_SOFT.off then a else a + fieldWord f (s.get f) w) 0

/-- The field's value after a written word replaces the part that word `w` shows. -/
def fieldAfter (f : Fld) (v w d : Nat) : Nat :=
  if f.width > 32 then
    (if w = 0 then v / 2 ^ 32 * 2 ^ 32 + d % 2 ^ 32 else v % 2 ^ 32 + d % 2 ^ (f.width - 32) * 2 ^ 32)
  else if w = 0 then bitsOf d f.lo f.width else v

/-- What a written word does to one field under its access code (R12, R559); RWD fields change only while the gating
enable, as it stood before the write, is 0. -/
def State.writeField (s : State) (en : Bool) (w d : Nat) (f : Fld) : State :=
  match f.acc with
  | .rw => s.put f (fieldAfter f (s.get f) w d)
  | .rwd => if en then s else s.put f (fieldAfter f (s.get f) w d)
  | .w1c => s.put f (s.get f - (s.get f &&& fieldAfter f 0 w d))
  | .w1s => s.put f (s.get f ||| fieldAfter f 0 w d)
  | _ => s

/-- The write would change a RWD field (R559). -/
def State.rwdChanges (s : State) (w d : Nat) (f : Fld) : Bool :=
  f.acc = .rwd && fieldAfter f (s.get f) w d != s.get f

/-- The block's gating enable as it stands. -/
def State.gated (s : State) (r : Found) : Bool :=
  match r.block.gate with
  | none => false
  | some g => s.bit (if r.block.gateMoves then g.shift r.inst else g)

/-- The effect of a write on the fields of a register, and WIGN (R559). -/
def State.writeFound (s : State) (r : Found) (d : Nat) : State :=
  let en := s.gated r
  let bad := en && r.fields.any fun f => s.rwdChanges r.word d f
  let s := r.fields.foldl (fun t f => t.writeField en r.word d f) s
  if bad then
    match r.block.wign with
    | none => s
    | some (wf, af) =>
      let k := if r.block.gateMoves then r.inst else 0
      let o := (if r.block.gateMoves then 0 else r.block.base - 0x260000 + r.inst) + r.off + 4 * r.word
      (s.flag (wf.shift k)).put (af.shift k) o
  else s

/-- The field that a key of State.fields names. -/
def fieldOfKey (k : Nat) : Option Fld :=
  match findReg (k / 64) blocks with
  | none => none
  | some r => r.fields.find? fun f => f.key == k

/-- Fields that satisfy `p` return to their reset values. -/
def State.resetFields (s : State) (p : Nat → Fld → Bool) : State :=
  let hit : Nat × Nat → Bool := fun e =>
    match fieldOfKey e.1 with
    | none => false
    | some f => p (e.1 / 64) f
  { s with fields := s.fields.filter fun e => !hit e }

/-- The lane group of port `n`, which its base lane gives, of lane `n`, and the quadrant of shed `n` (R49, R50, R167). -/
def State.portGroup (s : State) (n : Nat) : Nat := s.get (F.PORT_CFG_BASE_LANE.shift (0x1000 * n)) / 16
def laneGroup (n : Nat) : Nat := n / 16
def shedQuad (n : Nat) : Nat := n / 17

/-- The register domain of an address, 0 for AON (R569). -/
def State.regDomain (s : State) (a : Nat) : Nat :=
  if a ≥ bar2Base then 19
  else if 0x80000 ≤ a ∧ a < 0x82028 then 19
  else if a < 0x200000 then 0
  else if a < 0x260000 then 1 + s.portGroup ((a - 0x200000) / 0x1000)
  else if a < 0x300000 then 13
  else if a < 0x400000 then 1 + laneGroup ((a - 0x300000) / 0x400)
  else if a < 0x500000 then 13
  else if a < 0x600000 then 14
  else if 0x800000 ≤ a ∧ a < 0x900000 then 9 + shedQuad ((a - 0x800000) / 0x1000)
  else if 0x900000 ≤ a ∧ a < 0xA00000 then 13
  else if 0xB00000 ≤ a ∧ a < 0xC00000 then 18
  else 0

/-- The state of domain `d` (0 ON, 1 GATED, 2 RETAIN, 3 OFF), and whether it is waking (R501). -/
def State.domState (s : State) (d : Nat) : Nat := if d = 0 then 0 else s.get (F.PWR_DOMd_STAT_STATE.idx (d - 1))
def State.domWaking (s : State) (d : Nat) : Bool := d != 0 && s.bit (F.PWR_DOMd_STAT_WAKING.idx (d - 1))

/-- Registers of the domain answer: it is ON or GATED and not waking (R566). -/
def State.domAccessible (s : State) (d : Nat) : Bool := decide (s.domState d < 2) && !s.domWaking d

/-- Record a refused access with its CAUSE: 1 SIZE, 2 DOM_OFF, 3 DBG_WRITE (R555, R556, R566, R572); event 0x0011 at
most once per second (R573). -/
def State.accessRefused (s : State) (m : Master) (wr : Bool) (a cause : Nat) : State :=
  let s := s.flag (if cause = 1 then F.GLB_ACC_STATUS_SIZE
    else if cause = 2 then F.GLB_ACC_STATUS_DOM_OFF else F.GLB_ACC_STATUS_DBG_WRITE)
  let s := (((s.put F.GLB_ACC_ADDR_MASTER m.code).putB F.GLB_ACC_ADDR_WRITE wr).putB
    F.GLB_ACC_ADDR_BAR2 (decide (a ≥ bar2Base))).put F.GLB_ACC_ADDR_CAUSE cause
  let s := (s.put F.GLB_ACC_ADDR_OFFSET (if a ≥ bar2Base then a - bar2Base else a)).bump F.GLB_ACC_CNT
  let w := s.readFields [F.GLB_ACC_ADDR_MASTER, F.GLB_ACC_ADDR_WRITE, F.GLB_ACC_ADDR_BAR2, F.GLB_ACC_ADDR_CAUSE,
    F.GLB_ACC_ADDR_OFFSET] 0
  s.limited 0x0011 0 1 fun k t => t.raise 0x0011 186 w 0 k 0

/-- The debug level in force: that of the state, or of the grant in force if higher (R454, R457). -/
def State.dbgLevel (s : State) : Nat := max (dbgOpenLevel s.life) (s.get F.LIFE_DBG_LEVEL)

/-- Whether a write reaches its register, and otherwise why not (R555, R566): 3 a debug write below HALT, 2 a domain
that is not ON. -/
def State.writeRefusal (s : State) (m : Master) (a : Nat) : Option Nat :=
  if m = .debug ∧ s.dbgLevel < 2 then some 3
  else if !s.domAccessible (s.regDomain a) then some 2
  else none

/-- A checked register write whose effect is `g`. The debug port at NONE reaches nothing (R555). -/
def State.regWrite (s : State) (m : Master) (a : Nat) (g : State → State) : State :=
  if m = .debug ∧ s.dbgLevel = 0 then s
  else match s.writeRefusal m a with
    | some c => s.accessRefused m true a c
    | none => g s

/-- The plain effect of writing word `d` at address `a`: nothing where no register is named (R569). -/
def State.writeWord (s : State) (a d : Nat) : State :=
  match findReg a blocks with
  | none => s
  | some r => s.writeFound r d

/-- A read that reaches its register with effect `g`, refused under R566 otherwise; the debug port's reads have no
side effect (R558). -/
def State.regRead (s : State) (m : Master) (a : Nat) (g : State → State) : State :=
  if m = .debug ∧ s.dbgLevel = 0 then s
  else if !s.domAccessible (s.regDomain a) then s.accessRefused m false a 2
  else if m = .debug then s
  else g s

/-- A read whose only side effect is the reading master's own shadow (R558, R562, R566). -/
def State.regReadLatch (s : State) (m : Master) (a : Nat) (g : State → State) : State :=
  if m = .debug ∧ s.dbgLevel = 0 then s
  else if !s.domAccessible (s.regDomain a) then s.accessRefused m false a 2
  else g s

/-- The shadow of the high word at offset `a` that master `m` holds (R562). -/
def State.shadow (s : State) (m : Master) (a : Nat) : Nat := Table.at 0 (a * 4 + m.code) s.shadows
def State.latch (s : State) (m : Master) (a v : Nat) : State :=
  { s with shadows := Table.put 0 (a * 4 + m.code) v s.shadows }

end Sys2Proof.Machine
end

