-- ==== Sys2Proof/Machine/Evt.lean ====
section
/-! DEFINITION. The commands of the EVT block (chapter 16): claim and end of interrupt, firmware events, enables, and
the ledger engine: recovery, programming, folding, reading, export and clearing. -/

namespace Sys2Proof.Machine

/-! The interrupt controller. -/

/-- A queue source whose queue is non-empty (R476). -/
def State.queueNonEmpty (s : State) (i : Nat) : Bool :=
  if i = 448 then !s.ym.stray.isEmpty
  else if i = 449 then !s.ym.ptp.isEmpty
  else if i = 450 then !s.ym.small.isEmpty
  else if i = 451 then s.get F.GUARD_REP_CNT != 0
  else if 452 ≤ i ∧ i ≤ 456 then s.ym.done.contains i
  else false

/-- EVT_CLAIM as a register word: VALID, PRIO, SOURCE. -/
def claimWord (valid : Bool) (prio src : Nat) : Nat := b2n valid * 2 ^ 31 + prio * 2 ^ 16 + src

/-- A done source of R476 is pending until it is claimed. -/
def State.setDone (s : State) (i : Nat) : State :=
  (s.setYm fun x => { x with done := if s.ym.done.contains i then s.ym.done else i :: s.ym.done }).setPending i

/-- R478: push the winner, clear its pending bit, return it; a queue source still non-empty is set again in the cycle
after (R476). A read through the debug port pushes nothing (R558). -/
def evtClaim (m : Master) (s : State) : State :=
  if m = .debug ∧ s.dbgLevel = 0 then s
  else match s.winner with
    | none => s.ret (claimWord false 0 0)
    | some i =>
      let w := claimWord true (s.srcPrio i) i
      if m = .debug then s.ret w
      else
        let p := s.srcPrio i
        let s := (s.clearPending i).ret w
        let s := s.setEvt fun x => { x with stack := (i, p) :: x.stack }
        let s := s.setYm fun x => { x with done := x.done.filter fun j => j != i }
        s.when (s.queueNonEmpty i) fun t => t.setPending i

def execEvtClaim (m : Master) (s : State) : Res := fin (evtClaim m s)

/-- R479: the source at the top is popped; any other write is an order fault. -/
def evtEoi (src : Nat) (s : State) : State :=
  match s.evt.stack with
  | (i, _) :: rest =>
    if i = src then s.setEvt fun x => { x with stack := rest }
    else ((s.flag F.EVT_STATUS_STACK_ORDER).bump F.EVT_CNT_STACK_ORDER).raise 0xF001 187 src i 0 0
  | [] => ((s.flag F.EVT_STATUS_STACK_ORDER).bump F.EVT_CNT_STACK_ORDER).raise 0xF001 187 src 0 0 0

def execEvtEoi (m : Master) (src : Nat) (s : State) : Res :=
  fin (s.regWrite m 0xE00014 (evtEoi (src % 512)))

/-- EVT_FW_CODE (R475): a firmware event with EVT_FW_P1 to _P4; other codes are ignored. -/
def fwEvent (code : Nat) (s : State) : State :=
  if code < 0xF800 then s
  else s.raiseEv ⟨code, 187, s.get (F.EVT_FW_Pn.idx 0), s.get (F.EVT_FW_Pn.idx 1), s.get (F.EVT_FW_Pn.idx 2),
    s.get (F.EVT_FW_Pn.idx 3), true, false, []⟩

def execFwEvent (m : Master) (code : Nat) (s : State) : Res :=
  fin (s.regWrite m 0xE0001C (fwEvent (code % 2 ^ 16)))

/-- EVT_SOFT (R476): bit i raises source 480 + i. -/
def softRaise (mask : Nat) (s : State) : State :=
  s.each ((List.range 32).filter fun i => bitOf mask i) fun i t => (t.countSource (480 + i)).setPending (480 + i)

def execSoftRaise (m : Master) (mask : Nat) (s : State) : Res := fin (s.regWrite m 0xE00030 (softRaise mask))

/-- Every HOSTVEC is one of 0 to 8 (EVT_SRCn_CFG). -/
def State.hostvecOk (s : State) : Bool :=
  (List.range 512).all fun i => decide (s.get (F.EVT_SRCn_CFG_HOSTVEC.idx i) ≤ 8)

/-- Start the ledger engine (R492), or report that there is no flash (R490). -/
def ldgStart (s : State) : State :=
  if s.flashOk then s.flag F.EVT_STATUS_RECOVER_BUSY
  else (s.flag F.EVT_STATUS_NO_FLASH).raise 0xF006 187 0 0 0 0

/-- A write of EVT_CTRL: EN (refused for a bad HOSTVEC) and LDG_EN (R492, R498, R499). -/
def evtCtrlWrite (d : Nat) (s : State) : State :=
  let en := bitOf d 0 && (s.bit F.EVT_CTRL_EN || s.hostvecOk)
  let start := bitOf d 1 && !s.bit F.EVT_CTRL_LDG_EN
  let s := s.when (en && !s.bit F.EVT_CTRL_EN) fun t => t.freshLimits fun e => e.code == 0xF007
  let s := ((s.putB F.EVT_CTRL_EN en).putB F.EVT_STATUS_RUNNING en).putB F.EVT_CTRL_LDG_EN (bitOf d 1)
  s.when start ldgStart

def execEvtEnable (m : Master) (d : Nat) (s : State) : Res := fin (s.regWrite m 0xE00000 (evtCtrlWrite d))
def execLdgEnable (m : Master) (d : Nat) (s : State) : Res := fin (s.regWrite m 0xE00000 (evtCtrlWrite d))

/-! The ledger in flash. -/

/-- Slots of the ledger region and its flash offset (R488). -/
def ledgerSlots : Nat := 1048576
def ledgerBase : Nat := 0x0B000000
def slotAddr (k : Nat) : Nat := ledgerBase + 64 * k

/-- The bytes of slot `k` as they stand in flash. -/
def State.slotBytes (s : State) (k : Nat) : List Byte := Memory.bytes 0xFF s.flash (slotAddr k) 64

def erased (bs : List Byte) : Bool := bs.all fun b => b == 0xFF

/-- The CRC of a slot passes (R485). -/
def slotCrcOk (bs : List Byte) : Bool := crc32c (bs.take 60) == leAt bs 60 4

/-- A record read back from 64 bytes (R485). -/
def LedgerRec.ofBytes (b : List Byte) : LedgerRec :=
  { code := leAt b 0 2, rep := leAt b 2 2, seq := leAt b 4 4,
    time := leAt b 8 4 + 1000000000 * leAt b 12 6, tq := leAt b 18 1 % 8,
    closed := bitOf (leAt b 19 1) 0, firmware := bitOf (leAt b 19 1) 1, backup := bitOf (leAt b 19 1) 2,
    source := leAt b 20 2, beat := leAt b 24 8, p1 := leAt b 32 4, p2 := leAt b 36 4, p3 := leAt b 40 4,
    p4 := leAt b 44 4, lastTime := leAt b 48 4 + 1000000000 * leAt b 52 6 }

/-- Program slot `k`: programming turns bits from 1 to 0 only (R491). -/
def programBytes (m : Memory) (a : Nat) : List Byte → Memory
  | [] => m
  | b :: bs => programBytes (Table.put 0xFF a (Memory.byte 0xFF m a &&& b) m) (a + 1) bs

/-- A record programmed into slot `k`, and LDG_NEXT after it (R488). -/
def State.programSlot (s : State) (k : Nat) (r : LedgerRec) : State :=
  let s := s.setFlash (programBytes s.flash (slotAddr k) r.bytes)
  let recent := Table.insert k r s.evt.recent
  let s := s.setEvt fun x => { x with recent := recent.drop (recent.length - ledgerBufMax) }
  (s.put F.LDG_NEXT (k + 1)).bump F.LDG_CNT_RECORDS

/-- The ledger engine writes a record of its own directly into slot `k`: it counts as an occurrence of source 187. -/
def State.ownSlot (s : State) (k code p1 p2 p3 seq : Nat) : State :=
  let r : LedgerRec :=
    ⟨code, 0, seq % 2 ^ 32, s.nowNs, s.tq, false, false, false, 187, s.beat, p1 % 2 ^ 32, p2 % 2 ^ 32, p3 % 2 ^ 32, 0,
      s.nowNs⟩
  ((s.programSlot k r).countSource 187).setPending 187

/-- The binary search of R492 for the first slot that reads erased. -/
def State.searchErased (s : State) : Nat → Nat → Nat → Nat
  | 0, lo, _ => lo
  | fuel + 1, lo, hi =>
    if lo < hi then
      let m := (lo + hi) / 2
      if erased (s.slotBytes m) then s.searchErased fuel lo m else s.searchErased fuel (m + 1) hi
    else lo

/-- The highest slot below `n` whose CRC passes. -/
def State.lastGood (s : State) : Nat → Option Nat
  | 0 => none
  | n + 1 => if slotCrcOk (s.slotBytes n) then some n else s.lastGood n

/-- Buffered records follow with the SEQs after the position found (R486, R492; assumption log 11). -/
def renumber : Nat → List LedgerRec → List LedgerRec
  | _, [] => []
  | q, r :: rs => { r with seq := q } :: renumber ((q + 1) % 2 ^ 32) rs

/-- Set the next SEQ, renumbering what waits in the buffer. -/
def State.setNextSeq (s : State) (q : Nat) : State :=
  let n := s.evt.buf.length
  let s := s.setEvt fun x => { x with
    buf := renumber (q % 2 ^ 32) s.evt.buf
    openRec := s.evt.openRec.map fun (e : LedgerRec × Nat) => ({ e.1 with seq := (q + n + 2 ^ 32 - 1) % 2 ^ 32 }, e.2) }
  s.put F.LDG_SEQ (q + n)

/-- R492: the write position is found. `agree` says that three reads of the last slot agreed. With CLEARING set, the
clear resumes first, and the position is that which the clear leaves. -/
def ledgerRecoveryDone (agree : Bool) (s : State) : State :=
  if !s.bit F.EVT_STATUS_RECOVER_BUSY then s
  else
    let s := s.put F.EVT_STATUS_RECOVER_BUSY 0
    if s.bit F.EVT_STATUS_CLEARING then s
    else
      let n := s.searchErased 21 0 ledgerSlots
      if n = ledgerSlots then (s.flag F.EVT_STATUS_FULL).put F.LDG_NEXT n
      else if n = 0 then s.put F.LDG_NEXT 0
      else if agree && slotCrcOk (s.slotBytes (n - 1)) then
        (s.setNextSeq (leAt (s.slotBytes (n - 1)) 4 4 + 1)).put F.LDG_NEXT n
      else
        let (q, s) := match s.lastGood (n - 1) with
          | some g => (leAt (s.slotBytes g) 4 4, s)
          | none => (s.freeVal 32, s.useFree)
        let s := (s.bump F.LDG_CNT_TORN).flag F.EVT_STATUS_TORN
        (s.ownSlot n 0xF003 (n - 1) (q + 1) 0 (q + 2)).setNextSeq (q + 3)

def execLedgerRecoveryDone (agree : Bool) (s : State) : Res := fin (ledgerRecoveryDone agree s)

/-- The engine may program: LDG_EN, flash fitted, position known, no clear in progress, not full. -/
def State.ledgerRuns (s : State) : Bool :=
  s.bit F.EVT_CTRL_LDG_EN && s.flashOk && !s.bit F.EVT_STATUS_RECOVER_BUSY && !s.bit F.EVT_STATUS_CLEARING
    && !s.bit F.EVT_STATUS_FULL

/-- R488, R489: the oldest record is in flash; FULL follows the last slot but one; a GAP record is raised once room is
free after drops. -/
def ledgerProgramDone (s : State) : State :=
  if !s.ledgerRuns then s
  else match s.evt.buf with
    | [] => s
    | r :: rest =>
      let k := s.get F.LDG_NEXT
      let s := (s.programSlot k r).setEvt fun x => { x with buf := rest }
      let s := s.put F.LDG_BUF rest.length
      let s : State := if k + 2 = ledgerSlots then
          let q := s.get F.LDG_SEQ
          ((s.ownSlot (k + 1) 0xF005 0 0 0 q).put F.LDG_SEQ (q + 1)).flag F.EVT_STATUS_FULL
        else s
      if s.evt.dropped = 0 then s
      else (s.raise 0xF002 187 s.evt.dropped s.evt.dropSeq 0 0).setEvt fun x => { x with dropped := 0, dropSeq := 0 }

def execLedgerProgramDone (s : State) : Res := fin (ledgerProgramDone s)

/-- R487: FOLD_MS has passed since the open record opened, and it closes. -/
def foldExpiry (dt : Nat) (s : State) : State :=
  let s := s.elapse dt
  match s.evt.openRec with
  | none => s
  | some (_, t0) => if s.get F.LDG_CFG * 1000000 + t0 ≤ s.clk then s.closeOpen else s

def execFoldExpiry (dt : Nat) (s : State) : Res := fin (foldExpiry dt s)

/-- R483: what is staged for the event ring of slice `n` is written, as far as R361 allows. -/
def execEventRingWrite (n : Fin 256) (s : State) : Res := fin (s.flushEv n)

/-- The buffered record that slot `k` is to receive, where the write position is known and the slot is not yet programmed
(R488, R490; assumption log 127). -/
def State.pendingSlot (s : State) (k : Nat) : Option LedgerRec :=
  let n := s.get F.LDG_NEXT
  if s.bit F.EVT_STATUS_CLEARING ∨ s.bit F.EVT_STATUS_RECOVER_BUSY ∨ k < n then none
  else if s.flashOk && !erased (s.slotBytes k) then none
  else s.evt.buf[k - n]?

/-- The bytes of slot `k` as a read returns them: from the buffer while it is held there, programmed or not (R488, R499). -/
def State.readSlot (s : State) (k : Nat) : List Byte :=
  match Table.find k s.evt.recent with
  | some r => r.bytes
  | none =>
    match s.pendingSlot k with
    | some r => r.bytes
    | none => s.slotBytes k

/-- LDG_RD_IDX: latch a slot into LDG_RD_DATA, with ERASED and CRC_OK (R499). -/
def ldgRdLatch (k : Nat) (s : State) : State :=
  let bs := s.readSlot k
  let s := ((s.put F.LDG_RD_IDX k).putB F.LDG_RD_STAT_ERASED (erased bs)).putB F.LDG_RD_STAT_CRC_OK (slotCrcOk bs)
  s.each (List.range 16) fun i t => t.put (F.LDG_RD_DATAn.idx i) (leAt bs (4 * i) 4)

def execLdgRdLatch (m : Master) (k : Nat) (s : State) : Res :=
  fin (s.regWrite m 0xE00110 (ldgRdLatch (k % 2 ^ 21)))

/-- LDG_EXP_CMD (R493, R561): GO starts an export unless one runs. -/
def ldgExpWrite (d : Nat) (s : State) : State :=
  if s.bit F.LDG_EXP_CMD_BUSY then s
  else
    let s := s.putB F.LDG_EXP_CMD_HOST (bitOf d 5)
    if !bitOf d 4 then s
    else if !s.flashOk then s.put F.LDG_EXP_CMD_ERR 2
    else (s.put F.LDG_EXP_CMD_ERR 0).flag F.LDG_EXP_CMD_BUSY

def execLdgExportGo (m : Master) (d : Nat) (s : State) : Res := fin (s.regWrite m 0xE00160 (ldgExpWrite d))

/-- Slots exported: those of the range that lie below LDG_NEXT (R493). -/
def State.exportSlots (s : State) : List Nat :=
  let f := s.get F.LDG_EXP_FIRST
  (List.range (min (s.get F.LDG_EXP_COUNT) (s.get F.LDG_NEXT - f))).map (· + f)

/-- Bytes 0 to 111 of the ledger manifest (R493). -/
def State.ledgerManifest (s : State) (slots : List (List Byte)) (first : Nat) : List Byte :=
  let good := slots.filter slotCrcOk
  leBytes 2 1 ++ leBytes 2 s.deviceId ++ leBytes 4 (s.get F.DEVID) ++ leBytes 8 (s.get F.LDG_EXP_SEQ)
    ++ leBytes 4 first ++ leBytes 4 slots.length
    ++ leBytes 4 (leAt (good.headD []) 4 4) ++ leBytes 4 (leAt (good.getLastD []) 4 4)
    ++ leBytes 4 (b2n (!s.may .slot0Use) + 2 * b2n (slots.any fun b => !slotCrcOk b)
        + 4 * b2n (s.bit F.EVT_STATUS_FULL)) ++ leBytes 4 0
    ++ timeBytes s.nowNs ++ leBytes 6 0 ++ leBytes 8 s.beat ++ Config.sha384 slots.flatten

/-- The signature of a manifest: of slot 0 over SHA-384 of the bytes, zero where slot 0 may not be used (R154, R493). -/
def State.manifestSig (s : State) (bs : List Byte) : List Byte :=
  if s.may .slot0Use then Config.ecdsaP384Sign 0 (Config.sha384 bs) else leBytes 96 0

/-- R493: the slots and the manifest are written, or a DMA fault ends the export. -/
def ldgExportDone (fault : Bool) (s : State) : State :=
  if !s.bit F.LDG_EXP_CMD_BUSY then s
  else
    let s := (s.put F.LDG_EXP_CMD_BUSY 0).setDone 456
    if fault then s.put F.LDG_EXP_CMD_ERR 1
    else
      let slots := s.exportSlots.map s.slotBytes
      let s := s.put F.LDG_EXP_SEQ (s.get F.LDG_EXP_SEQ + 1)
      let man := s.ledgerManifest slots (s.get F.LDG_EXP_FIRST)
      (s.emit (.dmaWrite none (s.get F.LDG_EXP_ADDR) slots.flatten)).emit
        (.dmaWrite none (s.get F.LDG_EXP_MAN) (man ++ s.manifestSig man))

def execLdgExportDone (fault : Bool) (s : State) : Res := fin (ldgExportDone fault s)

/-- Steps 1 and 2 of R495: keep the slots above `last` at the head of the buffer, and begin erasing from the top. -/
def State.startClear (s : State) (last : Nat) : State :=
  let keep := (List.range (s.get F.LDG_NEXT - (last + 1))).map fun i => s.slotBytes (last + 1 + i)
  let recs := (keep.filter slotCrcOk).map LedgerRec.ofBytes
  let low := leAt (s.slotBytes last) 4 4
  let s := s.setEvt fun x => { x with buf := recs ++ s.evt.buf, clearReq := some (last, low) }
  ((s.put F.LDG_BUF s.evt.buf.length).flag F.EVT_STATUS_CLEARING).put F.LDG_CLR_POS 1023

/-- Steps 2 to 4 of R495: one sector is erased; after sector 0 the CLEARED record is written and programming resumes at
slot 1. LAST_SLOT and its SEQ are free values when power loss took them (assumption log 12). -/
def ledgerEraseDone (s : State) : State :=
  if !(s.bit F.EVT_STATUS_CLEARING && s.flashOk && s.bit F.EVT_CTRL_LDG_EN) then s
  else
    let p := s.get F.LDG_CLR_POS
    let s := s.setFlash (Memory.clear s.flash (ledgerBase + p * 0x10000) 0x10000)
    let s := s.setEvt fun x => { x with recent := x.recent.filter fun e => decide (e.1 / 1024 ≠ p) }
    let s := s.bump F.IDENT_ERASE_LDG
    if p ≠ 0 then s.put F.LDG_CLR_POS (p - 1)
    else
      let (last, low, s) := match s.evt.clearReq with
        | some (a, b) => (a, b, s)
        | none => (s.freeVal 21, s.useFree.freeVal 32, s.useFree.useFree)
      let s := s.setEvt fun x => { x with clearReq := none, clears := s.evt.clears + 1 }
      let q := s.get F.LDG_SEQ
      let s := ((s.put F.EVT_STATUS_CLEARING 0).put F.EVT_STATUS_FULL 0).put F.LDG_CLR_POS 0
      (s.ownSlot 0 0xF004 last s.evt.clears low q).put F.LDG_SEQ (q + 1)

def execLedgerEraseDone (s : State) : Res := fin (ledgerEraseDone s)

end Sys2Proof.Machine
end

