-- ==== Sys2Proof/Machine/Power.lean ====
section
/-! DEFINITION. Power domains, temperature and energy (chapter 17): the tolerance in force and the target (R503, R504),
dwell, entry, abandon and wake (R505 to R508), holds (R509), the temperature warning (R512) and the meters (R514 to
R517). Domains are numbered 1 to 20 as PD01 to PD20. -/

namespace Sys2Proof.Machine

/-- The state of domain `d` beyond its registers. -/
def State.dom (s : State) (d : Nat) : DomSt := Table.at DomSt.init d s.pwr.doms
def State.setDom (s : State) (d : Nat) (g : DomSt → DomSt) : State :=
  s.setPwr fun x => { x with doms := Table.modify DomSt.init d g s.pwr.doms }

def State.portEn (s : State) (n : Nat) : Bool := s.bit (F.PORT_CTRL_EN.shift (0x1000 * n))

/-- Some port is enabled; some port of lane group `g` is enabled. -/
def State.anyPort (s : State) : Bool := (List.range 96).any s.portEn
def State.anyPortOf (s : State) (g : Nat) : Bool := (List.range 96).any fun n => s.portEn n && s.portGroup n == g

/-- Half `h` of the Loft is in use: as the running Loft has it, else under LOFT_CFG.HALVES (R138, R164). -/
def State.halfUsed (s : State) (h : Nat) : Bool :=
  let v := if s.bit F.LOFT_CTRL then s.loft.halves else s.get F.LOFT_CFG_HALVES
  v = 0 || v = h + 1

/-- The lowest state a domain may take (R502). -/
def domLowest (d : Nat) : Nat := if d = 20 then 1 else 3

/-- OFF exit latency in nanoseconds (R502). -/
def offExit (d : Nat) : Nat :=
  if d ≤ 8 then 2500000
  else if d ≤ 12 then 2020000
  else if d = 15 ∨ d = 16 then 17000000
  else if d = 17 then 42000000
  else if d = 19 then 2500000
  else 2000000

/-- Exit latency to ON from a state, in nanoseconds (R501, R502). -/
def exitLatency (d st : Nat) : Nat := if st = 0 then 0 else if st = 1 then 50 else if st = 2 then 20000 else offExit d

/-- The vault holds domain `d` at ON (R414). -/
def State.vaultHeld (s : State) (d : Nat) : Bool := bitOf (s.get F.VAULT_HOLD) (d - 1)

/-- The hold-ON rule of domain `d` holds (R502). -/
def State.holdOn (s : State) (d : Nat) : Bool :=
  if d ≤ 8 then s.anyPortOf (d - 1)
  else if d ≤ 12 then bitOf (s.get F.GROOM_FCAST_OUT_NEED_B1) (d - 9)
  else if d ≤ 14 then s.anyPort
  else if d ≤ 16 then s.halfUsed (d - 15) && s.bit F.LOFT_CTRL
  else if d = 17 then s.vaultHeld 17
  else if d = 18 then (s.bit F.PAIR_CTRL_EN && s.bit F.PAIR_CFG_MODE) || (s.bit F.TUDEL_CTRL && s.get F.TUDEL_CFG_LINK_EN != 0)
  else if d = 20 then !s.pwr.wfi
  else false

/-- A tolerance field in microseconds as nanoseconds; 0xFFFF is unbounded. -/
def tolNs (us : Nat) : Option Nat := if us = 0xFFFF then none else some (us * 1000)

/-- The smaller of two tolerances with their sources; the first on a tie (assumption log 18). -/
def tolMin (a b : Option Nat × Nat) : Option Nat × Nat :=
  match a.1, b.1 with
  | none, some _ => b
  | some x, some y => if y < x then b else a
  | _, none => a

/-- Slice `n` runs with its queues enabled (R364). -/
def State.sliceRuns (s : State) (n : Nat) : Bool :=
  s.bit (sl F.SLICE_CTRL_EN n) && s.get (sl F.SLICE_STATUS_STATE n) == 1

/-- The smallest WORK_TOL in force (R364, R503). -/
def State.workTol (s : State) : Option Nat × Nat :=
  (List.range 256).foldl (fun m n =>
    if s.sliceRuns n then tolMin m (tolNs ((s.slice n).ltrNow % 2 ^ 16), 3) else m) (none, 3)

/-- The tolerance PD19 takes from the function's power state (R511). -/
def State.pcieTol (s : State) : Option Nat :=
  match s.host.fn with
  | .d0 => if s.pwr.linkL1 then some 50 else some 0
  | .d3hot => some 50
  | .d3cold => none
  | .training => some 0

/-- The Groom's forecast for a quadrant (R242, R243): 0 while it is needed in b + 1, the time to dispatch open of b + 2
while it is needed first there, two beats otherwise, and no bound once OFF is permitted. -/
def State.fcastTol (s : State) (q : Nat) : Option Nat :=
  let l := 1000000000 / s.get F.BEAT_CFG_RATE
  if bitOf (s.get F.GROOM_FCAST_OUT_NEED_B1) q then some 0
  else if bitOf (s.get F.GROOM_FCAST_OUT_NEED_B2) q then some (l + 10 * s.get F.BEAT_SEAL_WIN + 60)
  else if bitOf (s.get F.GROOM_FCAST_OUT_OFF_OK) q then none
  else some (2 * l)

/-- The tolerance in force for domain `d` in ns and its source (R503). -/
def State.tolerance (s : State) (d : Nat) : Option Nat × Nat :=
  let t := (tolNs (s.get (F.PWR_DOMd_CFG_TOL.idx (d - 1))), 0)
  let t := if s.holdOn d then tolMin t (some 0, 1) else t
  let t := if 9 ≤ d ∧ d ≤ 12 then tolMin t (s.fcastTol (d - 9), 2) else t
  let t := if d = 17 ∨ ((d = 15 ∨ d = 16) ∧ s.halfUsed (d - 15)) then tolMin t s.workTol else t
  let t := if d = 19 then tolMin t (s.pcieTol, 4) else t
  let t := if s.get F.LIFE_DBG_LEVEL ≥ 2 then tolMin t (some 0, 6) else t
  if s.bit F.PWR_CTRL then t else tolMin t (some 0, 7)

/-- The FLOOR of domain `d`; PD20 resets to 1. -/
def domFloor (d : Nat) : Fld :=
  let f := F.PWR_DOMd_CFG_FLOOR.idx (d - 1)
  if d = 20 then { f with rst := 1 } else f

/-- An exit latency fits a tolerance (R504). -/
def fits (t : Option Nat) (lat : Nat) : Bool :=
  match t with
  | none => true
  | some x => decide (lat ≤ x)

/-- The target: the lowest state permitted whose exit latency fits (R504). -/
def State.target (s : State) (d : Nat) : Nat :=
  let m := min (domLowest d) (s.get (domFloor d))
  let t := (s.tolerance d).1
  if 3 ≤ m ∧ fits t (offExit d) then 3
  else if 2 ≤ m ∧ fits t 20000 then 2
  else if 1 ≤ m ∧ fits t 50 then 1
  else 0

/-- Evaluate the target of domain `d` again (R504): a higher target wakes at once, abandoning an entry (R505, R506);
a lower one starts its dwell, or is deferred while the vault holds the domain (R415, R509). `src` names the source of
the request for R415. -/
def State.evalDomain (s : State) (d src : Nat) : State :=
  let i := d - 1
  let (t, b) := s.tolerance d
  let g := s.target d
  let st := s.domState d
  let held := s.vaultHeld d
  let s := (s.put (F.PWR_DOMd_STAT_TOL.idx i) (match t with | none => 0xFFFF | some x => min (x / 1000) 0xFFFE)).put
    (F.PWR_DOMd_STAT_TARGET.idx i) g
  let s := (s.put (F.PWR_DOMd_STAT_BINDING.idx i) (if held then 5 else b)).putB (F.PWR_DOMd_STAT_HELD.idx i) held
  if g < st ∨ (g = st ∧ (s.dom d).entering.isSome) then
    let s := if (s.dom d).entering.isSome then
        (s.bump F.PWR_CNT_ABANDON).setDom d fun x => { x with entering := none, dwellAt := none }
      else s.setDom d fun x => { x with dwellAt := none }
    if g < st ∧ !s.domWaking d then
      (s.flag (F.PWR_DOMd_STAT_WAKING.idx i)).setDom d fun x => { x with wakeAt := s.clk, wakeTol := t }
    else s
  else if st < g then
    if held then
      if (s.dom d).deferred.isSome then s
      else (s.bump F.VAULT_CNT_HOLDS).setDom d fun x => { x with deferred := some (src, s.clk) }
    else if (s.dom d).dwellAt.isSome || (s.dom d).entering.isSome then s
    else s.setDom d fun x => { x with dwellAt := some s.clk }
  else s.setDom d fun x => { x with dwellAt := none }

/-- Domain `d` is brought towards ON whatever its tolerances (a wake that an access or a resume asks for). -/
def State.wakeDomain (s : State) (d : Nat) : State :=
  if s.domState d = 0 then
    if (s.dom d).entering.isSome then (s.bump F.PWR_CNT_ABANDON).setDom d fun x => { x with entering := none }
    else s
  else if s.domWaking d then s
  else (s.flag (F.PWR_DOMd_STAT_WAKING.idx (d - 1))).setDom d fun x =>
    { x with wakeAt := s.clk, wakeTol := (s.tolerance d).1, dwellAt := none, entering := none }

/-- A domain changes state: counted, and event 0xF101 at most once per second per domain (R520). -/
def State.domChange (s : State) (d st : Nat) : State :=
  let s := (s.put (F.PWR_DOMd_STAT_STATE.idx (d - 1)) st).bump F.PWR_CNT_TRANS
  s.limited 0xF101 d 1 fun k t => t.raise 0xF101 184 d st k 0

/-- A write of PWR_CTRL.EN (R518): refused while a FLOOR lies below its domain's lowest state or BANK_IDLE is 0. -/
def pwrCtrlWrite (d : Nat) (s : State) : State :=
  if !bitOf d 0 then (s.put F.PWR_CTRL 0).put F.PWR_STATUS_RUNNING 0
  else if s.bit F.PWR_CTRL then s
  else
    match (List.range 20).find? fun i => decide (domLowest (i + 1) < s.get (domFloor (i + 1))) with
    | some i => (s.flag F.PWR_STATUS_CFG_ERR).raise 0xF105 184 (i + 1) 0 0 0
    | none =>
      if s.get F.PWR_POLICY_BANK_IDLE = 0 then s.flag F.PWR_STATUS_CFG_ERR
      else (((s.freshLimits fun e => e.code / 256 == 0xF1).flag F.PWR_CTRL).flag F.PWR_STATUS_RUNNING).put F.PWR_STATUS_CFG_ERR 0

def execPwrEnable (m : Master) (d : Nat) (s : State) : Res := fin (s.regWrite m 0xF00000 (pwrCtrlWrite d))

/-- A tolerance source of a domain changed (R504): `l1` tells the PCIe link's state, `src` the source for R415. -/
def execToleranceChange (d : Fin 20) (l1 : Bool) (src dt : Nat) (s : State) : Res :=
  fin (((s.elapse dt).setPwr fun x => { x with linkL1 := l1 }).evalDomain (d + 1) src)

/-- A lower target has held for DWELL µs: the entry starts (R505). -/
def dwellExpiry (d dt : Nat) (s : State) : State :=
  let s := s.elapse dt
  match (s.dom d).dwellAt with
  | none => s
  | some t =>
    if s.clk - t ≥ s.get F.PWR_POLICY_DWELL * 1000 ∧ s.domState d < s.target d ∧ !s.vaultHeld d then
      s.setDom d fun x => { x with dwellAt := none, entering := some (s.target d) }
    else s

def execDwellExpiry (d : Fin 20) (dt : Nat) (s : State) : Res := fin (dwellExpiry (d + 1) dt s)

/-- A wake has ended (R508): the domain is ON; a wake longer than its tolerance is reported. -/
def domainWakeDone (d dt : Nat) (s : State) : State :=
  let s := s.elapse dt
  if !s.domWaking d then s
  else
    let x := s.dom d
    let took := s.clk - x.wakeAt
    let s := (s.put (F.PWR_DOMd_STAT_WAKING.idx (d - 1)) 0).domChange d 0
    let late := match x.wakeTol with
      | none => false
      | some t => decide (t < took)
    s.when late fun t => ((t.bump F.PWR_CNT_WAKE_LATE).flag F.PWR_STATUS_WAKE_LATE).raise 0xF102 184 d
      (t.get (F.PWR_DOMd_STAT_BINDING.idx (d - 1))) 0 took

/-- R507: both cores wait and no source qualifies: PD20 is gated. -/
def ymWfi (s : State) : State :=
  if s.winner.isSome || !s.bit F.PWR_CTRL then s
  else (s.domChange 20 1).setPwr fun x => { x with wfi := true }

def execYmWfi (s : State) : Res := fin (ymWfi s)

/-- R512: the highest reading and its sensor; the warning is set above WARN and released below WARN − HYST. `tj` is in
units of 0.25 °C. -/
def tempSample (tj : Int) (sensor dt : Nat) (s : State) : State :=
  let s := s.elapse dt
  let s := (s.put F.PWR_TEMP_TJ (ofSigned 16 tj)).put F.PWR_TEMP_SENSOR sensor
  let s := s.setPwr fun x => { x with tempSum := s.pwr.tempSum + tj, tempCnt := s.pwr.tempCnt + 1 }
  let warn : Int := s.get F.PWR_THERM_CFG_WARN
  let hyst : Int := s.get F.PWR_THERM_CFG_HYST
  let p := ofSigned 16 tj
  if !s.bit F.PWR_STATUS_THERM_WARN && decide (4 * warn < tj) then
    let s := (s.flag F.PWR_STATUS_THERM_WARN).raise 0xF103 184 p sensor 0 0
    s.setPwr fun x => { x with thermAlert := s.bit F.PWR_THERM_CFG_ALERT_EN }
  else if s.bit F.PWR_STATUS_THERM_WARN && decide (tj < 4 * (warn - hyst)) then
    let s := (s.put F.PWR_STATUS_THERM_WARN 0).raise 0xF104 184 p 0 0 0
    s.setPwr fun x => { x with thermAlert := false }
  else s

def execTempSample (tj : Int) (sensor : Fin 64) (dt : Nat) (s : State) : Res := fin (tempSample tj sensor dt s)

/-- The meters latch (R514 to R517). An energy per bit over no bits is 0 for the device (R516) and a free value for
the verification figure, of which the spec states none (assumption log 19). -/
def State.latchMeters (s : State) (e : Meters) : State :=
  let sat (x : Nat) : Nat := min x (2 ^ 32 - 1)
  let s := s.each (List.range 20) fun i t => t.put (F.PWR_DOMd_NJ.idx i) (sat (e.doms.getD i 0))
  let total := e.doms.sum + e.aon
  let s := (s.put F.PWR_AON_NJ (sat e.aon)).put F.PWR_BEAT_NJ (sat total)
  let bits := 8 * s.pwr.rxBytes
  let s := s.put F.PWR_DEV_FJ (if bits = 0 then 0 else sat (total * 1000000 / bits))
  let s : State := if s.pwr.gmacBits = 0 then (s.put F.PWR_VFY_FJ (s.freeVal 32)).useFree
    else s.put F.PWR_VFY_FJ (sat (e.ghash * 1000000 / s.pwr.gmacBits))
  let s := s.put F.PWR_VFY_RATIO (min (s.get F.PWR_VFY_FJ * 256 / 40) 0xFFFF)
  let nj := s.pwr.njRest + total
  let s := s.addTo F.PWR_CNT_UJ (nj / 1000)
  s.setPwr fun x => { x with njRest := nj % 1000, rxBytes := 0, gmacBits := 0,
                               smtr := e.slices.foldl (fun t x => Table.insert x.1 x.2 t) [] }

/-- While the beat is disabled the meters latch every millisecond (R514). -/
def execMeterLatchMs (e : Meters) (dt : Nat) (s : State) : Res :=
  fin (if s.bit F.BEAT_CTRL_EN then s.elapse dt else (s.elapse dt).latchMeters e)

/-- A write of PWR_SMTR_IDX latches a slice's meters of the last beat (R515, R519). -/
def smtrLatch (n : Nat) (s : State) : State :=
  let l := Table.at [] n s.pwr.smtr
  let s := s.put F.PWR_SMTR_IDX n
  s.each (List.range 6) fun i t => t.put (F.PWR_SMTR_DATAn.idx i) (min (l.getD i 0) (2 ^ 32 - 1))

def execSmtrLatch (m : Master) (n : Nat) (s : State) : Res := fin (s.regWrite m 0xF00180 (smtrLatch (n % 256)))

end Sys2Proof.Machine
end

