-- ==== Sys2Proof/Machine/Beat.lean ====
section
/-! DEFINITION. The beat (chapter 1): the grid (R16, R17), time quality and its transitions (R35, R617), steering
(R37), reseat (R40, R41), the result word (R30, R618), PPS and the time registers. The edge as a whole stands in
Edge.lean. -/

namespace Sys2Proof.Machine

/-- Quality codes. -/
def tqUnset : Nat := 0
def tqLocked : Nat := 1
def tqHoldover : Nat := 2
def tqFree : Nat := 3
def tqReseat : Nat := 4

/-- The quality lets windows open and cut (R29, R33). -/
def tqRuns (q : Nat) : Bool := q = 1 || q = 2 || q = 3

/-- The beat rate N (R15). -/
def State.rate (s : State) : Nat := s.get F.BEAT_CFG_RATE

/-- The edge time of beat `b` in nanoseconds of device time (R16). -/
def edgeNs (n b : Nat) : Nat := b / n * 1000000000 + b % n * 1000000000 / n

/-- The number of the first beat whose edge lies after `t` ns (R16). -/
def beatAfter (n t : Nat) : Nat :=
  let b := t / 1000000000 * n + (t % 1000000000 * n) / 1000000000
  if edgeNs n b > t then b else if edgeNs n (b + 1) > t then b + 1 else b + 2

/-- Eighths of a nanosecond of REFCLK_SYS until the first 1.6 GHz datapath cycle whose device time is `ns` nanoseconds or
later (R17). -/
def State.until (s : State) (ns : Nat) : Nat :=
  let t := ns * 2048000000000
  let k := if t ≤ s.dev then 0 else (t - s.dev + s.devRate - 1) / s.devRate
  let at8 := 8 * s.clk + s.frac + k
  (at8 + 4) / 5 * 5 - (8 * s.clk + s.frac)

/-- Time passes until `ns` of device time, in the first datapath cycle that reaches it; none does when it has come. -/
def State.toNs (s : State) (ns : Nat) : State := if ns ≤ s.nowNs then s else s.elapse8 (s.until ns)

/-- What happens now falls into the datapath cycle that first shows `ns` of device time, or into a later one. -/
def State.reached (s : State) (ns : Nat) : Bool := decide (s.until ns ≤ s.until 0)

/-- Time passes until the next edge is due (R17): every block sees it in the one cycle that the state then stands in. -/
def State.toEdge (s : State) : State := s.elapse8 (s.until (edgeNs s.rate s.bt.next))

def State.setBt (s : State) (g : BeatSt → BeatSt) : State := { s with bt := g s.bt }
def State.setRes (s : State) (g : BeatRes → BeatRes) : State := s.setBt fun x => { x with res := g x.res }

/-- A BEAT event: source 104, the quality in force first (R48). -/
def State.raiseBeat (s : State) (code p2 p3 : Nat) : State := s.raise code 104 s.tq p2 p3 0

/-- The fields that R21 tests lie in their ranges. -/
def State.beatCfgOk (s : State) : Bool :=
  let n := s.rate
  let w := s.get F.BEAT_SEAL_WIN
  let inR (x a b : Nat) : Bool := decide (a ≤ x ∧ x ≤ b)
  inR n 1000 100000 && inR w 100 3200 && decide ((10 * w + 4000) * n ≤ 1000000000)
    && inR (s.get F.BEAT_HOLD_CFG_START_WAIT) 1 600 && inR (s.get F.BEAT_HOLD_CFG_SYNC_TMO) 1 15
    && inR (s.get F.BEAT_HOLD_CFG_HOLD_TIME) 1 3600

/-- The generator stops: edges end, the quality reads UNSET, requests are dropped (R35). -/
def State.beatStop (s : State) : State :=
  let s := (((s.put F.BEAT_CTRL_EN 0).put F.BEAT_STATUS_RUNNING 0).put F.BEAT_TQ_TQ 0).put F.BEAT_CTRL_RESEAT 0
  let s := s.put F.BEAT_STATUS_RESEAT_BUSY 0
  s.setBt fun x => { x with reqPend := none, reseatPend := none, startDue := false, syncDue := false, holdDue := false,
                            running := false, decision := none, dispatchOpen := false }

/-- The generator starts in UNSET: device time and the provisional count start at zero (R35). -/
def State.beatStart (s : State) : State :=
  let s := ((s.flag F.BEAT_CTRL_EN).flag F.BEAT_STATUS_RUNNING).put F.BEAT_STATUS_CFG_ERR 0
  let s := ((s.put F.BEAT_TQ_TQ 0).put F.BEAT_NUM 0)
  { s with dev := 0 }.setBt fun x =>
    { x with next := 0, startAt := s.clk, startDue := false, syncDue := false, holdDue := false, running := false,
             res := BeatRes.init, decision := none }

/-- R40: a write of 1 to RESEAT takes the offset, unless a request already stands. Where EN = 1 is refused in the same write
under R21, the request stands and RESEAT reads 1 until the first edge after a later start (DESIGN CHOICE, assumption log 130). -/
def reseatRequest (s : State) : State :=
  if s.bit F.BEAT_CTRL_RESEAT then s
  else (s.flag F.BEAT_CTRL_RESEAT).setBt fun x => { x with reseatPend := some (toSigned 64 (s.get F.BEAT_RESEAT_OFS)) }

/-- A write of BEAT_CTRL (R21, R40, R559). With EN = 0 a request written at once is dropped, as R40 says of one that stands. -/
def beatCtrlWrite (d : Nat) (s : State) : State :=
  let s := if s.bit F.BEAT_CTRL_EN then
      (if bitOf d 1 == s.bit F.BEAT_CTRL_PPS_OUT_EN then s else (s.flag F.BEAT_STATUS_WIGN).put F.BEAT_WIGN_ADDR 0)
    else s.putB F.BEAT_CTRL_PPS_OUT_EN (bitOf d 1)
  if !bitOf d 0 then s.beatStop
  else
    let s : State :=
      if s.bit F.BEAT_CTRL_EN then s
      else if s.beatCfgOk then s.beatStart
      else (s.flag F.BEAT_STATUS_CFG_ERR).raiseBeat 0x100B 0 0
    if bitOf d 2 then reseatRequest s else s

def execBeatEnable (m : Master) (d : Nat) (s : State) : Res := fin (s.regWrite m 0x100000 (beatCtrlWrite d))
def execReseatRequest (m : Master) (d : Nat) (s : State) : Res := fin (s.regWrite m 0x100000 (beatCtrlWrite d))

/-- A write of BEAT_TQ: RESEAT_TGT, and a request where REQ is not zero (R35). -/
def beatTqWrite (d : Nat) (s : State) : State :=
  let s := s.put F.BEAT_TQ_RESEAT_TGT (bitsOf d 8 3)
  if bitsOf d 4 3 = 0 then s else s.setBt fun x => { x with reqPend := some (bitsOf d 4 3) }

def execTqRequest (m : Master) (d : Nat) (s : State) : Res := fin (s.regWrite m 0x10001C (beatTqWrite d))

/-- The clamp of R37 in units of 2^-8 ppb. -/
def adjMax : Int := 51200000

/-- A write of BEAT_FREQ_ADJ (R37): stored clamped, in force from the next edge; it restarts the watchdog in LOCKED (R35). -/
def freqAdjWrite (v : Nat) (s : State) : State :=
  let i := toSigned 32 v
  let c := max (-adjMax) (min adjMax i)
  let s := (s.put F.BEAT_FREQ_ADJ (ofSigned 32 c)).setBt fun x => { x with syncAt := if s.tq = 1 then s.clk else x.syncAt }
  if c = i then s else (s.flag F.BEAT_STATUS_ADJ_CLAMP).raiseBeat 0x100A 0 0

def execFreqAdjWrite (m : Master) (v dt : Nat) (s : State) : Res :=
  fin ((s.elapse dt).regWrite m 0x100040 (freqAdjWrite v))

/-! Timers of R35: each expiry makes its transition due at the next edge. -/

def State.startElapsed (s : State) : Bool :=
  s.bt.startDue || decide (s.clk ≥ s.bt.startAt + s.get F.BEAT_HOLD_CFG_START_WAIT * 1000000000)
def State.syncElapsed (s : State) : Bool :=
  s.bt.syncDue || decide (s.clk ≥ s.bt.syncAt + s.get F.BEAT_HOLD_CFG_SYNC_TMO * 1000000000)
def State.holdElapsed (s : State) : Bool :=
  s.bt.holdDue || decide (s.clk ≥ s.bt.holdAt + s.get F.BEAT_HOLD_CFG_HOLD_TIME * 1000000000)

def execSyncTmoExpiry (dt : Nat) (s : State) : Res :=
  let s := s.elapse dt
  fin (if s.tq = 1 && s.bit F.BEAT_CTRL_EN && s.syncElapsed then s.setBt fun x => { x with syncDue := true } else s)

def execHoldTimeExpiry (dt : Nat) (s : State) : Res :=
  let s := s.elapse dt
  fin (if s.tq = 2 && s.bit F.BEAT_CTRL_EN && s.holdElapsed then s.setBt fun x => { x with holdDue := true } else s)

def execStartWaitExpiry (dt : Nat) (s : State) : Res :=
  let s := s.elapse dt
  fin (if s.tq = 0 && s.bit F.BEAT_CTRL_EN && s.bit F.BEAT_CFG_FREE_START && s.startElapsed then
    s.setBt fun x => { x with startDue := true } else s)

/-! Transitions at an edge (R35, R617). -/

/-- What happens to the quality at an edge. -/
inductive TqMove where
  | stay
  | goto (q : Nat)
  | freeStart
  | reseat (ofs : Int) (tgt : Nat)
  | reopen
  deriving DecidableEq, Repr

/-- A reseat is allowed from quality `q` to target `t` (R35, R617). -/
def reseatAllowed (q t : Nat) : Bool := (q = 0 && t = 1) || (tqRuns q && (t = 1 || t = 3))

/-- A request `r` is allowed from quality `q` (the table of R35). -/
def reqAllowed (q r : Nat) : Bool :=
  (q = 1 && r = 2) || (q = 2 && (r = 1 || r = 3)) || (q = 3 && r = 1)

/-- The transition that a timer makes due from the present quality (R35). -/
def State.timerMove (s : State) : TqMove :=
  if s.tq = 0 && s.bit F.BEAT_CFG_FREE_START && s.startElapsed then .freeStart
  else if s.tq = 1 && s.syncElapsed then .goto 2
  else if s.tq = 2 && s.holdElapsed then .goto 3
  else .stay

/-- The move at the edge of beat `b`, in the order of R617, and whether the timer caused it. -/
def State.tqMove (s : State) (b : Nat) : TqMove × Bool :=
  let tgt := s.get F.BEAT_TQ_RESEAT_TGT
  match s.bt.reseatPend with
  | some o =>
    if reseatAllowed s.tq tgt then (.reseat o tgt, false)
    else match s.bt.reqPend with
      | some r => if reqAllowed s.tq r then (.goto r, false) else (s.timerMove, true)
      | none => (s.timerMove, true)
  | none =>
    if s.tq = 4 then
      (if s.get F.BEAT_LAST_ISSUED < b then .reopen else .stay, false)
    else match s.bt.reqPend with
      | some r => if reqAllowed s.tq r then (.goto r, false) else (s.timerMove, true)
      | none => (s.timerMove, true)

/-- Enter quality `q`: event 0x1001 on a change, timers started or stopped as the state requires (R35). -/
def State.enterTq (s : State) (q : Nat) : State :=
  let old := s.tq
  let s := (s.put F.BEAT_TQ_TQ q).putB F.BEAT_STATUS_RESEAT_BUSY (q == 4)
  if old = q then s
  else
    let s := (s.flag F.BEAT_STATUS_TQ_CHG).raiseBeat 0x1001 old 0
    s.setBt fun x => { x with
      syncAt := if q = 1 then s.clk else x.syncAt, syncDue := false,
      holdAt := if q = 2 then s.clk else x.holdAt, holdDue := false, startDue := false }

/-- A refused request sets TQ_REFUSED (R35, R617). -/
def State.reqRefused (s : State) (mv : TqMove) : Bool :=
  match s.bt.reqPend with
  | none => false
  | some r => !(match mv with | .goto q => q == r && reqAllowed s.tq r | _ => false)

/-- The quality at the edge of beat `b` (R35, R617): the state after it, the beat number of the edge, and whether open
windows are discarded by a reseat. Of the transitions due, the reseat comes first, then REQ, then a timer (State.tqMove); a
request that loses to a reseat sets TQ_REFUSED (State.reqRefused); a timer that loses flags and raises nothing; a reseat not
allowed sets TQ_REFUSED and returns RESEAT to 0, and quality and device time stay. -/
def State.tqEdge (s : State) (b : Nat) : State × Nat × Bool :=
  let (mv, timer) := s.tqMove b
  let refusedReseat := s.bt.reseatPend.isSome && !(match mv with | .reseat _ _ => true | _ => false)
  let s := s.when (s.reqRefused mv || refusedReseat) fun t => t.flag F.BEAT_STATUS_TQ_REFUSED
  let s := s.when refusedReseat fun t => t.put F.BEAT_CTRL_RESEAT 0
  let s := s.setBt fun x => { x with reqPend := none, reseatPend := none }
  match mv with
  | .stay => (s, b, false)
  | .goto q =>
    let sync := timer && s.tq == 1
    let hold := timer && s.tq == 2
    let s := s.enterTq q
    let s := s.when sync fun t => (t.flag F.BEAT_STATUS_SYNC_TMO).raiseBeat 0x1003 0 0
    let s := s.when hold fun t => t.raiseBeat 0x1002 0 0
    (s, b, false)
  | .freeStart =>
    let b' := s.get F.BEAT_LAST_ISSUED + 1
    let s := { s with dev := edgeNs s.rate b' * 2048000000000 }
    ((s.enterTq 3).setBt fun x => { x with next := b' }, b', false)
  | .reseat o tgt =>
    let counts := tqRuns s.tq
    let dev' := ((s.dev : Int) + o * 2048000000000).toNat
    let s := s.enterTq 4
    let s := s.raiseBeat 0x1008 (ofSigned 64 o % 2 ^ 32) (ofSigned 64 o / 2 ^ 32)
    let s := { s with dev := dev' }
    let nx := beatAfter s.rate (dev' / 2048000000000)
    (s.setBt fun x => { x with reseatTgt := tgt, reseatCounts := counts, next := nx }, nx - 1, true)
  | .reopen =>
    let s := s.enterTq s.bt.reseatTgt
    let s := (s.put F.BEAT_CTRL_RESEAT 0).raiseBeat 0x1009 (s.get F.BEAT_CNT_LOST) 0
    (s, b, false)

/-! The result word. -/

/-- BEAT_RESULT as a word. -/
def resWord (r : BeatRes) : Nat :=
  r.tq + 2 ^ 5 * b2n r.cutLate + 2 ^ 6 * b2n r.isSealed + 2 ^ 7 * b2n r.unpaired + 2 ^ 8 * b2n r.uncopied
    + 2 ^ 9 * b2n r.ackLate + 2 ^ 10 * b2n r.withheld + 2 ^ 11 * b2n r.emitted + 2 ^ 12 * b2n r.standby
    + 2 ^ 16 * min r.ovr 255

/-- The result of run beat `b` is published, with its counters and events 0x1004 to 0x1007 (R30, R618). -/
def State.publishResult (s : State) (b : Nat) (r : BeatRes) : State :=
  let s := ((s.put F.BEAT_RESULT_OVR_ITEMS (min r.ovr 255)).putB F.BEAT_RESULT_STANDBY r.standby).putB
    F.BEAT_RESULT_EMITTED r.emitted
  let s := ((s.putB F.BEAT_RESULT_WITHHELD r.withheld).putB F.BEAT_RESULT_ACK_LATE r.ackLate).putB
    F.BEAT_RESULT_UNCOPIED r.uncopied
  let s := ((s.putB F.BEAT_RESULT_UNPAIRED r.unpaired).putB F.BEAT_RESULT_SEALED r.isSealed).putB
    F.BEAT_RESULT_CUT_LATE r.cutLate
  let s := (s.put F.BEAT_RESULT_TQ r.tq).put F.BEAT_RESULT_NUM b
  let s := s.when r.withheld fun t => (t.bump F.BEAT_CNT_WITHHELD).raiseBeat 0x1004 (resWord r) 0
  let s := s.when r.uncopied fun t => (t.bump F.BEAT_CNT_UNCOPIED).raiseBeat 0x1005 0 0
  let s := s.when r.ackLate fun t => (t.bump F.BEAT_CNT_ACKLATE).raiseBeat 0x1006 0 0
  s.when r.cutLate fun t => (t.bump F.BEAT_CNT_CUTLATE).raiseBeat 0x1007 0 0

/-! PPS and the time registers. -/

/-- The signed offset of a time from the nearest whole second, as 32 bits (R44). -/
def ppsOffset (ns : Nat) : Nat :=
  let r := ns % 1000000000
  if r ≤ 500000000 then r else ofSigned 32 ((r : Int) - 1000000000)

def execPpsInEdge (dt : Nat) (s : State) : Res :=
  let s := s.elapse dt
  fin ((s.put F.BEAT_PPS (ppsOffset s.nowNs)).flag F.BEAT_STATUS_PPS_SEEN)

/-- The level of PPS_OUT (R43): high for 1 ms from its rise. -/
def State.ppsOut (s : State) : Bool :=
  match s.bt.ppsAt with
  | some t => decide (s.clk < t + 1000000)
  | none => false

/-- Device time lies within 5 ns of a whole second (R43). -/
def State.wholeSecond (s : State) : Bool := decide ((s.nowNs + 5) % 1000000000 ≤ 10)

/-- R43: at a whole second of device time PPS_OUT rises, when it is enabled and the quality is not UNSET. -/
def ppsOutPulse (dt : Nat) (s : State) : State :=
  let s := s.elapse dt
  if s.bit F.BEAT_CTRL_PPS_OUT_EN && s.tq != 0 && s.wholeSecond && !s.ppsOut then
    (s.emit .ppsPulse).setBt fun x => { x with ppsAt := some s.clk }
  else s

def execPpsOutPulse (dt : Nat) (s : State) : Res := fin (ppsOutPulse dt s)

/-- A read of BEAT_TIME_NS returns the nanoseconds and latches the seconds for that master (R562). -/
def beatTimeRead (m : Master) (s : State) : State :=
  let sec := s.nowNs / 1000000000 % 2 ^ 48
  let s := s.ret (s.nowNs % 1000000000)
  (s.latch m 0x100034 (sec % 2 ^ 32)).latch m 0x100038 (sec / 2 ^ 32)

def execBeatTimeRead (m : Master) (dt : Nat) (s : State) : Res :=
  fin ((s.elapse dt).regReadLatch m 0x100030 (beatTimeRead m))

end Sys2Proof.Machine
end

