-- ==== Sys2Proof/Machine/Ports.lean ====
section
/-! DEFINITION. Ports, lanes and redundancy pairs (chapter 2): layout checks (R50 to R52, R70), the link state machine
(R59, R60), reference and PLL faults (R67, R68), node tables and duplicate discard (R61 to R66). -/

namespace Sys2Proof.Machine

/-- Fields of port `n`, of lane `n` and of redundancy pair `m`. -/
def pt (f : Fld) (n : Nat) : Fld := f.shift (0x1000 * n)
def ln (f : Fld) (n : Nat) : Fld := f.shift (0x400 * n)
def rd (f : Fld) (m : Nat) : Fld := f.shift (0x40 * m)

def State.port (s : State) (n : Nat) : PortSt := Table.at PortSt.init n s.prt.ports
def State.setPort (s : State) (n : Nat) (g : PortSt → PortSt) : State :=
  s.setPrt fun x => { x with ports := Table.modify PortSt.init n g s.prt.ports }
def State.red (s : State) (m : Nat) : RedSt := Table.at RedSt.init m s.prt.reds
def State.setRed (s : State) (m : Nat) (g : RedSt → RedSt) : State :=
  s.setPrt fun x => { x with reds := Table.modify RedSt.init m g s.prt.reds }

/-! Layout. -/

/-- Lanes of a port from LANES: 0 one, 1 two, 2 four; 3 names none (R70). -/
def laneCount (c : Nat) : Nat := if c = 3 then 0 else 2 ^ c

/-- Nominal rate in Gbit/s from SPEED. -/
def speedGbps (c : Nat) : Nat :=
  match c with
  | 0 => 1 | 1 => 10 | 2 => 25 | 3 => 50 | 4 => 100 | 5 => 200 | 6 => 400 | _ => 0

/-- The combinations of rate, lanes and FEC of R52. -/
def comboOk (speed lanes fec : Nat) : Bool :=
  match speed, lanes with
  | 0, 0 => fec = 0
  | 1, 0 => fec = 0 || fec = 1
  | 2, 0 => fec = 0 || fec = 1 || fec = 2
  | 3, 0 => fec = 3
  | 4, 2 => fec = 0 || fec = 2
  | 4, 1 => fec = 3
  | 4, 0 => fec = 3
  | 5, 2 => fec = 3
  | 5, 1 => fec = 3
  | 6, 2 => fec = 3
  | _, _ => false

def State.portSpeed (s : State) (n : Nat) : Nat := s.get (pt F.PORT_CFG_SPEED n)
def State.portBase (s : State) (n : Nat) : Nat := s.get (pt F.PORT_CFG_BASE_LANE n)
def State.portLaneCnt (s : State) (n : Nat) : Nat := laneCount (s.get (pt F.PORT_CFG_LANES n))
/-- The lanes of port `n` (R50). -/
def State.portLanes (s : State) (n : Nat) : List Nat := (List.range (s.portLaneCnt n)).map (· + s.portBase n)
def State.enabledPorts (s : State) : List Nat := (List.range 96).filter s.portEn

/-- The rule that enabling port `n` would break: the codes of event 0x2007 (R50, R51, R52, R70), lowest first; LANES = 3 and
SPEED = 7 carry rule 6 whatever else they break. -/
def State.layoutFault (s : State) (n : Nat) : Option Nat :=
  let others := s.enabledPorts.filter (· != n)
  let mine := s.portLanes n
  let base := s.portBase n
  let cnt := s.portLaneCnt n
  if s.get (pt F.PORT_CFG_LANES n) = 3 ∨ s.portSpeed n = 7 then some 6
  else if others.any fun o => (s.portLanes o).any mine.contains then some 1
  else if base % cnt ≠ 0 ∨ base / 16 ≠ (base + cnt - 1) / 16 then some 2
  else if others.length ≥ 96 then some 3
  else if (others.filter fun o => s.portGroup o == s.portGroup n).length ≥ 16 then some 4
  else if ((n :: others).map fun o => speedGbps (s.portSpeed o)).sum > 12800 then some 5
  else if !comboOk (s.portSpeed n) (s.get (pt F.PORT_CFG_LANES n)) (s.get (pt F.PORT_CFG_FEC n)) then some 6
  else if s.get (pt F.PORT_CFG_VLAN_MODE n) = 3 ∨ s.get (pt F.PORT_CFG_PTP_ROLE n) = 3 then some 8
  else none

/-! The link state machine (R59). States: 0 disabled, 1 TRAINING, 2 UP_PENDING, 3 UP, 4 HELD. -/

def State.lstate (s : State) (n : Nat) : Nat := s.get (pt F.PORT_STATUS_LSTATE n)
def State.setLstate (s : State) (n v : Nat) : State := s.put (pt F.PORT_STATUS_LSTATE n) v

/-- FEC_ALIGN reads 1 while no FEC is in use (PORT_STATUS). -/
def State.showFec (s : State) (n : Nat) : State :=
  if s.get (pt F.PORT_CFG_FEC n) = 0 then s.flag (pt F.PORT_STATUS_FEC_ALIGN n) else s

/-- PORT_STATUS as a word (R72). -/
def State.portStatusWord (s : State) (n : Nat) : Nat :=
  (s.showFec n).readFields ([F.PORT_STATUS_RED_MEMBER, F.PORT_STATUS_LSTATE, F.PORT_STATUS_REMOTE_FAULT, F.PORT_STATUS_LOCAL_FAULT,
    F.PORT_STATUS_FEC_ALIGN, F.PORT_STATUS_PCS_LOCK, F.PORT_STATUS_LINK_CHG, F.PORT_STATUS_WIGN].map fun f => pt f n) 0

/-! Egress queues (R272 to R274). -/

/-- The queue of a class; 8 stands for forwarded slabs. -/
def clsQueue (c : Nat) : Nat :=
  match c with
  | 0 => 7
  | 1 => 5
  | 2 => 4
  | 8 => 3
  | _ => 2

/-- The length of a frame on the wire, FCS included. -/
def wireOf (f : OutFrame) : Nat := f.bytes.length + 4

/-- A supervision frame before its FCS: an Ethernet frame has at most 1,518 bytes (assumption log 133). -/
def supervisionBytes (mac mode seq : Nat) : List Byte := (Config.supervisionFrame mac mode seq).take 1514

def State.eq (s : State) (n : Nat) : List OutFrame := Table.at [] n s.egress
def State.setEq (s : State) (n : Nat) (l : List OutFrame) : State := { s with egress := Table.put [] n l s.egress }

/-- Bytes of the egress buffer in use. -/
def State.eqUsed (s : State) (n : Nat) : Nat :=
  ((s.eq n).map wireOf).sum + (((s.port n).tx.map fun x => wireOf x.1).getD 0)

/-- A frame is dropped for want of buffer. -/
def State.qdrop (s : State) (n : Nat) (f : OutFrame) : State :=
  let s := (s.bump F.SEAL_CNT_QDROP).reportFrame 4 f.info none
  s.limited 0x9006 n 1 fun k t => t.raise 0x9006 177 n f.prio k 0

/-- The youngest frame of the lowest non-empty queue below `q`, as its place in the list. -/
def youngest (l : List OutFrame) (q : Nat) : Option Nat :=
  let below := (l.map (·.prio)).filter fun p => decide (p < q)
  match below with
  | [] => none
  | p :: ps =>
    let low := ps.foldl min p
    ((List.range l.length).reverse).find? fun i => (l.map (·.prio)).getD i 8 == low

/-- Make room for a frame by dropping younger ones of lower queues (R274). -/
def State.makeRoom (s : State) (n : Nat) (f : OutFrame) : Nat → State
  | 0 => s
  | k + 1 =>
    if s.eqUsed n + wireOf f ≤ 262144 then s
    else match youngest (s.eq n) f.prio with
      | none => s
      | some i =>
        match (s.eq n)[i]? with
        | none => s
        | some g => ((s.setEq n ((s.eq n).eraseIdx i)).qdrop n g).makeRoom n f k

/-- The transmit time of a frame that starts now: the first bit after the preamble, with the egress asymmetry (R57;
assumption log 72). -/
def State.txTime (s : State) (n : Nat) : Nat :=
  ((s.nowNs : Int) + (64 / speedGbps (s.portSpeed n) : Nat) + toSigned 16 (s.get (pt F.PORT_TS_ASYM_EGR n))).toNat

/-- `bs` with the bytes `v` at `o`. -/
def setAt (bs : List Byte) (o : Nat) (v : List Byte) : List Byte := bs.take o ++ v ++ bs.drop (o + v.length)
/-- Where a PTP message starts in a frame: after EtherType 0x88F7, with or without an IEEE 802.1Q tag (R42); 0 in no other. -/
def ptpAt (bs : List Byte) : Nat :=
  if beAt bs 12 2 = 0x88F7 then 14 else if beAt bs 12 2 = 0x8100 ∧ beAt bs 16 2 = 0x88F7 then 18 else 0

/-- The frame holds a PTP event message: messageType 0 to 3 of IEEE 1588-2019 (PRESUMED, assumption log 133). -/
def ptpEvent (f : OutFrame) : Bool := f.prio == 6 && ptpAt f.bytes != 0 && decide (beAt f.bytes (ptpAt f.bytes) 1 % 16 < 4)

/-- A one-step Sync carries its transmit time (R57): in originTimestamp, seconds then nanoseconds. -/
def State.oneStep (s : State) (n t : Nat) (f : OutFrame) : OutFrame :=
  let o := ptpAt f.bytes
  if ptpEvent f && beAt f.bytes o 1 % 16 == 0 && !s.bit (pt F.PORT_CFG_TWO_STEP n) then
    { f with bytes := setAt f.bytes (o + 34) (beBytes 6 (t / 1000000000) ++ beBytes 4 (t % 1000000000)) }
  else f

/-- The oldest frame of the highest non-empty queue starts when the port is not transmitting (R273) and its transmitter is not
held idle (PORT_CTRL.TX_DISABLE). -/
def State.startTx (s : State) (n : Nat) : State :=
  if s.lstate n ≠ 3 ∨ (s.port n).tx.isSome ∨ s.bit (pt F.PORT_CTRL_TX_DISABLE n) then s
  else
    let l := s.eq n
    let top := (l.map (·.prio)).foldl max 0
    match l.findIdx? fun f => f.prio == top with
    | none => s
    | some i =>
      match l[i]? with
      | none => s
      | some f => (s.setEq n (l.eraseIdx i)).setPort n fun x => { x with tx := some (s.oneStep n (s.txTime n) f, s.txTime n) }

/-- A frame reaches a port: dropped when it is not UP (R60), else queued as the buffer allows. -/
def State.toPort (s : State) (n : Nat) (f : OutFrame) : State :=
  if s.lstate n ≠ 3 then (s.bump (pt F.PORT_CNT_TX_DOWN n)).reportFrame 2 f.info none
  else
    let s := s.makeRoom n f (s.eq n).length
    if s.eqUsed n + wireOf f ≤ 262144 then (s.setEq n (s.eq n ++ [f])).startTx n else s.qdrop n f

/-! Leaving UP, starting and stopping. -/

/-- Output frames queued on the port or in transmission are discarded, counted in TX_DOWN and reported PORT_DOWN when it leaves UP (R60,
R275). -/
def State.dropEgress (s : State) (n : Nat) : State :=
  let q := (((s.port n).tx.map (·.1)).toList) ++ Table.at [] n s.egress
  let s := { s.addTo (pt F.PORT_CNT_TX_DOWN n) q.length with egress := Table.erase n s.egress }
  let s := s.setPort n fun x => { x with tx := none }
  s.each q fun f t => t.reportFrame 2 f.info none

/-- The port leaves UP: LINK_DOWN, LINK_CHG, event 0x2002, and its queued frames go (R59, R60). -/
def State.leaveUp (s : State) (n dst : Nat) : State :=
  let s := (s.bump (pt F.PORT_CNT_LINK_DOWN n)).flag (pt F.PORT_STATUS_LINK_CHG n)
  let s := (s.setLstate n dst).dropEgress n
  let s := s.setPort n fun x => { x with faultAt := none }
  s.raise 0x2002 n n (s.portStatusWord n) 0 0

/-- Start the port: lanes assigned, TRAINING, with link training still to run where it is selected (R53, R59). -/
def State.portStart (s : State) (n : Nat) : State :=
  let s := (s.flag (pt F.PORT_CTRL_EN n)).setLstate n 1
  let s := s.setPort n fun x => { x with faultAt := none, downs := [] }
  s.each (s.portLanes n) fun l t => (t.put (ln F.LANE_STATUS_TRAIN_DONE l) 0).flag (ln F.LANE_STATUS_ASSIGNED l)

/-- Stop the port: disabled from any state, its transmitter in electrical idle (R59, R60). -/
def State.portStop (s : State) (n : Nat) : State :=
  if !s.bit (pt F.PORT_CTRL_EN n) then s
  else
    let s := s.each (s.portLanes n) fun l t => (t.put (ln F.LANE_STATUS_TRAIN_DONE l) 0).put (ln F.LANE_STATUS_ASSIGNED l) 0
    let s := s.when (s.lstate n == 3) fun t => t.leaveUp n 0
    let s := (s.put (pt F.PORT_CTRL_EN n) 0).setLstate n 0
    ((s.put (pt F.PORT_STATUS_PCS_LOCK n) 0).put (pt F.PORT_STATUS_FEC_ALIGN n) 0).setPort n fun _ => PortSt.init

/-- HELD ends at once (R59). -/
def portUnhold (n : Nat) (s : State) : State :=
  if s.lstate n = 4 then (s.setLstate n 1).setPort n fun x => { x with downs := [] } else s

/-- The frame in transmission is cut off, and is lost as under R60 (TX_DISABLE; DESIGN CHOICE, assumption log 132). -/
def State.txCut (s : State) (n : Nat) : State :=
  match (s.port n).tx with
  | none => s
  | some (f, _) => ((s.setPort n fun x => { x with tx := none }).bump (pt F.PORT_CNT_TX_DOWN n)).reportFrame 2 f.info none

/-- A write of PORT_CTRL (R59, R69, R70). -/
def portCtrlWrite (n d : Nat) (s : State) : State :=
  let s := s.putB (pt F.PORT_CTRL_TX_DISABLE n) (bitOf d 1)
  let s := if bitOf d 1 then s.txCut n else s.startTx n
  let s : State :=
    if !bitOf d 0 then s.portStop n
    else if s.bit (pt F.PORT_CTRL_EN n) then s
    else match s.layoutFault n with
      | some r => s.raise 0x2007 n n r 0 0
      | none => s.portStart n
  if bitOf d 2 then portUnhold n s else s

def execPortEnable (m : Master) (n : Fin 96) (d : Nat) (s : State) : Res :=
  fin (s.regWrite m (0x200000 + 0x1000 * n) (portCtrlWrite n d))
def execPortUnhold (m : Master) (n : Fin 96) (d : Nat) (s : State) : Res :=
  fin (s.regWrite m (0x200000 + 0x1000 * n) (portCtrlWrite n d))

/-- The reference clock of the lane group is absent (R67). -/
def State.lrefGone (s : State) (g : Nat) : Bool := s.prt.lrefAbsent.contains g

/-- Lane `l` of port `n` trains: TRAIN is set, and the port's rate has a clause for training, which 1 GbE has not (R53). -/
def State.trains (s : State) (n l : Nat) : Bool := s.portSpeed n != 0 && s.bit (ln F.LANE_CFG_TRAIN l)

/-- Every lane of the port that trains has finished training (R53, R619). -/
def State.trained (s : State) (n : Nat) : Bool :=
  (s.portLanes n).all fun l => !s.trains n l || s.bit (ln F.LANE_STATUS_TRAIN_DONE l)

/-- What a lock says of a powered lane: a signal, a recovered clock, and a transmit PLL in lock (R71; assumption log 134). -/
def State.laneLocked (s : State) (l : Nat) : State :=
  if s.bit (ln F.LANE_CTRL l) then
    ((s.flag (ln F.LANE_STATUS_SIG_DET l)).flag (ln F.LANE_STATUS_CDR_LOCK l)).flag (ln F.LANE_STATUS_PLL_LOCK l)
  else s

/-- A lane loses CDR lock, counted where it had it (R71). -/
def State.cdrLost (s : State) (l : Nat) : State :=
  if s.bit (ln F.LANE_STATUS_CDR_LOCK l) then (s.put (ln F.LANE_STATUS_CDR_LOCK l) 0).bump (ln F.LANE_CNT_CDR_LOSS l) else s

/-- PCS lock and FEC alignment without local fault: TRAINING becomes UP_PENDING; in UP a fault that had not lasted
DOWN_DEB ends (R59). A group without its reference does not lock (R67). -/
def pcsLock (n : Nat) (s : State) : State :=
  if s.lstate n = 0 ∨ s.lrefGone (s.portGroup n) ∨ !s.trained n then s
  else
    let s := ((s.flag (pt F.PORT_STATUS_PCS_LOCK n)).flag (pt F.PORT_STATUS_FEC_ALIGN n)).put
      (pt F.PORT_STATUS_LOCAL_FAULT n) 0
    let s := s.each (s.portLanes n) fun l t => t.laneLocked l
    let s := s.setPort n fun x => { x with faultAt := none }
    if s.lstate n = 1 then (s.setLstate n 2).setPort n fun x => { x with upAt := s.clk } else s

def execPcsLock (n : Fin 96) (dt : Nat) (s : State) : Res := fin (pcsLock n (s.elapse dt))

/-- Link training of the port's lanes completes (R53, R619). -/
def linkTrainingDone (n : Nat) (s : State) : State :=
  s.each ((s.portLanes n).filter fun l => s.trains n l && s.bit (ln F.LANE_CTRL l)) fun l t =>
    (t.flag (ln F.LANE_STATUS_TRAIN_DONE l)).laneLocked l

def execLinkTrainingDone (n : Fin 96) (s : State) : Res :=
  fin (if s.lstate n = 1 then linkTrainingDone n s else s)

/-- UP_HOLD has passed without fault (R59). -/
def upHoldExpiry (n dt : Nat) (s : State) : State :=
  let s := s.elapse dt
  if s.lstate n = 2 ∧ s.clk - (s.port n).upAt ≥ s.get (pt F.PORT_LINK_CFG_UP_HOLD n) * 1000000 then
    ((s.setLstate n 3).flag (pt F.PORT_STATUS_LINK_CHG n)).raise 0x2001 n n 0 0 0
  else s

def execUpHoldExpiry (n : Fin 96) (dt : Nat) (s : State) : Res := fin (upHoldExpiry n dt s)

/-- A fault appears on a port (R59): UP_PENDING falls back at once; in UP its debounce starts. `kind`: 0 loss of PCS lock, 1 of
FEC alignment (none where no FEC is in use), 2 of signal, 3 local fault; bit `i` of `lanes` says that lane `i` of the port lost
its recovered clock, and with kind 2 its signal. -/
def State.portFault (s : State) (n kind lanes : Nat) : State :=
  if s.lstate n = 0 ∨ (kind = 1 ∧ s.get (pt F.PORT_CFG_FEC n) = 0) then s
  else
    let hit := (s.portLanes n).filter fun l => bitOf lanes (l - s.portBase n)
    let s := s.when (kind == 0 || kind == 2) fun t => t.each hit fun l u => u.cdrLost l
    let s := s.when (kind == 2) fun t => t.each hit fun l u => u.put (ln F.LANE_STATUS_SIG_DET l) 0
    let s := if kind = 3 then s.flag (pt F.PORT_STATUS_LOCAL_FAULT n)
      else if kind = 1 then s.put (pt F.PORT_STATUS_FEC_ALIGN n) 0
      else s.put (pt F.PORT_STATUS_PCS_LOCK n) 0
    if s.lstate n = 2 then s.setLstate n 1
    else if s.lstate n = 3 ∧ (s.port n).faultAt = none then s.setPort n fun x => { x with faultAt := some s.clk }
    else s

def execLinkFault (n : Fin 96) (kind : Fin 4) (dt : Nat) (s : State) (lanes : Nat := 0) : Res :=
  fin ((s.elapse dt).portFault n kind lanes)

/-- A fault has lasted DOWN_DEB: the port leaves UP, for HELD when the downs within FLAP_WIN reach FLAP_N (R59). -/
def downDebExpiry (n dt : Nat) (s : State) : State :=
  let s := s.elapse dt
  match (s.port n).faultAt with
  | none => s
  | some t =>
    if s.lstate n = 3 ∧ s.clk - t ≥ s.get (pt F.PORT_LINK_CFG_DOWN_DEB n) * 1000 then
      let win := s.get (pt F.PORT_FLAP_CFG_FLAP_WIN n) * 1000000000
      let downs := s.clk :: (s.port n).downs.filter fun d => decide (s.clk - d ≤ win)
      let s := s.setPort n fun x => { x with downs := downs }
      if downs.length ≥ s.get (pt F.PORT_FLAP_CFG_FLAP_N n) then
        ((s.leaveUp n 4).setPort n fun x => { x with heldAt := s.clk }).raise 0x2003 n n 0 0 0
      else s.leaveUp n 1
    else s

def execDownDebExpiry (n : Fin 96) (dt : Nat) (s : State) : Res := fin (downDebExpiry n dt s)

/-- FLAP_HOLD has passed in HELD (R59). -/
def flapHoldExpiry (n dt : Nat) (s : State) : State :=
  let s := s.elapse dt
  if s.lstate n = 4 ∧ s.clk - (s.port n).heldAt ≥ s.get (pt F.PORT_FLAP_CFG_FLAP_HOLD n) * 1000000000 then
    portUnhold n s
  else s

def execFlapHoldExpiry (n : Fin 96) (dt : Nat) (s : State) : Res := fin (flapHoldExpiry n dt s)

/-- A remote fault is reported and takes nothing down (R59). -/
def execRemoteFault (n : Fin 96) (present : Bool) (s : State) : Res :=
  fin (s.putB (pt F.PORT_STATUS_REMOTE_FAULT n) present)

/-- LREFg is absent or returns: event 0x3002 once for the group (R67), watched only while the group's domain is ON, and
for group 0 also while PD18 is ON (R584). The lanes of the group lose lock, and their ports take the fault path of R59; with the
reference the PLLs of the powered lanes lock again. -/
def lrefFault (g : Nat) (absent : Bool) (s : State) : State :=
  let watched := s.domState (g + 1) == 0 || (g == 0 && s.domState 18 == 0)
  let lanes := (List.range 16).map (· + 16 * g)
  if !absent then
    if !s.lrefGone g then s
    else
      let s := s.setPrt fun x => { x with lrefAbsent := s.prt.lrefAbsent.filter (· != g) }
      s.each (lanes.filter fun l => s.bit (ln F.LANE_CTRL l)) fun l t => t.flag (ln F.LANE_STATUS_PLL_LOCK l)
  else if !watched || s.lrefGone g then s
  else
    let s := s.setPrt fun x => { x with lrefAbsent := g :: s.prt.lrefAbsent }
    let s := s.each lanes fun l t => (t.put (ln F.LANE_STATUS_PLL_LOCK l) 0).cdrLost l
    let s := s.each (s.enabledPorts.filter fun n => s.portGroup n == g) fun n t => t.portFault n 0 0
    s.raise 0x3002 (96 + g) g 0 0 0

def execLrefFault (g : Fin 8) (absent : Bool) (s : State) : Res := fin (lrefFault g absent s)

/-- A lane's PLL loses lock: its port takes the fault path (R68). -/
def pllLoss (l : Nat) (s : State) : State :=
  let s := (s.put (ln F.LANE_STATUS_PLL_LOCK l) 0).raise 0x3001 (96 + laneGroup l) l 0 0 0
  match s.enabledPorts.find? fun n => (s.portLanes n).contains l with
  | none => s
  | some n => s.portFault n 0 0

def execPllLossOfLock (l : Fin 128) (dt : Nat) (s : State) : Res := fin (pllLoss l (s.elapse dt))

/-- A write of LANE_CTRL.EN powers and starts the lane, or stops it (R71); its PLL locks while its reference is
present (R67). -/
def laneCtrlWrite (l d : Nat) (s : State) : State :=
  let en := bitOf d 0
  let s := (s.putB (ln F.LANE_CTRL l) en).putB (ln F.LANE_STATUS_PLL_LOCK l) (en && !s.lrefGone (laneGroup l))
  if en then s
  else ((s.put (ln F.LANE_STATUS_TRAIN_DONE l) 0).put (ln F.LANE_STATUS_CDR_LOCK l) 0).put (ln F.LANE_STATUS_SIG_DET l) 0

def execLaneEnable (m : Master) (l : Fin 128) (d : Nat) (s : State) : Res :=
  fin (s.regWrite m (0x300000 + 0x400 * l) (laneCtrlWrite l d))

/-! Redundancy pairs. -/

def State.redMode (s : State) (m : Nat) : Nat := s.get (rd F.RED_CFG_MODE m)
def State.redA (s : State) (m : Nat) : Nat := s.get (rd F.RED_CFG_PORT_A m)
def State.redB (s : State) (m : Nat) : Nat := s.get (rd F.RED_CFG_PORT_B m)
/-- Pairs in use. -/
def State.redPairs (s : State) : List Nat := (List.range 48).filter fun m => s.redMode m != 0

/-- The pair that a port belongs to, and its LAN there (0 A, 1 B), while the redundancy table is enabled. -/
def State.pairOf (s : State) (n : Nat) : Option (Nat × Nat) :=
  if !s.bit F.PORT_GLB_CTRL then none
  else match s.redPairs.find? fun m => s.redA m == n || s.redB m == n with
    | none => none
    | some m => some (m, if s.redA m = n then 0 else 1)

/-- A pair that refuses PORT_GLB_CTRL.EN: MODE 3, ports of different rate, HSR at another rate than 1, 10
or 25 GbE, one port twice, no such port, or a port of another pair (R61, RED_CFG). -/
def State.badPair (s : State) (m : Nat) : Bool :=
  let a := s.redA m
  let b := s.redB m
  s.redMode m == 3 || (s.redMode m == 2 && decide (2 < s.portSpeed a)) || decide (a ≥ 96) || decide (b ≥ 96) || a == b || s.portSpeed a != s.portSpeed b
    || s.redPairs.any fun k => k != m && (s.redA k == a || s.redA k == b || s.redB k == a || s.redB k == b)

/-- Entries of the whole device. -/
def State.nodeTotal (s : State) : Nat := (s.prt.reds.map fun e => e.2.nodes.length).sum

/-- RED_STATUS and PORT_GLB_NODES follow the tables; a FULL that returned to 0 re-arms event 0x2004 (R64). -/
def State.syncRed (s : State) : State :=
  let total := s.nodeTotal
  let s := s.put F.PORT_GLB_NODES total
  s.each (List.range 48) fun m t =>
    let k := (t.red m).nodes.length
    let full := decide (k ≥ t.get (rd F.RED_LIMIT m)) || decide (total ≥ 16384)
    let t := (t.put (rd F.RED_STATUS_NODES m) k).putB (rd F.RED_STATUS_FULL m) full
    if full || !(t.red m).fullSeen then t else t.setRed m fun x => { x with fullSeen := false }

/-- A write of PORT_GLB_CTRL.EN (R69): refused for an invalid pair with event 0x2007, rule 7. -/
def portGlbWrite (d : Nat) (s : State) : State :=
  if !bitOf d 0 then
    let s := s.put F.PORT_GLB_CTRL 0
    let s := s.each (List.range 96) fun n t => t.put (pt F.PORT_STATUS_RED_MEMBER n) 0
    (s.setPrt fun x => { x with reds := [] }).syncRed
  else if s.bit F.PORT_GLB_CTRL then s
  else match s.redPairs.find? s.badPair with
    | some m => s.raise 0x2007 (s.redA m) (s.redA m) 7 0 0
    | none =>
      let s := (s.freshLimits fun e => e.code == 0x2005).flag F.PORT_GLB_CTRL
      s.each s.redPairs fun m t =>
        ((t.flag (pt F.PORT_STATUS_RED_MEMBER (t.redA m))).flag (pt F.PORT_STATUS_RED_MEMBER (t.redB m))).setRed m fun x =>
          { x with lifeAt := t.clk }

def execPortGlbEnable (m : Master) (d : Nat) (s : State) : Res := fin (s.regWrite m 0x260000 (portGlbWrite d))

/-- The node entry of a sender. -/
def State.node (s : State) (m mac : Nat) : Option NodeEntry := (s.red m).nodes.find? fun e => e.mac == mac

/-- Change the node entry of a sender. -/
def State.setNode (s : State) (m mac : Nat) (g : NodeEntry → NodeEntry) : State :=
  s.setRed m fun x => { x with nodes := x.nodes.map fun e => if e.mac = mac then g e else e }

/-- Any frame of a sender keeps its entry alive (R61). -/
def State.nodeSeen (s : State) (m mac : Nat) : State := s.setNode m mac fun e => { e with lastAt := s.clk }

/-- A supervision frame creates or refreshes the sender's entry, unless a table is full (R61, R64). -/
def State.supervisionRx (s : State) (m mac : Nat) : State :=
  let s := s.bump (rd F.RED_CNT_SUPERV m)
  if (s.node m mac).isSome then s.nodeSeen m mac
  else if decide ((s.red m).nodes.length ≥ s.get (rd F.RED_LIMIT m)) || decide (s.nodeTotal ≥ 16384) then
    if (s.red m).fullSeen then s
    else (s.setRed m fun x => { x with fullSeen := true }).raise 0x2004 (s.redA m) m 0 0 0
  else (s.setRed m fun x => { x with nodes := ⟨mac, s.clk, []⟩ :: x.nodes }).syncRed

def State.forgetNs (s : State) (m : Nat) : Nat := s.get (rd F.RED_TIMES_ENTRY_FORGET m) * 1000000

/-- Enter a sequence number with its LAN in the sender's entry (R62). -/
def State.enterSeq (s : State) (m mac seq lan : Nat) : State :=
  s.setNode m mac fun e => { e with seqs := ((seq, lan, s.clk) :: e.seqs.filter fun x => x.1 != seq).take 256 }

/-- The entry holds the number, accepted from the other LAN (or from any, with `any`) within ENTRY_FORGET. -/
def State.seqHeld (s : State) (m mac seq lan : Nat) (anyLan : Bool) : Bool :=
  match s.node m mac with
  | none => false
  | some e => e.seqs.any fun x => x.1 == seq && (anyLan || x.2.1 != lan) && decide (s.clk - x.2.2 ≤ s.forgetNs m)

/-- R63: a small-traffic frame with a tag; false when it is a later copy, which is counted. -/
def State.unauthDup (s : State) (m mac seq lan : Nat) : State × Bool :=
  if (s.node m mac).isNone then (s, true)
  else if s.seqHeld m mac seq lan true then (s.bump (rd F.RED_CNT_UNAUTH_DUP m), false)
  else (s.enterSeq m mac seq lan, true)

/-- R65: an RCT that names the other LAN. -/
def State.wrongLan (s : State) (m : Nat) : State :=
  (s.bump (rd F.RED_CNT_WRONG_LAN m)).raiseLim m 0x2005 (s.redA m) m 0 0 0

/-- R66: forward a ring frame on the other port unless the ring table holds it for that direction (mode H, R61): the copy that
comes the other way round goes on as well. It enters an egress queue as every frame does (R60, R272; assumption log 132). -/
def State.ringForward (s : State) (m mac seq lan : Nat) (bytes : List Byte) : State :=
  let live := (s.red m).ring.filter fun x => decide (s.clk - x.2.2.2 ≤ s.forgetNs m)
  if live.any fun x => x.1 == mac && x.2.1 == seq && x.2.2.1 == lan then s.setRed m fun x => { x with ring := live }
  else
    let s := s.setRed m fun x => { x with ring := (mac, seq, lan, s.clk) :: live }
    s.toPort (if lan = 0 then s.redB m else s.redA m) ⟨6, none, bytes⟩

/-- Supervision frames go out on both ports of the pair every LIFE_CHECK seconds, under one sequence number (R61); their content
is that of IEC 62439-3, and their queue that of small traffic (assumption log 132). -/
def supervisionTx (m dt : Nat) (s : State) : State :=
  let s := s.elapse dt
  if !s.bit F.PORT_GLB_CTRL || s.redMode m = 0
      || decide (s.clk < (s.red m).lifeAt + s.get (rd F.RED_TIMES_LIFE_CHECK m) * 1000000000) then s
  else
    let q := (s.red m).txSeq
    let s := s.setRed m fun x => { x with txSeq := (x.txSeq + 1) % 2 ^ 16, lifeAt := s.clk }
    let send (n : Nat) (t : State) : State :=
      t.toPort n ⟨1, none, supervisionBytes (t.get (pt F.PORT_MAC n)) (t.redMode m) q⟩
    send (s.redB m) (send (s.redA m) s)

def execSupervisionTx (m : Fin 48) (dt : Nat) (s : State) : Res := fin (supervisionTx m dt s)

/-- A node entry is removed after NODE_FORGET seconds without a frame (R61). -/
def nodeForget (m mac dt : Nat) (s : State) : State :=
  let s := s.elapse dt
  let lim := s.get (rd F.RED_TIMES_NODE_FORGET m) * 1000000000
  (s.setRed m fun x => { x with nodes := x.nodes.filter fun e => e.mac != mac || decide (s.clk - e.lastAt < lim) }).syncRed

def execNodeForgetExpiry (m : Fin 48) (mac dt : Nat) (s : State) : Res := fin (nodeForget m mac dt s)

/-- Sequence numbers older than ENTRY_FORGET are forgotten (R61). -/
def entryForget (m mac dt : Nat) (s : State) : State :=
  let s := s.elapse dt
  s.setNode m mac fun e => { e with seqs := e.seqs.filter fun x => decide (s.clk - x.2.2 < s.forgetNs m) }

def execEntryForgetExpiry (m : Fin 48) (mac dt : Nat) (s : State) : Res := fin (entryForget m mac dt s)

end Sys2Proof.Machine
end

