-- ==== Sys2Proof/Machine/Loft.lean ====
section
/-! DEFINITION. The Loft (chapter 5): the record ring and its segments (R141 to R146), freezes (R147 to R151), export
(R152 to R155), enabling and recovery (R162 to R164), background test (R160, R161). -/

namespace Sys2Proof.Machine

def State.setLoft (s : State) (g : LoftSt → LoftSt) : State := { s with loft := g s.loft }

/-! Where segments and history lie (R138): a place is a megabyte of the HBM, 16,384 to a stack. The stack of segment `n` and
the part of each stack that holds history are R138's; which megabyte of the stack a segment or a megabyte of history takes
is the model's choice (assumption log 147). -/

/-- The place of segment `n`. -/
def segPlace (h n : Nat) : Nat := if h = 0 then 16384 * (n % 4) + n / 4 else 16384 * (2 * (h - 1) + n % 2) + n / 2

/-- The segment of the ring at place `p`. -/
def placeSeg (h p : Nat) : Option Nat :=
  let st := p / 16384
  let o := p % 16384
  if h = 0 then (if o < 12288 then some (4 * o + st) else none)
  else if st / 2 = h - 1 ∧ o < 8192 then some (2 * o + st % 2) else none

/-- The place of history megabyte `m`. -/
def histPlace (h m : Nat) : Nat :=
  if h = 0 then 16384 * (m / 4096) + 12288 + m % 4096 else 16384 * (2 * (h - 1) + m / 8192) + 8192 + m % 8192

/-- The half a place lies in: stacks 0 and 1, or 2 and 3. -/
def placeHalf (p : Nat) : Nat := p / 32768

/-- Segment `n` of the ring, and a change of it; the table of segments goes by place. -/
def State.seg (s : State) (n : Nat) : Segment := Table.at Segment.none (segPlace s.loft.halves n) s.loft.segs
def State.setPlace (s : State) (p : Nat) (g : Segment → Segment) : State :=
  s.setLoft fun x => { x with segs := Table.modify Segment.none p g x.segs }
def State.setSeg (s : State) (n : Nat) (g : Segment → Segment) : State := s.setPlace (segPlace s.loft.halves n) g

/-- A segment whose content is gone: what stays is that freezes pin it and that it is retired. -/
def Segment.lost (g : Segment) : Segment := { Segment.none with pins := g.pins, retired := g.retired }

/-- The segments at the places that `f` names lose their content. -/
def State.loseSegs (s : State) (f : Nat → Bool) : State :=
  s.setLoft fun x => { x with segs := x.segs.map fun e => if f e.1 then (e.1, e.2.lost) else e }

def State.frz (s : State) (i : Nat) : FrzSlot := Table.at FrzSlot.free i s.loft.slots
def State.setFrz (s : State) (i : Nat) (g : FrzSlot → FrzSlot) : State :=
  s.setLoft fun x => { x with slots := Table.modify FrzSlot.free i g x.slots }

/-- A 10-byte time as this chapter stores it (R143), read back in ns. -/
def timeAt (bs : List Byte) (o : Nat) : Nat := leAt bs o 4 + 1000000000 * leAt bs (o + 4) 6

/-! Entries (R143). -/

/-- An entry: its header with the CRC-32C over bytes 0 to 27 and the PDU, the PDU, and padding to 16 bytes. -/
def loftEntry (source pos tArr info typ : Nat) (pdu : List Byte) : List Byte :=
  let n := (32 + pdu.length + 15) / 16
  let h := leBytes 2 n ++ leBytes 2 pdu.length ++ leBytes 4 source ++ leBytes 8 pos ++ timeBytes tArr ++ leBytes 1 info
    ++ leBytes 1 typ
  h ++ leBytes 4 (crc32c (h ++ pdu)) ++ pdu ++ List.replicate (16 * n - 32 - pdu.length) 0

def entArr (e : List Byte) : Nat := timeAt e 16
def entTyp (e : List Byte) : Nat := leAt e 27 1
def entOwner (e : List Byte) : Nat := leAt e 7 1
/-- The CRC of an entry holds. -/
def entCrcOk (e : List Byte) : Bool := leAt e 28 4 == crc32c (e.take 28 ++ (e.drop 32).take (leAt e 2 2))

/-- Bytes of the record buffer (R141). -/
def loftBufMax : Nat := 16777216

/-- Segments of the ring for a value of HALVES (R138). -/
def ringSegs (h : Nat) : Nat := if h = 0 then 49152 else 16384

/-- Segments in service. -/
def State.ringLive (s : State) : Nat := s.get F.LOFT_RING_SEGMENTS

/-- An entry enters the record buffer, or is dropped and accounted for when it finds the buffer full (R141, R146). While the
Loft stays disabled after a failed training, the frame is counted (R164). -/
def State.loftEnter (s : State) (beat : Nat) (e : List Byte) : State :=
  if !s.bit F.LOFT_STATUS_RUNNING then
    s.when s.loft.untrained fun t => t.bump F.LOFT_CNT_NOREC
  else
    let extra := if s.loft.gap.isSome then 48 else 0
    if s.loft.bufBytes + e.length + extra ≤ loftBufMax then
      let g := match s.loft.gap with
        | none => []
        | some (n, t0, t1) => [(beat, loftEntry 0 n t0 0 2 (timeBytes t1 ++ List.replicate 6 0))]
      s.setLoft fun x => { x with buf := x.buf ++ g ++ [(beat, e)], bufBytes := x.bufBytes + e.length + extra, gap := none }
    else
      let t1 := entArr e
      let s := s.setLoft fun x => { x with gap := match x.gap with
        | none => some (1, t1, t1)
        | some (n, t0, _) => some (n + 1, t0, t1) }
      let s := (s.flag F.LOFT_STATUS_GAP).bump F.LOFT_CNT_GAP_FRAMES
      s.limited 0x6001 0 1 fun k t => t.raise 0x6001 107 0 0 k 0

/-! Pins (R149). -/

/-- Distinct pinned segments. -/
def State.pinned (s : State) : Nat := (s.loft.segs.filter fun e => decide (0 < e.2.pins)).length

/-- Pinning segment `n` would exceed the limit. -/
def State.pinOver (s : State) (n : Nat) : Bool :=
  (s.seg n).pins == 0 && decide ((s.pinned + 1) * 100 > s.get F.LOFT_CFG_PIN_MAX * s.ringLive)

def State.syncPinned (s : State) : State := s.put F.LOFT_RING_PINNED s.pinned

/-- Slot `i` pins segment `n`; a slot keeps the places it pins. -/
def State.pin (s : State) (i n : Nat) : State :=
  ((s.setSeg n fun x => { x with pins := x.pins + 1 }).setFrz i fun x =>
    { x with segs := segPlace s.loft.halves n :: x.segs }).syncPinned

/-- A slot enters HELD with flags added (R150): event 0x6003, the done source. -/
def State.hold (s : State) (i add : Nat) : State :=
  let s := s.setFrz i fun x => { x with st := 2, flags := x.flags ||| add }
  let f := s.frz i
  (s.raise 0x6003 107 i f.reason 0 f.flags).setDone 455

/-- Slots in COLLECTING. -/
def State.collecting (s : State) : List Nat := (List.range 16).filter fun i => (s.frz i).st == 1

/-- The header is valid: its SEQ is not zero and its CRC holds (R144). -/
def Segment.valid (g : Segment) : Bool := leAt g.hdr 0 8 != 0 && leAt g.hdr 60 4 == crc32c (g.hdr.take 60)

/-- Valid segments of the ring, newest first. -/
def segInsert (e : Nat × Segment) : List (Nat × Segment) → List (Nat × Segment)
  | [] => [e]
  | x :: t => if x.2.seq < e.2.seq then e :: x :: t else x :: segInsert e t
def State.segsNewest (s : State) : List (Nat × Segment) :=
  ((s.loft.segs.filterMap fun e => (placeSeg s.loft.halves e.1).map fun n => (n, e.2)).filter fun e =>
    e.2.seq != 0 && e.2.valid).foldl (fun a e => segInsert e a) []

/-- An entry whose T_ARR lies in the span. -/
def inSpan (lo hi : Nat) (e : List Byte) : Bool := entTyp e != 3 && decide (lo ≤ entArr e ∧ entArr e ≤ hi)

/-- A segment holds an entry of the span, or is the open one, into which entries of the span may still come. -/
def State.spanHas (s : State) (lo hi n : Nat) (g : Segment) : Bool :=
  g.ents.any (inSpan lo hi)
    || (s.loft.openSeg == some n && !g.closed && (decide (s.nowNs ≤ hi) || s.loft.buf.any fun e => inSpan lo hi e.2))

/-- T_ARR of the oldest entry held in the ring. -/
def State.oldestArr (s : State) : Nat :=
  (s.segsNewest.flatMap fun e => (e.2.ents.filter fun x => entTyp x != 3).map entArr).foldl min s.nowNs

def State.truncPre (s : State) (i : Nat) : State := s.setFrz i fun x => { x with flags := x.flags ||| 1 }

/-- Pre-trigger pinning from the newest backwards, to the limit or the oldest segment held (R149). -/
def State.pinPre (s : State) (i lo hi : Nat) : List (Nat × Segment) → State
  | [] => s.when (decide (lo < s.oldestArr)) fun t => t.truncPre i
  | (n, g) :: rest =>
    if !s.spanHas lo hi n g then s.pinPre i lo hi rest
    else if s.pinOver n then (s.flag F.LOFT_STATUS_PIN_FULL).truncPre i
    else (s.pin i n).pinPre i lo hi rest

/-- A freeze request (R147, R150): the state and the slot given, none when it is refused. `owner` is none for the
platform. -/
def State.freezeRequest (s : State) (source : Nat) (owner : Option Nat) (pre post reason tTrig bTrig : Nat) :
    State × Option Nat :=
  let held := (List.range 16).filter fun i => (s.frz i).st != 0 && bitOf (s.frz i).flags 3 == false
    && owner == some (s.frz i).slice
  let slot := (List.range 16).find? fun i => (s.frz i).st == 0
  let full := owner.isSome && decide (held.length ≥ s.get F.LOFT_CFG_SLICE_FRZ)
  match slot with
  | some i =>
    if full ∨ pre > 60000000 ∨ post > 60000000 then
      ((s.bump F.LOFT_CNT_FRZ_REFUSED).raise 0x6004 107 source reason 0 0, none)
    else
      let f : FrzSlot := ⟨1, if owner.isNone then 8 else 0, owner.getD 0, source, reason % 65536, tTrig, bTrig, pre, post, [],
        s.loft.openSeg⟩
      let s := s.setFrz i fun _ => f
      let s := s.pinPre i (tTrig - pre * 1000) (tTrig + post * 1000) s.segsNewest
      (s.raise 0x6002 107 i reason 0 0, some i)
  | none => ((s.bump F.LOFT_CNT_FRZ_REFUSED).raise 0x6004 107 source reason 0 0, none)

/-- The slot record of R151. -/
def FrzSlot.bytes (f : FrzSlot) : List Byte :=
  leBytes 1 f.st ++ leBytes 1 f.flags ++ leBytes 1 f.slice ++ leBytes 1 f.source ++ leBytes 2 f.reason ++ leBytes 2 0
    ++ timeBytes f.tTrig ++ leBytes 2 0 ++ leBytes 4 f.segs.length ++ leBytes 8 f.bTrig

/-- An export of slot `i` is in progress. -/
def State.exporting (s : State) (i : Nat) : Bool :=
  match s.loft.exports with
  | [] => false
  | e :: _ => e.slot == i

/-- RELEASE of a slot (R150): false when it is refused. -/
def State.frzRelease (s : State) (i : Nat) : State × Bool :=
  let f := s.frz i
  if f.st ≠ 2 ∨ s.exporting i then (s, false)
  else
    let s := s.each f.segs fun p t => t.setPlace p fun x => { x with pins := x.pins - 1 }
    (((s.setFrz i fun _ => FrzSlot.free).syncPinned).raise 0x6005 107 i f.reason 0 0, true)

/-! The ring writer. -/

/-- Bytes of a segment. -/
def segBytes : Nat := 1048576

/-- The 64-byte header of a segment (R144), with ENTRIES, USED and T_LAST zero while it is open. -/
def Segment.header (g : Segment) (closed : Bool) : List Byte :=
  let h := leBytes 8 g.seq ++ leBytes 4 (if closed then (g.ents.filter fun e => entTyp e != 3).length else 0)
    ++ leBytes 4 (if closed then g.used else 0) ++ timeBytes g.tFirst ++ timeBytes (if closed then g.tLast else 0)
    ++ leBytes 8 g.beatFirst ++ leBytes 16 0
  h ++ leBytes 4 (crc32c h)

/-- The header of segment `n` is written. -/
def State.writeHeader (s : State) (n : Nat) (closed : Bool) : State :=
  (s.setSeg n fun x => { x with hdr := x.header closed, closed := closed }).addTo F.LOFT_CNT_BYTES 64

/-- The PAD entry that fills `len` bytes, its fields zero but ENT_LEN, TYPE and CRC (assumption log 148). -/
def padEntry (len : Nat) : List Byte :=
  let h := leBytes 2 (len / 16) ++ List.replicate 25 0 ++ leBytes 1 3
  h ++ leBytes 4 (crc32c h) ++ List.replicate (len - 32) 0

/-- The rest of a segment is filled with one PAD entry, or left zero when fewer than 32 bytes remain (R144). -/
def State.padSeg (s : State) (n : Nat) : State :=
  let room := segBytes - (s.seg n).used
  if room < 32 then s
  else (s.setSeg n fun x => { x with ents := x.ents ++ [padEntry room], used := x.used + room }).addTo F.LOFT_CNT_BYTES room

/-- A segment closes (R144): freezes whose span it covers become HELD (R150). -/
def State.closeSeg (s : State) (n : Nat) : State :=
  let s := s.writeHeader n true
  let g := s.seg n
  s.each s.collecting fun i t =>
    let f := t.frz i
    let past := g.ents.any fun e => decide (entArr e > f.tTrig + f.post * 1000)
    t.when (past || (f.post == 0 && f.openAt == some n)) fun u => u.hold i 0

/-- The next unpinned segment in ring order after `n`, skipping retired ones (R144). -/
def State.nextSeg (s : State) (total : Nat) : Nat → Nat → Option Nat
  | 0, _ => none
  | k + 1, n => let g := s.seg (n % total)
    if g.pins == 0 && !g.retired then some (n % total) else s.nextSeg total k (n + 1)

/-- A segment opens for its first entry: it takes the next SEQ, and every collecting freeze pins it or ends (R149). -/
def State.openNewSeg (s : State) (n beat t : Nat) : State :=
  let q := s.get F.LOFT_HEAD + 1
  let s := s.put F.LOFT_HEAD q
  let s := (s.setSeg n fun _ => { Segment.none with seq := q, tFirst := t, tLast := t, beatFirst := beat }).writeHeader n false
  let s := s.setLoft fun x => { x with openSeg := some n }
  s.each s.collecting fun i u =>
    if u.pinOver n then (u.flag F.LOFT_STATUS_PIN_FULL).hold i 2 else u.pin i n

/-- The segment that takes an entry of `len` bytes: the open one, or the next after closing it (R144). -/
def State.segFor (s : State) (beat t len : Nat) : State × Option Nat :=
  let total := ringSegs s.loft.halves
  let openAt (u : State) (from' : Nat) : State × Option Nat :=
    match u.nextSeg total total from' with
    | none => (u, none)
    | some n => (u.openNewSeg n beat t, some n)
  match s.loft.openSeg with
  | none => openAt s 0
  | some n =>
    if (s.seg n).closed then openAt s (n + 1)
    else if (s.seg n).used + len ≤ segBytes then (s, some n)
    else openAt ((s.padSeg n).closeSeg n) (n + 1)

/-- LOFT_SPAN_US (R165): T_ARR of the newest entry less T_FIRST of the oldest unpinned segment; 0 where either is absent
(assumption log 149). -/
def State.loftSpan (s : State) : Nat :=
  let newest := (s.segsNewest.filterMap fun e => ((e.2.ents.filter fun x => entTyp x != 3).getLast?).map entArr).head?
  let oldest := ((s.segsNewest.filter fun e => e.2.pins == 0 && !e.2.retired).getLast?).map fun e => e.2.tFirst
  match newest, oldest with
  | some a, some b => min ((a - b) / 1000) (2 ^ 32 - 1)
  | _, _ => 0

/-- The oldest buffered entry is written to HBM (R141, R144). -/
def loftRecordWrite (s : State) : State :=
  match s.loft.buf with
  | [] => s
  | (beat, e) :: rest =>
    if !s.bit F.LOFT_STATUS_RUNNING then s
    else
      match s.segFor beat (entArr e) e.length with
      | (t, none) => t
      | (t, some n) =>
        let t := t.setLoft fun x => { x with buf := rest, bufBytes := x.bufBytes - e.length }
        let t := t.setSeg n fun x => { x with ents := x.ents ++ [e], used := x.used + e.length, tLast := entArr e }
        let t := t.when (entTyp e == 1) fun u => u.bump F.LOFT_CNT_ENTRIES
        t.addTo F.LOFT_CNT_BYTES e.length

def execLoftRecordWrite (s : State) : Res := fin (loftRecordWrite s)

/-! Enabling (R139, R162 to R164). -/

/-- R139 for a value of HALVES. -/
def State.halvesOk (s : State) (h : Nat) : Bool :=
  h == 0 || (h < 3 && decide ((s.enabledPorts.map fun n => speedGbps (s.portSpeed n)).sum ≤ 6400))

/-- The Loft stops. Every entry that the buffer admitted is written first (R141); collecting freezes end with TRUNC_POST
(R150). -/
def State.loftStop (s : State) : State :=
  let s := s.each s.loft.buf fun _ t => loftRecordWrite t
  let s := (((s.put F.LOFT_CTRL 0).put F.LOFT_STATUS_RUNNING 0).put F.LOFT_STATUS_INIT_BUSY 0).put F.LOFT_STATUS_EXP_BUSY 0
  let s := s.each s.collecting fun i t => t.hold i 2
  let s := match s.loft.openSeg with
    | none => s
    | some n => s.setSeg n fun x => { x with closed := true }
  (s.put F.LOFT_EXP_CMD_BUSY 0).setLoft fun x => { x with buf := [], bufBytes := 0, gap := none, exports := [] }

/-- A half that failed training is marked (R164). -/
def State.halfFailed (s : State) (h : Nat) : State :=
  (s.flag (if h = 0 then F.LOFT_STATUS_A_FAILED else F.LOFT_STATUS_B_FAILED)).raise 0x600A 107 h 0 0 0

/-- A write of LOFT_CTRL.EN; `failA` and `failB` tell which halves fail HBM3 training (R164). The history that is zeroed
takes the place of the segments that lay there under another partition (R138, R162, R163). -/
def loftCtrlWrite (d : Nat) (failA failB : Bool) (s : State) : State :=
  if !bitOf d 0 then (if s.bit F.LOFT_CTRL then s.loftStop else s)
  else if s.bit F.LOFT_CTRL then s
  else
    let h := s.get F.LOFT_CFG_HALVES
    if !s.halvesOk h || decide (s.get F.LOFT_CFG_PIN_MAX > 75) then s.flag F.LOFT_STATUS_CFG_ERR
    else
      let s := s.put F.LOFT_STATUS_CFG_ERR 0
      let s := (s.when (failA && h != 2) fun t => t.halfFailed 0).when (failB && h != 1) fun t => t.halfFailed 1
      let badA := failA && h != 2
      let badB := failB && h != 1
      let run : Option Nat :=
        if !badA && !badB then some h
        else if badA && !failB && s.halvesOk 2 then some 2
        else if badB && !failA && s.halvesOk 1 then some 1
        else none
      match run with
      | none => s.setLoft fun x => { x with untrained := true }
      | some r =>
        let s := ((s.freshLimits (rateBlock 6)).flag F.LOFT_CTRL).flag F.LOFT_STATUS_INIT_BUSY
        let s := s.setLoft fun x => { x with halves := r, untrained := false, hist := [], tags := [], openSeg := none }
        s.loseSegs fun p => !s.loft.kept
          || ((placeSeg r p).isNone && (r == 0 || placeHalf p == r - 1))

def execLoftEnable (m : Master) (d : Nat) (failA failB : Bool) (s : State) : Res :=
  fin (s.regWrite m 0x600000 (loftCtrlWrite d failA failB))

/-- The entries of a segment up to the first with ENT_LEN 0 or a failing CRC (R163). -/
def soundEnts (es : List (List Byte)) : List (List Byte) := es.takeWhile fun e => leAt e 0 2 != 0 && entCrcOk e

/-- Recovery closes the newest segment after its last sound entry (R163). -/
def State.recoverSeg (s : State) (n : Nat) : State :=
  let s := s.setSeg n fun x =>
    let es := soundEnts x.ents
    { x with ents := es, used := 64 + es.flatten.length, tLast := (es.getLast?.map entArr).getD x.tFirst }
  s.writeHeader n true

/-- Initialisation (R162) or recovery (R163) completes and recording starts. `ce` corrected errors were met, and the headers
of the segments in `ue` were uncorrectable: such a segment is invalid (R159). -/
def loftInitDone (ce : Nat) (ue : List Nat) (s : State) : State :=
  if !s.bit F.LOFT_STATUS_INIT_BUSY then s
  else
    let s := (s.put F.LOFT_STATUS_INIT_BUSY 0).flag F.LOFT_STATUS_RUNNING
    let s := (s.addTo F.LOFT_CNT_CE ce).addTo F.LOFT_CNT_UE ue.length
    let s := s.each ue fun n t => t.setSeg n Segment.lost
    let live := ringSegs s.loft.halves
      - (s.loft.segs.filter fun e => e.2.retired && (placeSeg s.loft.halves e.1).isSome).length
    let s := (s.put F.LOFT_RING_SEGMENTS live).syncPinned
    let s := match s.segsNewest with
      | [] => s.put F.LOFT_HEAD 0
      | (n, g) :: _ => ((s.put F.LOFT_HEAD g.seq).recoverSeg n).setLoft fun x => { x with openSeg := some n }
    s.setLoft fun x => { x with kept := true }

def execLoftInitDone (s : State) (ce : Nat := 0) (ue : List Nat := []) : Res := fin (loftInitDone ce ue s)

/-! Freeze commands of the yardmaster (R165). -/

def frzIn (g : State → State) (t : State) : State := if t.bit F.LOFT_FRZ_CMD_BUSY then t else g (t.put F.LOFT_FRZ_CMD_ERR 0)
def frzCmd (m : Master) (g : State → State) (s : State) : State := s.regWrite m 0x600030 (frzIn g)

/-- TRIGGER: a platform freeze now; SLOT reads the slot given. -/
def frzTrigger (s : State) : State :=
  match s.freezeRequest 0 none (s.get (F.LOFT_FRZ_ARG01.idx 0)) (s.get (F.LOFT_FRZ_ARG01.idx 1)) (s.get F.LOFT_FRZ_ARG2)
      s.nowNs s.beat with
  | (t, some i) => t.put F.LOFT_FRZ_CMD_SLOT i
  | (t, none) => t.put F.LOFT_FRZ_CMD_ERR 1

def execTrigger (m : Master) (s : State) : Res := fin (frzCmd m frzTrigger s)

/-- RELEASE and READ_SLOT of the slot written. -/
def frzReleaseCmd (i : Nat) (s : State) : State :=
  match (s.put F.LOFT_FRZ_CMD_SLOT i).frzRelease i with
  | (t, true) => t
  | (t, false) => t.put F.LOFT_FRZ_CMD_ERR 2

def execRelease (m : Master) (slot : Fin 16) (s : State) : Res := fin (frzCmd m (frzReleaseCmd slot) s)

def readSlotOp (slot : Nat) (t : State) : State := (t.put F.LOFT_FRZ_CMD_SLOT slot).putBytes F.LOFT_FRZ_DATAn 8 (t.frz slot).bytes
def execReadSlot (m : Master) (slot : Fin 16) (s : State) : Res := fin (frzCmd m (readSlotOp slot) s)

/-! Export. -/

/-- Entries of a freeze span in ring order (R149, R152): those of its segments, oldest first, PAD entries left out. -/
def State.spanEntries (s : State) (i : Nat) : List (List Byte) :=
  let segs := (((s.loft.segs.filter fun e => (s.frz i).segs.contains e.1 && e.2.valid).foldl (fun a e => segInsert e a) []).reverse)
  (segs.flatMap fun e => e.2.ents).filter fun e => entTyp e != 3

/-- Entries a scope keeps (R152). -/
def scopeKeeps (scope slice : Nat) (e : List Byte) : Bool :=
  scope == 0 || entTyp e == 2 || (entTyp e == 1 && entOwner e == slice)

/-- The entries that fit in `room` bytes, and whether some did not (R153). -/
def takeFit : Nat → List (List Byte) → List (List Byte) × Bool
  | _, [] => ([], false)
  | room, e :: es =>
    if e.length ≤ room then
      let (l, p) := takeFit (room - e.length) es
      (e :: l, p)
    else ([], true)

/-- The manifest's first 160 bytes (R154). -/
def State.manifestBody (s : State) (x : ExpReq) (ents : List (List Byte)) (part : Bool) (seq : Nat) : List Byte :=
  let f := s.frz x.slot
  let bad := (ents.filter fun e => !entCrcOk e).length
  let data := ents.flatten
  let fl := b2n part + 2 * (f.flags % 4) + 8 * b2n (bad != 0)
  let t0 := (ents.head?.map entArr).getD 0
  let t1 := (ents.getLast?.map entArr).getD 0
  leBytes 2 1 ++ leBytes 2 s.deviceId ++ leBytes 4 (s.get F.DEVID) ++ leBytes 8 seq
    ++ leBytes 1 x.slot ++ leBytes 1 x.scope ++ leBytes 1 (if x.scope = 1 then x.slice else 0) ++ leBytes 1 fl
    ++ leBytes 2 f.reason ++ leBytes 2 0 ++ timeBytes f.tTrig ++ leBytes 6 0 ++ timeBytes t0 ++ leBytes 6 0 ++ timeBytes t1
    ++ leBytes 6 0 ++ leBytes 8 f.bTrig ++ leBytes 8 x.start ++ leBytes 8 ents.length ++ leBytes 8 data.length
    ++ leBytes 4 (ents.filter fun e => entTyp e == 2).length ++ leBytes 4 bad ++ Config.sha384 data

/-- An export's bytes go out under its PASID (R155). -/
def State.expWrite (s : State) (x : ExpReq) (addr : Nat) (bs : List Byte) : State :=
  match x.cmd with
  | some _ => s.sliceDma x.slice addr bs
  | none => if bs.isEmpty then s else s.emit (.dmaWrite none addr bs)

/-- The export's requester is told: ERR and the done source, or a CMD completion (status 9 LOFT with the ERR code, 6
DMA_FAULT) (R349). -/
def State.expAnswer (s : State) (x : ExpReq) (err : Nat) : State :=
  match x.cmd with
  | none => ((s.put F.LOFT_EXP_CMD_BUSY 0).put F.LOFT_EXP_CMD_ERR err).setDone 455
  | some (id, quiet) =>
    s.cmdDone x.slice id quiet (if err = 0 then 0 else if err = 2 then 6 else 9) (if err = 1 then leBytes 1 1 else [])

/-- EXP_BUSY follows the queue, and exports at its head whose slot is no longer HELD end with ERR 1. -/
def State.expNext (s : State) : Nat → State
  | 0 => s
  | k + 1 =>
    match s.loft.exports with
    | [] => s.put F.LOFT_STATUS_EXP_BUSY 0
    | x :: rest =>
      if (s.frz x.slot).st = 2 then s.flag F.LOFT_STATUS_EXP_BUSY
      else ((s.setLoft fun y => { y with exports := rest }).expAnswer x 1).expNext k

/-- A request for an export (R152): refused unless the slot is HELD, otherwise it runs or waits (R155). -/
def State.expRequest (s : State) (x : ExpReq) : State :=
  if (s.frz x.slot).st ≠ 2 then s.expAnswer x 1
  else (s.setLoft fun y => { y with exports := y.exports ++ [x] }).flag F.LOFT_STATUS_EXP_BUSY

/-- A write of LOFT_EXP_CMD. -/
def expCmdWrite (d : Nat) (s : State) : State :=
  if s.bit F.LOFT_EXP_CMD_BUSY then s
  else
    let s := ((s.put F.LOFT_EXP_CMD_SCOPE (bitsOf d 16 1)).put F.LOFT_EXP_CMD_SLICE (bitsOf d 8 8)).put F.LOFT_EXP_CMD_SLOT
      (bitsOf d 0 4)
    if !bitOf d 4 then s
    else
      let s := (s.put F.LOFT_EXP_CMD_ERR 0).flag F.LOFT_EXP_CMD_BUSY
      s.expRequest ⟨bitsOf d 0 4, bitsOf d 16 1, bitsOf d 8 8, s.get F.LOFT_EXP_ADDR, s.get F.LOFT_EXP_LEN, s.get F.LOFT_EXP_MAN,
        s.get F.LOFT_EXP_START, none, s.clk⟩

def execLoftExportGo (m : Master) (d : Nat) (s : State) : Res := fin (s.regWrite m 0x600060 (expCmdWrite d))

/-! Background test (R160, R161). -/

/-- The places of the segments of the running export. -/
def State.exportSegs (s : State) : List Nat :=
  match s.loft.exports with
  | [] => []
  | x :: _ => (s.frz x.slot).segs

/-- A segment leaves the ring (R161). -/
def State.retireSeg (s : State) (n : Nat) : State :=
  let s := s.setSeg n fun x => { x with retired := true }
  let s := (s.put F.LOFT_RING_SEGMENTS (s.ringLive - 1)).bump F.LOFT_CNT_SEG_RETIRED
  s.raise 0x6009 107 s.ringLive 0 0 0

/-- The segment a failing history megabyte moves to: the lowest that nothing holds. -/
def State.spareSeg (s : State) : Option Nat :=
  (List.range (ringSegs s.loft.halves)).find? fun n =>
    let g := s.seg n
    g.pins == 0 && !g.retired && s.loft.openSeg != some n

/-- Background test may visit region `idx` of 64 KiB, of history or of the ring: not of the open segment, of a segment of the
running export, or of one that is out of service (R160). -/
def State.testable (s : State) (hist : Bool) (idx : Nat) : Bool :=
  let n := idx / 16
  if hist then decide (n < 16384)
  else decide (n < ringSegs s.loft.halves) && s.loft.openSeg != some n
    && !s.exportSegs.contains (segPlace s.loft.halves n) && !(s.seg n).retired

/-- The region visited is noted: regions are visited in rising order, the ring's before those of history, and a visit that
does not rise starts the next pass (R160; assumption log 150). -/
def State.visit (s : State) (hist : Bool) (idx : Nat) : State :=
  let r := if hist then 16 * ringSegs s.loft.halves + idx else idx
  s.setLoft fun x => { x with tested := r, passAt := if r ≤ x.tested then s.clk else x.passAt }

/-- A region was tested and its content restored (R160): region `idx` of 64 KiB, of history or of the ring; `pass`, or
repaired by a row repair, or neither (R161). -/
def loftTestStep (hist : Bool) (idx : Nat) (pass repaired : Bool) (s : State) : State :=
  if !s.bit F.LOFT_STATUS_RUNNING || !s.testable hist idx then s
  else
    let s := s.visit hist idx
    if pass || repaired then s
    else if hist then
      match s.spareSeg with
      | none => s
      | some n => ((s.retireSeg n).setSeg n Segment.lost).setLoft fun x =>
          { x with moved := Table.insert (histPlace x.halves (idx / 16)) (segPlace x.halves n) x.moved }
    else s.retireSeg (idx / 16)

def execLoftTestStep (hist : Bool) (idx : Nat) (pass repaired : Bool) (s : State) : Res :=
  fin (loftTestStep hist idx pass repaired s)

end Sys2Proof.Machine
end

