-- ==== Sys2Proof/Machine/Flow.lean ====
section
/-! DEFINITION. Entries of the flow table and of the key cache (R79, R89) with their fields, their counters, and the role
of the device in its pair (R279), which several blocks ask for. -/

namespace Sys2Proof.Machine

def State.setGate (s : State) (g : GateSt → GateSt) : State := { s with gate := g s.gate }
def State.flow (s : State) (n : Nat) : FlowEnt := Table.at FlowEnt.empty n s.gate.flows
def State.setFlow (s : State) (n : Nat) (g : FlowEnt → FlowEnt) : State :=
  s.setGate fun x => { x with flows := Table.modify FlowEnt.empty n g x.flows }
def State.keyE (s : State) (n : Nat) : KeyEnt := Table.at KeyEnt.empty n s.gate.keys
def State.setKey (s : State) (n : Nat) (g : KeyEnt → KeyEnt) : State :=
  s.setGate fun x => { x with keys := Table.modify KeyEnt.empty n g x.keys }

/-- The vault's state changes; VAULT_GEN_USED follows the table of R401. -/
def State.setVault (s : State) (g : VaultSt → VaultSt) : State := { s with vault := g s.vault }
def State.setGen (s : State) (l : List (List Byte × Nat)) : State :=
  (s.setVault fun x => { x with gen := l }).put F.VAULT_GEN_USED l.length

/-- A generating GMAC key (R401): KTYPE 4 to 7 and USAGE bit 2 or 3. -/
def generating (alg usage : Nat) : Bool := decide (4 ≤ alg ∧ alg ≤ 7) && (bitOf usage 2 || bitOf usage 3)

/-- The table's count of a fingerprint. -/
def genCount (fp : List Byte) : List (List Byte × Nat) → Option Nat
  | [] => none
  | e :: t => if e.1 = fp then some e.2 else genCount fp t

/-- The table with a count of a fingerprint raised, or a new entry while there is room. -/
def genPut (fp : List Byte) (n : Nat) (l : List (List Byte × Nat)) : List (List Byte × Nat) :=
  if (genCount fp l).isSome then l.map fun e => if e.1 = fp then (fp, max e.2 n) else e
  else if l.length < 4096 then l ++ [(fp, n)] else l

/-- Entry `e` is overwritten, retired or emptied: the table keeps its final GMAC_COUNT (R401). -/
def State.genKeep (s : State) (e : Nat) : State :=
  let k := s.keyE e
  if k.st != 0 && generating k.alg k.usage then s.setGen (genPut k.fp k.count s.vault.gen) else s

/-! Fields of a flow entry (R79). -/

def feFlags (e : List Byte) : Nat := leAt e 0 1
def feValid (e : List Byte) : Bool := bitOf (feFlags e) 0
def feTemplate (e : List Byte) : Bool := bitOf (feFlags e) 1
def feInstance (e : List Byte) : Bool := bitOf (feFlags e) 2
def fePrio (e : List Byte) : Bool := bitOf (feFlags e) 3
def feQuar (e : List Byte) : Bool := bitOf (feFlags e) 4
def feNextValid (e : List Byte) : Bool := bitOf (feFlags e) 5
def fePrevValid (e : List Byte) : Bool := bitOf (feFlags e) 6
def feKind (e : List Byte) : Nat := leAt e 1 1 % 16
def feTransport (e : List Byte) : Nat := bitsOf (leAt e 1 1) 4 2
def feSlice (e : List Byte) : Nat := leAt e 2 1
def feAlgMask (e : List Byte) : Nat := leAt e 3 1
def feIngress (e : List Byte) : Nat := leAt e 4 2
def feVid (e : List Byte) : Nat := leAt e 6 2
def feStream (e : List Byte) : Nat := leAt e 8 4
def feStreamMask (e : List Byte) : Nat := leAt e 12 4
/-- SOURCE, missing bytes zero. -/
def feSource (e : List Byte) : List Byte := leBytes 16 (leAt e 16 16)
def feSrcPlen (e : List Byte) : Nat := leAt e 32 1
def feGroup (e : List Byte) : Nat := leAt e 34 2
/-- WRAP_MOD: 0 means 65,536. -/
def feWrap (e : List Byte) : Nat := if leAt e 36 2 = 0 then 65536 else leAt e 36 2
def feTsTol (e : List Byte) : Nat := leAt e 38 2
def feKeyCur (e : List Byte) : Nat := leAt e 40 2
def feKeyNext (e : List Byte) : Nat := leAt e 42 2
def feKeyPrev (e : List Byte) : Nat := leAt e 44 2
def feGrace (e : List Byte) : Nat := leAt e 46 2
def feIdle (e : List Byte) : Nat := leAt e 48 2
def feTplRef (e : List Byte) : Nat := leAt e 50 2
def feTplLimit (e : List Byte) : Nat := leAt e 52 2
def feTplCount (e : List Byte) : Nat := leAt e 54 2

/-- FLAGS with bit `i` set to `b`. -/
def feSetFlag (i : Nat) (b : Bool) (e : List Byte) : List Byte :=
  setLe e 0 1 (if b then setBit (feFlags e) i else clearBit (feFlags e) i)

/-- All 64 bytes of an entry, as READ returns them. -/
def feBytes (e : List Byte) : List Byte := (e ++ List.replicate (64 - e.length) 0).take 64

/-- A bit saturating 32-bit counter in a list. -/
def cntAdd (l : List Nat) (i n : Nat) : List Nat := l.modify i fun x => satAdd 32 x n

/-- One more in counter `i` of a flow. -/
def State.flowCount (s : State) (n i : Nat) : State :=
  s.setFlow n fun x => { x with cnt := if i = 0 then x.cnt.modify 0 fun v => satAdd 64 v 1 else cntAdd x.cnt i 1 }

/-- The ten words of READ_STATS (R104). -/
def FlowEnt.stats (x : FlowEnt) : List Nat :=
  let c := x.cnt
  [c.getD 0 0 % 2 ^ 32, c.getD 0 0 / 2 ^ 32, c.getD 1 0, c.getD 2 0, c.getD 3 0, c.getD 4 0, c.getD 5 0, c.getD 6 0,
   c.getD 7 0, c.getD 8 0]

/-- The replay record of R97. -/
def Replay.bytes (r : Replay) : List Byte :=
  leBytes 8 r.top ++ leBytes 8 r.bitmap ++ timeBytes r.lastTs ++ leBytes 1 (b2n r.active) ++ leBytes 5 0

/-- The metadata of R89. -/
def KeyEnt.bytes (k : KeyEnt) : List Byte :=
  leBytes 4 k.keyId ++ leBytes 1 k.alg ++ leBytes 1 k.st ++ leBytes 1 k.usage ++ leBytes 1 0 ++ leBytes 6 k.notBefore
    ++ leBytes 6 k.notAfter ++ leBytes 4 k.count

/-! The role in the pair (R279). -/

def State.role (s : State) : Nat := s.get F.PAIR_STATUS_STATE
def State.standby (s : State) : Bool := s.role == 2
/-- Runs items (R279): PROMOTING, ACTIVE or SOLO. -/
def State.runsItems (s : State) : Bool := decide (3 ≤ s.role ∧ s.role ≤ 5)

/-- A beat of quality `q` is time-valid (R31). -/
def timeValid (q : Nat) : Bool := q = 1 || q = 2

end Sys2Proof.Machine
end

