-- ==== Sys2Proof/Machine/Yard.lean ====
section
/-! DEFINITION. The marshalling yard (chapter 4): group entries (R107), layout and allocation (R122, R128, R129), members
(R109, R110), windows and slabs (R123 to R126), where a sample belongs (R111 to R119), placement (R121), the cut settle
(R120) and banks (R130 to R132). -/

namespace Sys2Proof.Machine

def State.setYard (s : State) (g : YardSt → YardSt) : State := { s with yard := g s.yard }
def State.group (s : State) (n : Nat) : GroupEnt := Table.at GroupEnt.empty n s.yard.groups
def State.setGroup (s : State) (n : Nat) (g : GroupEnt → GroupEnt) : State :=
  s.setYard fun x => { x with groups := Table.modify GroupEnt.empty n g x.groups }
/-- Numbers of the groups that have an entry. -/
def State.groupList (s : State) : List Nat := s.yard.groups.map (·.1)

/-! Fields of a group entry (R107). -/

def geFlags (e : List Byte) : Nat := leAt e 0 1
def geValid (e : List Byte) : Bool := bitOf (geFlags e) 0
def geWithdrawn (e : List Byte) : Bool := bitOf (geFlags e) 1
def geUnsync (e : List Byte) : Bool := bitOf (geFlags e) 2
def geKind (e : List Byte) : Nat := leAt e 1 1
def geLag (e : List Byte) : Nat := leAt e 2 1 % 4
def geKeep (e : List Byte) : Nat := leAt e 3 1 % 8
def geRate (e : List Byte) : Nat := leAt e 4 4
def geMax (e : List Byte) : Nat := leAt e 8 2
def geSlots (e : List Byte) : Nat := leAt e 10 2
def geChannels (e : List Byte) : Nat := leAt e 12 1
def geFormat (e : List Byte) : Nat := leAt e 13 1
def geMsgBytes (e : List Byte) : Nat := leAt e 14 2
def geDelay (e : List Byte) : Nat := leAt e 16 2
def geElem (e : List Byte) : Nat := leAt e 18 2
def geBase (e : List Byte) : Nat := leAt e 20 4
def geSize (e : List Byte) : Nat := leAt e 24 4
def geOwner (e : List Byte) : Nat := leAt e 30 1
def geBytes (e : List Byte) : List Byte := (e ++ List.replicate (32 - e.length) 0).take 32

/-- The range tests of R107. -/
def geOk (e : List Byte) : Bool :=
  let k := geKind e
  let r := geRate e
  let inR (x a b : Nat) : Bool := decide (a ≤ x ∧ x ≤ b)
  decide (geFlags e < 8) && decide (leAt e 2 1 < 4) && decide (leAt e 3 1 < 8) && leAt e 31 1 == 0
    && inR (geMax e) 1 1024
    && (if k = 0 then inR r 4000 15360 && inR (geChannels e) 1 32 && geFormat e == 0 && geMsgBytes e == 0
        else if k = 1 then inR r 1 2000000 && inR (geChannels e) 1 16 && inR (geFormat e) 1 2 && geMsgBytes e == 0
        else if k = 2 then r == 0 && inR (geSlots e) 1 8 && geChannels e == 0 && geFormat e == 0
          && inR (geMsgBytes e) 64 1536 && geMsgBytes e % 64 == 0
        else if k = 3 then r == 0 && inR (geSlots e) 1 16384 && geChannels e == 0 && geFormat e == 0 && geMsgBytes e == 0
        else false)

/-- The flow kind that agrees with a group kind (R108). -/
def kindOfGroup (k : Nat) : Nat := if k = 0 then 2 else if k = 1 then 3 else if k = 2 then 1 else 4

/-- A flow that names the group agrees with it (R108). -/
def flowFits (fe ge : List Byte) : Bool :=
  feKind fe == kindOfGroup (geKind ge) && feSlice fe == geOwner ge && (feKind fe != 2 || feWrap fe == geRate ge)

/-! Layout (R122). -/

def up64 (n : Nat) : Nat := (n + 63) / 64 * 64
def presOfs (e : List Byte) : Nat := 64 + up64 (4 * geMax e)
def presWords (e : List Byte) : Nat := (geSlots e + 63) / 64
def statOfs (e : List Byte) : Nat := presOfs e + up64 (8 * presWords e * geMax e)
def dataOfs (e : List Byte) : Nat := statOfs e + up64 (8 * geMax e)
def slabStride (e : List Byte) : Nat := up64 (geSlots e * geElem e)
def slabSize (e : List Byte) : Nat := dataOfs e + geMax e * slabStride e

/-- ceil(a / b). -/
def ceilDiv (a b : Nat) : Nat := (a + b - 1) / b

/-- The (hw) sizes of an entry for beat rate `n`. -/
def geDerive (n : Nat) (e : List Byte) : List Byte :=
  let k := geKind e
  let e := if k ≤ 1 then setLe e 10 2 (ceilDiv (geRate e) n) else e
  let el := if k = 0 then 8 * geChannels e else if k = 1 then geChannels e * (if geFormat e = 1 then 2 else 4)
    else if k = 2 then geMsgBytes e else 64
  let e := setLe e 18 2 el
  setLe e 24 4 (slabSize e)

/-- Bytes of a group's ring (R126). -/
def ringBytes (e : List Byte) : Nat := (geLag e + 2) * geSize e

/-- The address of the slab of window `k`. -/
def slabAddr (e : List Byte) (k : Nat) : Nat := geBase e + k % (geLag e + 2) * geSize e

/-! Yard SRAM. -/

def State.yByte (s : State) (a : Nat) : Byte := Memory.byte 0 s.yard.mem a
def State.yBytes (s : State) (a n : Nat) : List Byte := Memory.bytes 0 s.yard.mem a n
def State.yStore (s : State) (a : Nat) (bs : List Byte) : State :=
  s.setYard fun x => { x with mem := Memory.store 0 x.mem a bs }
def State.yLe (s : State) (a n : Nat) : Nat := leNat (s.yBytes a n)
def State.ySet (s : State) (a n v : Nat) : State := s.yStore a (leBytes n v)
def State.yClear (s : State) (a n : Nat) : State := s.setYard fun x => { x with mem := Memory.clear x.mem a n }

/-! Groups in use. -/

/-- Valid groups that are not withdrawn. -/
def State.liveGroups (s : State) : List Nat :=
  s.groupList.filter fun n => geValid (s.group n).e && !geWithdrawn (s.group n).e

/-- The slab of window `k` of group `g`, if it exists. -/
def State.win (s : State) (g k : Nat) : Option Win := (s.group g).wins.find? fun w => w.k == k

/-- One more sample in a group counter. -/
def State.groupCount (s : State) (g i n : Nat) : State :=
  s.setGroup g fun x => { x with cnt := if i = 0 then x.cnt.modify 0 fun v => satAdd 64 v n else cntAdd x.cnt i n }

/-- The address of member `m`'s status word in the slab of window `k`. -/
def statAddr (e : List Byte) (k m : Nat) : Nat := slabAddr e k + statOfs e + 8 * m

/-- Change the status word of member `m` in the slab of window `k`, if that slab exists. -/
def State.setStat (s : State) (g k m : Nat) (f : Nat → Nat) : State :=
  let e := (s.group g).e
  if (s.win g k).isSome then let a := statAddr e k m; s.ySet a 8 (f (s.yLe a 8)) else s

/-- Raise the LATE_PREV half-word, saturating. -/
def statLate (w : Nat) : Nat := if w % 65536 < 65535 then w + 1 else w
/-- Raise PLACED, saturating. -/
def statPlaced (w : Nat) : Nat := if bitsOf w 32 16 < 65535 then w + 2 ^ 32 else w

/-! Member indices (R109, R110). -/

/-- The member of a flow that is not being removed. -/
def State.memberOf (s : State) (g flow : Nat) : Option Member :=
  (s.group g).members.find? fun m => m.flow == flow && m.removed.isNone

def State.syncMembers (s : State) (g : Nat) : State :=
  s.setGroup g fun x => { x with e := setLe x.e 28 2 x.members.length }

/-- The lowest free index of a group. -/
def State.freeIndex (s : State) (g : Nat) : Option Nat :=
  let used := (s.group g).members.map (·.idx)
  (List.range (geMax (s.group g).e)).find? fun i => !used.contains i

/-- Windows of the group still open in the present beat. -/
def State.openWins (s : State) (g : Nat) : List Nat :=
  (((s.group g).wins.filter fun w => !w.closed && decide (s.beat < w.k + 1 + geLag (s.group g).e))).map (·.k)

/-- Give `flow` index `i`: event 0x5005, its map entry in every open slab, NEW_MEMBER there, a MEMBER record. -/
def State.giveIndex (s : State) (g flow i : Nat) : State :=
  let s := (s.setGroup g fun x => { x with members := x.members ++ [⟨i, flow, none⟩] }).syncMembers g
  let e := (s.group g).e
  let s := s.each (s.openWins g) fun k t =>
    (t.ySet (slabAddr e k + 64 + 4 * i) 4 (2 ^ 31 + flow)).setStat g k i fun w => setBit w 23
  let s := s.setYard fun x => { x with recs := x.recs ++ [(1, g, flow, i, s.beat)] }
  s.raise 0x5005 106 g flow 0 i

/-- A flow with an index is removed (R110): its map entry goes from slabs opened at later edges, its index is free once
LAG + 2 further edges have passed. A device in STANDBY waits for the MEMBER record (R294). -/
def State.memberRemove (s : State) (flow : Nat) : State :=
  if s.standby then s
  else
    let g := feGroup (s.flow flow).e
    if (s.memberOf g flow).isSome then
      s.setGroup g fun x => { x with members := x.members.map fun m =>
        if m.flow = flow && m.removed.isNone then { m with removed := some (geLag x.e + 2) } else m }
    else s

/-- The edge of a beat passes for removed members: at the first edge the map entry is cleared, and at the
(LAG + 2)th the index is free (R110, R294; assumption log 41). -/
def State.memberEdge (s : State) (g : Nat) : State :=
  let lag := geLag (s.group g).e
  let now := (s.group g).members.filter fun m => m.removed == some (lag + 2)
  let s := if s.standby then s
    else s.setYard fun x => { x with recs := x.recs ++ now.map fun m => (2, g, m.flow, m.idx, s.beat) }
  (s.setGroup g fun x => { x with members := x.members.filterMap fun m =>
    match m.removed with
    | none => some m
    | some 0 => none
    | some (n + 1) => if n = 0 then none else some { m with removed := some n } }).syncMembers g

/-! Enabling (R128, R129, R133). -/

/-- Intervals of yard SRAM in use: rings of the groups in `l` and retired banks. -/
def State.usedRanges (s : State) (l : List Nat) : List (Nat × Nat) :=
  (l.map fun n => let e := (s.group n).e; (geBase e, geBase e + ringBytes e))
    ++ s.yard.retired.map fun b => (b * 131072, (b + 1) * 131072)

/-- The lowest start at which `size` bytes fit below `top` clear of the ranges. -/
def placeLow (size top : Nat) (used : List (Nat × Nat)) : Option Nat :=
  let cands := 0 :: used.map (·.2)
  let good := cands.filter fun a => decide (a + size ≤ top) && used.all fun u => decide (a + size ≤ u.1 ∨ u.2 ≤ a)
  good.foldl (fun b a => match b with
    | none => some a
    | some x => some (min x a)) none

/-- All of yard SRAM: 768 banks of 128 KiB. -/
def yardBytes : Nat := 768 * 131072

/-- Allocate rings to groups in ascending order; groups already placed are `done'` (R129, R132). False when one does not
fit. -/
def State.allocAll (s : State) (done' : List Nat) : List Nat → State × Bool
  | [] => (s, true)
  | n :: ns =>
    match placeLow (ringBytes (s.group n).e) yardBytes (s.usedRanges done') with
    | none => (s, false)
    | some a => (s.setGroup n fun x => { x with e := setLe x.e 20 4 a }).allocAll (done' ++ [n]) ns

/-- MYARD_ALLOC counts the granules of all rings. -/
def State.syncAlloc (s : State) : State :=
  s.put F.MYARD_ALLOC ((s.liveGroups.map fun n => ringBytes (s.group n).e).sum / 64)

/-- Platform flows of group `g` that take indices at enable, ascending (R109). -/
def State.enableFlows (s : State) (g : Nat) : List Nat :=
  ((s.gate.flows.filter fun f => decide (f.1 < 65536) && feValid f.2.e && !feTemplate f.2.e && !feInstance f.2.e
    && feGroup f.2.e == g)).map (·.1)

/-- The yard stops: every slab is discarded. -/
def State.yardStop (s : State) : State :=
  let s := ((s.put F.MYARD_CTRL 0).put F.MYARD_STATUS_RUNNING 0).put F.MYARD_ALLOC 0
  s.each s.groupList fun n t => (t.setGroup n fun x => { x with wins := [], members := [] }).syncMembers n

/-- The yard works: it is enabled and PD14 is ON (R135). -/
def State.yardOn (s : State) : Bool := s.bit F.MYARD_CTRL && s.domState 14 == 0

/-- A write of MYARD_CTRL.EN (R128, R133). While PD14 is not ON the yard stays disabled (R135). -/
def myardCtrlWrite (d : Nat) (s : State) : State :=
  if !bitOf d 0 then (if s.bit F.MYARD_CTRL then s.yardStop else s)
  else if s.bit F.MYARD_CTRL ∨ s.domState 14 ≠ 0 then s
  else
    let valid := s.groupList.filter fun n => geValid (s.group n).e
    let s := s.each valid fun n t => t.setGroup n fun x => { x with e := geDerive t.rate (setLe x.e 0 1 (clearBit (geFlags x.e) 1)) }
    let need := (valid.map fun n => ringBytes (s.group n).e).sum
    let cap := 131072 * s.get F.MYARD_CAP_BANKS
    match valid.find? fun n => !geOk (s.group n).e with
    | some n => (s.flag F.MYARD_STATUS_ALLOC_ERR).raise 0x5001 106 n 0 0 0
    | none =>
      if cap < need then (s.flag F.MYARD_STATUS_ALLOC_ERR).raise 0x5001 106 0 (ceilDiv (need - cap) 64) 0 0
      else match s.allocAll [] valid with
        | (_, false) => (s.flag F.MYARD_STATUS_ALLOC_ERR).raise 0x5001 106 0 0 0 0
        | (s, true) =>
          let s := (((s.freshLimits (rateBlock 5)).flag F.MYARD_CTRL).flag F.MYARD_STATUS_RUNNING).put F.MYARD_STATUS_ALLOC_ERR 0
          let s := s.setYard fun x => { x with tags := [], retiring := [] }
          let s := s.each valid fun n t => (t.setGroup n fun x => { x with wins := [], members := [], replaced := false }).syncMembers n
          (s.each valid fun n t => t.each ((t.enableFlows n).take (geMax (t.group n).e)).zipIdx fun fi u =>
            u.giveIndex n fi.1 fi.2).syncAlloc

def execMyardEnable (m : Master) (d : Nat) (s : State) : Res := fin (s.regWrite m 0x500000 (myardCtrlWrite d))

/-! Group access (R136). -/

def gaccIn (g : State → State) (t : State) : State := if t.bit F.MYARD_GACC_CMD_BUSY then t else g (t.put F.MYARD_GACC_CMD_ERR 0)
def gaccCmd (m : Master) (g : State → State) (s : State) : State := s.regWrite m 0x500024 (gaccIn g)

/-- A refused group command. -/
def gaccErr (e : Nat) (s : State) : State := (s.put F.MYARD_GACC_CMD_ERR e).flag F.MYARD_STATUS_GACC_ERR

def myardReadOp (t : State) : State := t.putBytes F.MYARD_GACC_DATAn 8 (geBytes (t.group (t.get F.MYARD_GACC_IDX)).e)
def execMyardRead (m : Master) (s : State) : Res := fin (gaccCmd m myardReadOp s)

/-- A written entry with the (hw) fields as the yard holds them (R107): WITHDRAWN, SLOTS of the kinds with a grid, ELEM, SLAB_BASE,
SLAB_SIZE and MEMBERS_USED. -/
def geKeepHw (old e : List Byte) : List Byte :=
  let e := setLe e 0 1 (clearBit (geFlags e) 1 + 2 * b2n (geWithdrawn old))
  let e := if geKind e ≤ 1 then setLe e 10 2 (geSlots old) else e
  setLe (setLe (setLe (setLe e 18 2 (geElem old)) 20 4 (geBase old)) 24 4 (geSize old)) 28 2 (leAt old 28 2)

/-- WRITE: the entry must be valid and its flows agree (R106 to R108). -/
def myardWrite (s : State) : State :=
  if s.bit F.MYARD_CTRL then gaccErr 1 s
  else
    let n := s.get F.MYARD_GACC_IDX
    let e := geKeepHw (s.group n).e (s.getBytes F.MYARD_GACC_DATAn 8)
    let agree := s.gate.flows.all fun f => !(feValid f.2.e && feGroup f.2.e == n) || flowFits f.2.e e
    if geValid e && !(geOk e && agree) then gaccErr 2 s
    else s.setGroup n fun x => { GroupEnt.empty with e := if geValid e then geDerive s.rate e else e }

def execMyardWrite (m : Master) (s : State) : Res := fin (gaccCmd m myardWrite s)

def myardInvalidate (s : State) : State :=
  if s.bit F.MYARD_CTRL then gaccErr 1 s
  else s.setGroup (s.get F.MYARD_GACC_IDX) fun x => { x with e := setLe x.e 0 1 (clearBit (geFlags x.e) 0) }

def execMyardInvalidate (m : Master) (s : State) : Res := fin (gaccCmd m myardInvalidate s)

/-- READ_STATS: PLACED_LO, PLACED_HI, LATE, FUTURE, FORMAT, NO_MEMBER, CONFLICT, LOST_WINDOWS. -/
def GroupEnt.stats (x : GroupEnt) : List Nat :=
  [x.cnt.getD 0 0 % 2 ^ 32, x.cnt.getD 0 0 / 2 ^ 32] ++ (List.range 6).map fun i => x.cnt.getD (i + 1) 0

def myardReadStatsOp (t : State) : State :=
  t.putBytes F.MYARD_GACC_DATAn 8 ((t.group (t.get F.MYARD_GACC_IDX)).stats.flatMap (leBytes 4))
def execMyardReadStats (m : Master) (s : State) : Res := fin (gaccCmd m myardReadStatsOp s)

/-! The sampling grid (R111, R112, R115). -/

/-- The grid number of the first instant of rate `f` at or after the edge of beat `k`. -/
def gridOfEdge (n f k : Nat) : Nat :=
  let t := edgeNs n k
  t / 1000000000 * f + ceilDiv (t % 1000000000 * f) 1000000000
/-- The time of grid number `g`, in ns. -/
def gridTime (f g : Nat) : Nat := g / f * 1000000000 + g % f * 1000000000 / f
/-- The grid number at or before a time. -/
def gridBefore (f t : Nat) : Nat := t / 1000000000 * f + (ceilDiv ((t % 1000000000 + 1) * f) 1000000000 - 1)
/-- The window of a time (R115). -/
def windowOf (n t : Nat) : Nat := t / 1000000000 * n + (ceilDiv ((t % 1000000000 + 1) * n) 1000000000 - 1)

/-! Windows (R123, R126). -/

/-- The slab header of window `k` (R123), its digest still zero. MSG and YARD slabs have no grid: their FIRST_INDEX and FIRST_SEC are
zero (DESIGN CHOICE, assumption log 146). -/
def State.slabHeader (s : State) (g k tq : Nat) (replaced : Bool) : List Byte :=
  let e := (s.group g).e
  let f := geRate e
  let g0 := gridOfEdge s.rate f k
  let inst := if f = 0 then 0 else gridOfEdge s.rate f (k + 1) - g0
  leBytes 8 k ++ leBytes 2 g ++ leBytes 1 (geKind e) ++ leBytes 1 tq ++ leBytes 2 (geMax e) ++ leBytes 2 (geSlots e)
    ++ leBytes 2 inst ++ leBytes 2 (geElem e) ++ leBytes 4 (if f = 0 then 0 else g0 % f)
    ++ leBytes 8 (if f = 0 then 0 else g0 / f) ++ leBytes 4 f ++ leBytes 4 (presOfs e) ++ leBytes 4 (statOfs e)
    ++ leBytes 4 (dataOfs e) ++ leBytes 4 (slabStride e) ++ leBytes 4 (2 * b2n replaced) ++ leBytes 8 0

/-- Window `k` of group `g` opens: header written, member map copied, the rest reads zero. -/
def State.openWin (s : State) (g k tq : Nat) : State :=
  let x := s.group g
  let a := slabAddr x.e k
  let s := (s.yClear a (geSize x.e)).yStore a (s.slabHeader g k tq x.replaced)
  let s := s.setYard fun y => { y with tags := TagMap.set (a / 64) (geSize x.e / 64) 1 y.tags }
  let s := s.each (x.members.filter fun m => m.removed.isNone) fun m t => t.ySet (a + 64 + 4 * m.idx) 4 (2 ^ 31 + m.flow)
  s.setGroup g fun y => { y with wins := y.wins ++ [⟨k, false⟩], replaced := false }

/-- The bytes that the digest covers: member map, presence bitmaps, data (R126). -/
def State.digestBytes (s : State) (g k : Nat) : List Byte :=
  let e := (s.group g).e
  let a := slabAddr e k
  s.yBytes (a + 64) (statOfs e - 64) ++ s.yBytes (a + dataOfs e) (geSize e - dataOfs e)

/-- The slab of window `k` is closed to writes and its digest written. -/
def State.closeWin (s : State) (g k : Nat) : State :=
  let s := s.ySet (slabAddr (s.group g).e k + 56) 8 (crc64 (s.digestBytes g k))
  s.setGroup g fun x => { x with wins := x.wins.map fun w => if w.k = k then { w with closed := true } else w }

/-- The slab of window `k` is cleared for reuse, or discarded. -/
def State.dropWin (s : State) (g k : Nat) : State :=
  let e := (s.group g).e
  (s.yClear (slabAddr e k) (geSize e)).setGroup g fun x => { x with wins := x.wins.filter fun w => w.k != k }

/-- The window that the edge of beat `b` cuts in group `g`, if it exists (R118). -/
def State.cutWin (s : State) (g b : Nat) : Option Nat :=
  let l := geLag (s.group g).e
  if b < l + 1 then none else (s.win g (b - 1 - l)).map (·.k)

/-- Slabs cut at the edge of beat `b`, as (group, window). -/
def State.cutSlabs (s : State) (b : Nat) : List (Nat × Nat) :=
  s.liveGroups.filterMap fun g => (s.cutWin g b).map fun k => (g, k)

/-- Windows open at the edge of beat `b` for every live group (R126). -/
def State.openWindows (s : State) (b tq : Nat) : State :=
  if s.yardOn then s.each s.liveGroups fun g t => t.openWin g b tq else s

/-- Every window, open or cut, is discarded without a run (R40). -/
def State.discardWindows (s : State) : State :=
  s.each s.groupList fun g t => t.each ((t.group g).wins.map (·.k)) fun k u => u.dropWin g k

/-! Where the samples of a frame belong (R113, R114, R117, R322, R323). -/

/-- What becomes of one sample instant before the cut is asked. -/
inductive Sample where
  | format
  | range
  | unsyncDrop
  | noWindow
  /-- Placed in window `k` at `slot` with its bytes; `unsync` for a placement by arrival time. -/
  | put (k slot : Nat) (data : List Byte) (unsync : Bool)
  deriving DecidableEq, Repr

/-- Words of `n` bytes turned from network order to little-endian (R122). -/
def swapWords (n : Nat) (bs : List Byte) : List Byte :=
  (List.range (bs.length / n)).flatMap fun i => ((bs.drop (n * i)).take n).reverse

/-- A sample at grid number `g` of a group. -/
def State.gridSample (s : State) (e : List Byte) (g : Nat) (data : List Byte) (unsync : Bool) : Sample :=
  let k := windowOf s.rate (gridTime (geRate e) g)
  .put k (g - gridOfEdge s.rate (geRate e) k) data unsync

/-- Unsynchronised placement of instant `j` of `n` (R113). -/
def State.arrivalSample (s : State) (e : List Byte) (arr j n : Nat) (data : List Byte) : Sample :=
  let back := geDelay e * 1000 + (n - 1 - j) * (1000000000 / geRate e)
  if arr < back then .noWindow else s.gridSample e (gridBefore (geRate e) (arr - back)) data true

/-- ASDU `j` of a sampled-value frame. -/
def State.svSample (s : State) (e fe : List Byte) (arr first j n : Nat) (a : Asdu) : Sample :=
  let f := geRate e
  if a.smpCnt ≥ f then .range
  else if a.smpCnt ≠ (first + j) % feWrap fe ∨ a.data.length ≠ 8 * geChannels e ∨ a.smpSynch = 3 ∨ a.smpSynch = 4 then .format
  else
    let data := swapWords 4 a.data
    if a.smpSynch = 0 then
      (if geUnsync e then s.arrivalSample e arr j n data else .unsyncDrop)
    else
      let off := a.smpCnt * 1000000000 / f
      if arr + 500000000 < off then .noWindow
      else s.gridSample e ((arr + 500000000 - off) / 1000000000 * f + a.smpCnt) data false

/-- Sample size of an HRS format. -/
def hrsSize (f : Nat) : Nat := if f = 1 then 2 else 4

/-- The whole-frame tests of R117, and NSAMP of at least 1 (R116). -/
def hrsOk (e pdu : List Byte) : Bool :=
  beAt pdu 28 4 == geRate e && beAt pdu 32 1 == geChannels e && beAt pdu 33 1 == geFormat e
    && decide (1 ≤ beAt pdu 34 2)
    && beAt pdu 36 2 == beAt pdu 34 2 * geChannels e * hrsSize (geFormat e)
    && decide (beAt pdu 1 1 < 8) && beAt pdu 22 2 == 0 && decide (beAt pdu 38 1 < 16) && beAt pdu 39 9 == 0

/-- Instant `j` of an HRS frame. -/
def State.hrsSample (s : State) (e pdu : List Byte) (arr j : Nat) : Sample :=
  let f := geRate e
  let w := geChannels e * hrsSize (geFormat e)
  let data := swapWords (hrsSize (geFormat e)) ((pdu.drop (48 + j * w)).take w)
  if bitOf (beAt pdu 1 1) 0 then s.gridSample e (beAt pdu 16 6 * f + beAt pdu 24 4 + j) data false
  else if geUnsync e then s.arrivalSample e arr j (beAt pdu 34 2) data
  else .unsyncDrop

/-- The message of a GOOSE frame as its slot holds it (R125). -/
def msgSlot (a : Apdu) (arr : Nat) : List Byte :=
  leBytes 4 a.stNum ++ leBytes 4 a.sqNum ++ leBytes 4 a.ttl ++ leBytes 1 (b2n a.test + 2 * b2n a.ndsCom + 4 * b2n a.sim)
    ++ leBytes 1 0 ++ leBytes 2 a.allData.length ++ timeBytes arr ++ leBytes 2 a.entries ++ leBytes 4 a.confRev ++ a.allData

/-- The tests of R323 on a yard header. -/
def State.yardOk (s : State) (pdu : List Byte) : Bool :=
  let t := beAt pdu 1 1
  let len := beAt pdu 36 2
  beAt pdu 32 4 == s.rate && decide (beAt pdu 38 1 < 16) && decide (beAt pdu 39 1 < 8)
    && (if t = 1 then len % 64 == 0 && decide (len ≤ 9088) && beAt pdu 40 4 == 0 && beAt pdu 44 4 == 0xFFFFFFFF
        else if t = 2 then len % 4 == 0 && decide (len ≤ 9088)
        else if t = 3 then len == 24 && beAt pdu 40 4 == 0 && beAt pdu 44 4 == 0xFFFFFFFF
        else false)

/-- The frame is for this device (R323). -/
def State.yardMine (s : State) (pdu : List Byte) : Bool :=
  bitOf (beAt pdu 38 1) 3 || beAt pdu 28 2 == s.get F.TUDEL_CFG_DEVICE_ID

/-- Chunk `i` of a yard frame (R322). -/
def yardSample (e pdu : List Byte) (i : Nat) : Sample :=
  let slot := beAt pdu 30 2 + i
  let len := beAt pdu 36 2
  let d := (pdu.drop (48 + 64 * i)).take (min 64 (len - 64 * i))
  if slot ≥ geSlots e then .range else .put (beAt pdu 16 8) slot (d ++ List.replicate (64 - d.length) 0) false

/-- The samples of an accepted frame in order, or none when the whole frame is refused as FORMAT (`inl false`) or as
RANGE (`inl true`). -/
def State.samples (s : State) (g : Nat) (h : Handover) : Bool ⊕ List Sample :=
  let e := (s.group g).e
  let pdu := h.fr.pdu
  match geKind e with
  | 0 =>
    match Config.iecApdu h.fr.kind h.fr.transport pdu with
    | none => .inl false
    | some a =>
      let n := a.asdus.length
      let first := (a.asdus.head?.map (·.smpCnt)).getD 0
      .inr (a.asdus.zipIdx.map fun x => s.svSample e h.entry h.fr.arr first x.2 n x.1)
  | 1 =>
    if !hrsOk e pdu then .inl false
    else if beAt pdu 24 4 ≥ geRate e then .inl true
    else .inr ((List.range (beAt pdu 34 2)).map fun j => s.hrsSample e pdu h.fr.arr j)
  | 2 =>
    match Config.iecApdu h.fr.kind h.fr.transport pdu with
    | none => .inl false
    | some a =>
      if a.allData.length > geElem e - 32 then .inr [.format]
      else .inr [.put h.beat 0 (msgSlot a h.fr.arr) false]
  | _ =>
    if !s.yardOk pdu then .inl false
    else if beAt pdu 1 1 = 3 then .inr []
    else .inr ((List.range (ceilDiv (beAt pdu 36 2) 64)).map fun i => yardSample e pdu i)

/-- Status bits that the placed samples of the frame set: Q_OR, SIM, TS_UNCHECKED (R124). -/
def State.frameBits (s : State) (g : Nat) (h : Handover) : Nat :=
  let e := (s.group g).e
  let sim := match geKind e with
    | 1 => bitOf (beAt h.fr.pdu 1 1) 1
    | 3 => false
    | _ => match Config.iecApdu h.fr.kind h.fr.transport h.fr.pdu with
      | none => false
      | some a => a.sim
  (if geKind e = 1 then beAt h.fr.pdu 38 1 * 2 ^ 24 else 0) + b2n sim * 2 ^ 22 + b2n h.unchecked * 2 ^ 17

/-! Refusals. -/

/-- LATE (R118): counted, LATE_PREV of the current slab, event 0x5002. -/
def State.sampleLate (s : State) (g m flow b : Nat) : State :=
  let s := ((s.bump F.MYARD_CNT_LATE).groupCount g 1 1).setStat g b m statLate
  s.limited 0x5002 flow 1 fun k t => t.raise 0x5002 106 g flow k 0

/-- FUTURE (R118). -/
def State.sampleFuture (s : State) (g m flow b : Nat) : State :=
  let s := ((s.bump F.MYARD_CNT_FUTURE).groupCount g 2 1).setStat g b m fun w => setBit w 20
  s.limited 0x5003 flow 1 fun k t => t.raise 0x5003 106 g flow k 0

/-- FORMAT or RANGE, of a sample or of a whole frame. -/
def State.sampleFormat (s : State) (g m flow b : Nat) (range : Bool) : State :=
  let s := ((s.bump (if range then F.MYARD_CNT_RANGE else F.MYARD_CNT_FORMAT)).groupCount g 3 1).setStat g b m fun w => setBit w 21
  s.limited 0x5004 flow 1 fun k t => t.raise 0x5004 106 g flow k 0

/-- A flow's samples are or are not synchronised: event 0x500B on a change (R137). -/
def State.syncState (s : State) (g flow : Nat) (unsync : Bool) : State :=
  let old := (s.flow flow).unsync
  let s := s.setFlow flow fun x => { x with unsync := some unsync }
  match old with
  | some b => if b = unsync then s else s.raise 0x500B 106 g flow 0 (b2n unsync)
  | none => s

/-! Placement (R121). -/

/-- A slot of an open window takes a sample once; a second placement is compared. -/
def State.place (s : State) (g m flow k slot : Nat) (data : List Byte) (unsync : Bool) (bits : Nat) : State :=
  let e := (s.group g).e
  let a := slabAddr e k
  let slot := if geKind e = 2 then bitsOf (s.yLe (statAddr e k m) 8) 32 16 else slot
  if geKind e = 2 ∧ geSlots e ≤ slot then s.bump F.MYARD_CNT_MSG_OVF
  else
    let pa := a + presOfs e + 8 * (m * presWords e + slot / 64)
    let pw := s.yLe pa 8
    let da := a + dataOfs e + m * slabStride e + slot * geElem e
    let d := (data ++ List.replicate (geElem e - data.length) 0).take (geElem e)
    if bitOf pw (slot % 64) then
      if s.yBytes da (geElem e) = d then
        (s.bump F.MYARD_CNT_DUP).setStat g k m fun w => setBit w 19
      else
        (((s.bump F.MYARD_CNT_CONFLICT).groupCount g 5 1).setStat g k m fun w => setBit w 18).raise 0x5007 106 g flow 0 (k % 2 ^ 32)
    else
      let s := (s.ySet pa 8 (setBit pw (slot % 64))).yStore da d
      let s := s.setStat g k m fun w => statPlaced (w ||| bits ||| (b2n unsync * 2 ^ 16))
      (s.bump F.MYARD_CNT_PLACED).groupCount g 0 1

/-- One sample instant of a frame verified in beat `b` (R118). -/
def State.placeSample (s : State) (g m flow b bits : Nat) : Sample → State
  | .format => s.sampleFormat g m flow b false
  | .range => s.sampleFormat g m flow b true
  | .unsyncDrop => (s.syncState g flow true).bump F.MYARD_CNT_UNSYNC_DROP
  | .noWindow => s.bump F.MYARD_CNT_NOWIN
  | .put k slot d u =>
    let e := (s.group g).e
    let s := s.when (geKind e ≤ 1) fun t => t.syncState g flow u
    if b < k then s.sampleFuture g m flow b
    else if k + 1 + geLag e ≤ b then s.sampleLate g m flow b
    else match s.win g k with
      | none => s.bump F.MYARD_CNT_NOWIN
      | some w => if w.closed then s else s.place g m flow k slot d u bits

/-- A flow's member index: its own, or the lowest free one for a flow without (R109); on a STANDBY none is given (R294). -/
def State.memberFor (s : State) (g flow : Nat) : State × Option Nat :=
  match s.memberOf g flow with
  | some m => (s, some m.idx)
  | none =>
    if s.standby then (s, none)
    else match s.freeIndex g with
      | some i => (s.giveIndex g flow i, some i)
      | none => (s.limited 0x5006 g 1 fun k t => t.raise 0x5006 106 g flow k 0, none)

/-- The member index of an accepted frame's flow: a flow without one gets it here, at its first accepted frame (R109). -/
def State.acceptMember (s : State) (flow : Nat) (e : List Byte) : State × Option Nat :=
  let g := feGroup e
  if !s.yardOn ∨ g = 0xFFFF ∨ !geValid (s.group g).e ∨ geWithdrawn (s.group g).e ∨ !tqRuns s.tq then (s, none)
  else s.memberFor g flow

/-- One more in statistic `i` (8 to 15) of a slice (R247). -/
def State.statAdd (s : State) (n i k : Nat) : State :=
  { s with groom := { s.groom with stats := Table.modify (List.replicate 16 0) n (fun l => cntAdd l i k) s.groom.stats } }

/-- R331: the yard epoch table, for a result of a flow of slice `n`; false when it is stale (R239). -/
def State.epochCheck (s : State) (n yflow epoch : Nat) : State × Bool :=
  if yflow = 0 then (s, true)
  else
    let rest := s.yard.epochs.filter fun x => x.1 != yflow
    match s.yard.epochs.find? fun x => x.1 == yflow with
    | some (_, o) =>
      if epoch < o then
        (((s.bump F.GROOM_CNT_STALE).statAdd n 11 1).limited 0x7005 (2 ^ 32 + yflow) 1 fun k t => t.raise 0x7005 108 yflow epoch k 0, false)
      else (s.setYard fun x => { x with epochs := (yflow, epoch) :: rest }, true)
    | none =>
      if rest.length < 4096 then (s.setYard fun x => { x with epochs := (yflow, epoch) :: rest }, true)
      else
        let s := (s.bump F.TUDEL_CNT_EPOCH_EVICT).flag F.TUDEL_STATUS_EPOCH_EVICT
        let s := s.raiseLim 0 0xB006 179 ((rest.getLast?.map (·.1)).getD 0) 0 0 0
        (s.setYard fun x => { x with epochs := (yflow, epoch) :: rest.take 4095 }, true)

/-- Sample instants, messages or chunks that a frame carries; a frame refused as a whole is one (assumption log 125). -/
def State.sampleCount (s : State) (g : Nat) (h : Handover) : Nat :=
  match s.samples g h with
  | .inl _ => 1
  | .inr l => l.length

/-- The sample is of none of these windows. -/
def Sample.outside (gone : List Nat) : Sample → Bool
  | .put k _ _ _ => !gone.contains k
  | _ => true

/-- Placement of one accepted frame, in the order of R118, with the enable and the member index that it had when it was accepted
(R109, R133); abandoned instants are not judged again (R120). On a STANDBY the samples of a flow without an index are counted
(R294). -/
def State.placeFrame (s : State) (h : Handover) : State :=
  let g := feGroup h.entry
  if !h.on then s.bump F.MYARD_CNT_OFF
  else if g = 0xFFFF ∨ !geValid (s.group g).e ∨ geWithdrawn (s.group g).e then s.bump F.MYARD_CNT_NOSLAB
  else if !tqRuns h.tq then s.bump F.MYARD_CNT_NOWIN
  else
    match h.member with
    | none =>
      ((s.bump F.MYARD_CNT_NOMEMBER).groupCount g 4 1).when s.standby fun u =>
        u.addTo F.PAIR_CNT_STBY_NOMEMBER (s.sampleCount g h)
    | some m =>
      let e := (s.group g).e
      match s.samples g h with
      | .inl r => s.sampleFormat g m h.flow h.beat r
      | .inr l =>
        let pdu := h.fr.pdu
        let l := l.filter (Sample.outside h.gone)
        if geKind e = 3 ∧ !s.yardMine pdu then s.bump F.TUDEL_CNT_NOT_MINE
        else
          let bits := s.frameBits g h
          if geKind e = 3 ∧ beAt pdu 1 1 = 2 then
            match s.epochCheck (feSlice h.entry) (beAt pdu 40 4) (beAt pdu 44 4) with
            | (u, false) => u
            | (u, true) => u.each l fun x v => v.placeSample g m h.flow h.beat bits x
          else s.each l fun x u => u.placeSample g m h.flow h.beat bits x

/-- The waiting frame that is placed when the `i`-th is named: messages of one member go in order of vc (R125), so the oldest of the
flow goes in its place. -/
def State.placeTurn (s : State) (i : Nat) (h : Handover) : Nat :=
  if geKind (s.group (feGroup h.entry)).e = 2 then (s.yard.queue.findIdx? fun x => x.flow == h.flow).getD i else i

/-- The yard places the `i`-th waiting frame (R118, R120). -/
def samplePlace (i : Nat) (s : State) : State :=
  match s.yard.queue[i]? with
  | none => s
  | some h =>
    let j := s.placeTurn i h
    match s.yard.queue[j]? with
    | none => s
    | some x => (s.setYard fun y => { y with queue := y.queue.eraseIdx j }).placeFrame x

def execSamplePlace (i : Nat) (s : State) : Res := fin (samplePlace i s)

/-! The cut settle (R120). -/

/-- The window of group `g` that the edge of beat `b` cuts holds sample `x` of a waiting frame. -/
def State.cutHolds (s : State) (g b : Nat) : Sample → Bool
  | .put k _ _ _ => decide (k + 1 + geLag (s.group g).e = b) && (s.win g k).isSome
  | _ => false

/-- A waiting RESULT frame that R331 will discard, or a yard frame that is not for this device, is no placement (R323). -/
def State.notPlacement (s : State) (g : Nat) (h : Handover) : Bool :=
  let pdu := h.fr.pdu
  geKind (s.group g).e == 3 && (!s.yardMine pdu || (beAt pdu 1 1 == 2 && beAt pdu 40 4 != 0
    && s.yard.epochs.any fun x => x.1 == beAt pdu 40 4 && decide (beAt pdu 44 4 < x.2)))

/-- Instants of a waiting frame that belong to the window cut at the edge of beat `b` are abandoned: SETTLE and LATE counted,
SETTLE_MISSED and CUT_LATE set (R120). -/
def State.abandon (s : State) (b : Nat) (h : Handover) : State :=
  let g := feGroup h.entry
  let e := (s.group g).e
  if b ≤ h.beat ∨ !h.on ∨ g = 0xFFFF ∨ !geValid e ∨ geWithdrawn e ∨ !tqRuns h.tq ∨ s.notPlacement g h then s
  else match h.member, s.samples g h with
    | some m, .inr l =>
      let hit := l.filter (s.cutHolds g b)
      let k := b - 1 - geLag e
      let fa := slabAddr e k + 52
      let s := s.each hit fun _ t => (t.bump F.MYARD_CNT_SETTLE).sampleLate g m h.flow b
      if hit.isEmpty then s
      else
        let s := (s.ySet fa 4 (setBit (s.yLe fa 4) 0)).setRes fun r => { r with cutLate := true }
        s.setYard fun y => { y with queue := y.queue.map fun x => if x = h then { x with gone := k :: x.gone } else x }
    | _, _ => s

/-- Unfinished placements are abandoned, the slabs cut at the edge are closed and digested. -/
def State.cutSettle (s : State) (b : Nat) : State :=
  let s := s.each s.yard.queue fun h t => t.abandon b h
  s.each (s.cutSlabs b) fun gk t => t.closeWin gk.1 gk.2

/-! Banks (R130 to R132). -/

/-- Group `g` has a slab on logical bank `b`. -/
def State.onBank (s : State) (g b : Nat) : Bool :=
  let e := (s.group g).e
  decide (geBase e < (b + 1) * 131072 ∧ b * 131072 < geBase e + ringBytes e)

/-- A logical bank is retired with no spare left (R131); its groups are placed again at the next edge. -/
def State.bankRetire (s : State) (b : Nat) : State :=
  let s := (s.put F.MYARD_CAP_BANKS (s.get F.MYARD_CAP_BANKS - 1)).flag F.MYARD_STATUS_SHRUNK
  let s := s.setYard fun x => { x with retired := x.retired ++ [b], retiring := x.retiring ++ [b] }
  s.raise 0x5009 106 (s.get F.MYARD_CAP_BANKS) 0 0 0

/-- The next group to withdraw: lowest KEEP, then highest number (R132). -/
def State.victim (s : State) : Option Nat :=
  s.liveGroups.foldl (fun b n =>
    match b with
    | none => some n
    | some m => if geKeep (s.group n).e ≤ geKeep (s.group m).e then some n else some m) none

/-- Group `g` is withdrawn: event 0x5008. -/
def State.withdraw (s : State) (g : Nat) : State :=
  let s := s.each ((s.group g).wins.map (·.k)) fun k t => t.dropWin g k
  let s := s.setGroup g fun x => { x with e := setLe x.e 0 1 (setBit (geFlags x.e) 1) }
  (s.flag F.MYARD_STATUS_WITHDRAWN).raise 0x5008 106 g 0 0 0

/-- Place the groups of `hit` again, withdrawing groups until every group still valid fits. -/
def State.replaceFit (s : State) (hit : List Nat) : Nat → State
  | 0 => s
  | k + 1 =>
    let keep := s.liveGroups.filter fun n => !hit.contains n
    match s.allocAll keep (s.liveGroups.filter hit.contains) with
    | (t, true) => t
    | (_, false) =>
      match s.victim with
      | none => s
      | some g => (s.withdraw g).replaceFit hit k

/-- At the edge after a retirement, groups on retired banks move or are withdrawn (R132); while the yard is disabled no group has a
slab. -/
def State.groupReplace (s : State) : State :=
  if s.yard.retiring.isEmpty then s
  else if !s.bit F.MYARD_CTRL then s.setYard fun x => { x with retiring := [] }
  else
    let hit := s.liveGroups.filter fun g => s.yard.retiring.any fun b => s.onBank g b
    let s := s.setYard fun x => { x with retiring := [] }
    let s := s.each hit fun g t =>
      let n := (t.group g).wins.length
      let t := t.each ((t.group g).wins.map (·.k)) fun k u => u.dropWin g k
      (t.groupCount g 6 n).setGroup g fun x => { x with replaced := true }
    (s.replaceFit hit 4097).syncAlloc

/-- A spare bank that holds all of the old content takes over at a beat edge (R130): at most one, the lowest (R609). -/
def State.bankSwitch (s : State) : State :=
  let done' := s.yard.taking.filter fun t => t.2.2
  match done'.foldl (fun (b : Option (Nat × Nat × Bool)) t => match b with
      | none => some t
      | some x => if t.1 < x.1 then some t else some x) none with
  | none => s
  | some t =>
    (s.setYard fun x => { x with bankMap := Table.put t.1 t.1 t.2.1 x.bankMap, taking := x.taking.erase t }).raise 0x500A 106
      t.1 t.2.1 0 0

end Sys2Proof.Machine
end

