-- ==== Sys2Proof/Machine/Rx.lean ====
section
/-! DEFINITION. What a port makes of a received frame (R54 to R57, R65, R66): length and address tests, IEEE 802.1Q tags,
the RCT and the HSR tag, IP and UDP tests, and the path that the frame takes. -/

namespace Sys2Proof.Machine

/-- The paths of R55 and the discards before them. -/
inductive RxPath where
  | flow (fr : RxFrame)
  | small (ptp : Bool) (tag : Option (Nat × Nat))
  | supervision
  | stray
  | tagErr
  | l3Err
  deriving DecidableEq, Repr

/-- The one's-complement sum of 16-bit big-endian words, folded. -/
def ocSum : List Byte → Nat
  | a :: b :: t => a.toNat * 256 + b.toNat + ocSum t
  | [a] => a.toNat * 256
  | [] => 0
def ocFold (n : Nat) : Nat := let m := n % 65536 + n / 65536; m % 65536 + m / 65536

/-- The RCT at the end of a PDU (IEC 62439-3): sequence number and LAN (0 A, 1 B), when its suffix, LAN identifier and
size agree. -/
def rctOf (pdu : List Byte) : Option (Nat × Nat) :=
  let n := pdu.length
  if n < 6 then none
  else
    let o := n - 6
    let w := beAt pdu (o + 2) 2
    if beAt pdu (o + 4) 2 = 0x88FB ∧ w % 4096 = n ∧ (w / 4096 = 0xA ∨ w / 4096 = 0xB) then
      some (beAt pdu o 2, w / 4096 - 0xA)
    else none

/-- A datagram is a flow-path candidate (R56): the bytes of IP source, transport, UDP segment, and whether the tests pass;
none for any other datagram. -/
def udpCandidate (sv90 hrs et : Nat) (ip : List Byte) : Option (List Byte × Nat × List Byte × Bool) :=
  if et = 0x0800 then
    let ihl := beAt ip 0 1 % 16
    let udp := ip.drop (4 * ihl)
    let frag := beAt ip 6 2
    let dp := beAt udp 2 2
    if beAt ip 9 1 = 17 ∧ frag % 8192 = 0 ∧ (dp = sv90 ∨ dp = hrs) then
      let len := beAt udp 4 2
      let ck := beAt udp 6 2
      let pseudo := (ip.drop 12).take 8
      let sum := ocFold (ocSum pseudo + 17 + len + ocSum (udp.take len))
      let ok := ihl = 5 && ocFold (ocSum (ip.take 20)) == 0xFFFF && !bitOf frag 13 && (ck == 0 || sum == 0xFFFF)
      some ((ip.drop 12).take 4, 1, udp, ok)
    else none
  else
    let udp := ip.drop 40
    let dp := beAt udp 2 2
    if beAt ip 6 1 = 17 ∧ (dp = sv90 ∨ dp = hrs) then
      let len := beAt udp 4 2
      let ck := beAt udp 6 2
      let sum := ocFold (ocSum ((ip.drop 8).take 32) + 17 + len + ocSum (udp.take len))
      some ((ip.drop 8).take 16, 2, udp, ck != 0 && sum == 0xFFFF)
    else none

/-- 16 bytes of SOURCE from fewer. -/
def pad16 (bs : List Byte) : List Byte := bs ++ List.replicate (16 - bs.length) 0

/-- SOURCE of a frame whose source is an address: a MAC address stands in bytes 16 and up of the entry, that is first. -/
def State.ethPath (s : State) (n arr vid mac et : Nat) (src pdu : List Byte) (tag : Option (Nat × Nat))
    (inHsr : Bool) : RxPath :=
  let mk (kind tr stream : Nat) (source p : List Byte) : RxPath := .flow ⟨n, arr, kind, tr, vid, stream, source, mac, tag, p⟩
  if et = 0x88BA then mk 2 0 (beAt pdu 0 2) (pad16 src) pdu
  else if et = 0x88B8 then mk 1 0 (beAt pdu 0 2) (pad16 src) pdu
  else if et = s.get F.PORT_GLB_ETYPE_HRS_ETYPE then mk 3 0 (beAt pdu 4 4) (pad16 src) pdu
  else if et = s.get F.PORT_GLB_ETYPE_YARD_ETYPE then mk 4 0 (beAt pdu 4 4) (pad16 (leBytes 2 (beAt pdu 24 2))) pdu
  else if et = 0x0800 ∨ et = 0x86DD then
    match udpCandidate (s.get F.PORT_GLB_UDP_SV90_UDP) (s.get F.PORT_GLB_UDP_HRS_UDP) et pdu with
    | none => .small false tag
    | some (ipSrc, tr, udp, ok) =>
      if !ok then .l3Err
      else
        let p := udp.drop 8
        if beAt udp 2 2 = s.get F.PORT_GLB_UDP_SV90_UDP then
          match Config.iec905 p with
          | some (k, a) => mk k tr a (pad16 ipSrc) p
          | none => mk 0 tr 0 (pad16 ipSrc) p
        else mk 3 tr (beAt p 4 4) (pad16 ipSrc) p
  else if et = 0x88F7 then .small true tag
  else if et = 0x0806 ∨ et = 0x88CC then .small false tag
  else if et = 0x88FB then
    (match s.pairOf n with
     | some (m, _) => if s.redMode m = 1 ∨ inHsr then .supervision else .stray
     | none => .stray)
  else .stray

/-- The VLAN of a frame under R55: the VID it is classified with, the EtherType and what follows it; none for a tag
fault. -/
def State.vlan (s : State) (n : Nat) (bs : List Byte) : Option (Nat × Nat × List Byte) :=
  let et := beAt bs 12 2
  let mode := s.get (pt F.PORT_CFG_VLAN_MODE n)
  let pvid := s.get (pt F.PORT_PVID_PVID n)
  if et = 0x88A8 then none
  else if et = 0x8100 then
    let vid := beAt bs 14 2 % 4096
    let et2 := beAt bs 16 2
    if et2 = 0x8100 ∨ et2 = 0x88A8 then none
    else if vid = 0 then (if mode = 1 then none else some (pvid, et2, bs.drop 18))
    else if mode = 2 then none
    else some (vid, et2, bs.drop 18)
  else if mode = 1 then none
  else some (pvid, et, bs.drop 14)

/-- The path of a frame that passed R54, with its RCT or HSR sequence number and LAN identifier. -/
def State.rxPath (s : State) (n arr : Nat) (bs : List Byte) : RxPath × Option (Nat × Nat) :=
  let src := (bs.drop 6).take 6
  let mac := beAt bs 6 6
  match s.vlan n bs with
  | none => (.tagErr, none)
  | some (vid, et, pdu) =>
    match s.pairOf n with
    | none => (s.ethPath n arr vid mac et src pdu none false, none)
    | some (m, lan) =>
      if s.redMode m = 2 ∧ et = 0x892F then
        let t := (beAt pdu 2 2, lan)
        (s.ethPath n arr vid mac (beAt pdu 4 2) src (pdu.drop 6) (some t) true, some t)
      else if s.redMode m = 1 then
        match rctOf pdu with
        | some (q, l) => (s.ethPath n arr vid mac et src (pdu.take (pdu.length - 6)) (some (q, lan)) false, some (q, l))
        | none => (s.ethPath n arr vid mac et src pdu none false, none)
      else (s.ethPath n arr vid mac et src pdu none false, none)

/-- An octet that marks a multicast or broadcast destination. -/
def isGroupMac (d : Nat) : Bool := bitOf d 40

end Sys2Proof.Machine
end

