-- ==== Sys2Proof/Machine/Gate.lean ====
section
/-! DEFINITION. The check gate (chapter 3): classification (R80, R81), strays and rate limits (R621, R622), the stages of
R74 with key selection (R93, R620), engine admission (R86), replay check and commit (R97), promotion (R94), instances (R82,
R83), duplicate discard (R62) and hand-over, flow and key access (R102 to R104), and MAC jobs (R99 to R101). -/

namespace Sys2Proof.Machine

/-! Token buckets (R622). -/

/-- Take a token from a bucket of `rate` tokens per second at elapsed time `now`: whether there was one, and the bucket. -/
def takeToken (b : Option (Nat × Nat)) (rate now : Nat) : Bool × Option (Nat × Nat) :=
  let cap := rate * 1000000000
  let have' := match b with
    | none => cap
    | some (v, t) => min cap (v + (now - t) * rate)
  if 1000000000 ≤ have' then (true, some (have' - 1000000000, now)) else (false, some (have', now))

/-! Strays and small traffic. -/

/-- A frame that matches nothing (R621). -/
def State.strayRx (s : State) (n arr : Nat) (bs : List Byte) : State :=
  let s := s.bump F.GATE_CNT_STRAY
  let s := if n < 96 then s.bump (pt F.PORT_CNT_RX_STRAY n) else s
  let k := s.get F.GATE_CFG_STRAY_SAMPLE
  if k = 0 then s
  else if s.gate.strays + 1 < k then s.setGate fun x => { x with strays := x.strays + 1 }
  else
    let (ok, b) := takeToken s.gate.strayTok (s.get F.GATE_CFG_STRAY_RATE) s.clk
    let s := s.setGate fun x => { x with strays := 0, strayTok := b }
    if !ok then s.bump F.GATE_CNT_STRAY_DROP
    else if s.ym.stray.length < 256 then
      (s.setYm fun x => { x with stray := s.ym.stray ++ [(n, arr, bs.take 128)] }).setPending 448
    else (s.bump F.GATE_CNT_STRAY_DROP).queueDrop 0

/-- A small-traffic frame toward the yardmaster within its limit (R55, R622, R496). -/
def State.smallRx (s : State) (n arr : Nat) (ptp : Bool) (bs : List Byte) : State :=
  let rate := 16 * s.get (if ptp then F.GATE_SMALL_RATE_PTP_RATE else F.GATE_SMALL_RATE_OTHER_RATE)
  let (ok, b) := takeToken (if ptp then s.gate.ptpTok else s.gate.otherTok) rate s.clk
  let s := s.setGate fun x => if ptp then { x with ptpTok := b } else { x with otherTok := b }
  if !ok then s.bump F.GATE_CNT_SMALL_DROP
  else if ptp then
    if s.ym.ptp.length < 256 then
      ((s.setYm fun x => { x with ptp := s.ym.ptp ++ [(n, arr, bs)] }).setPending 449).bump F.GATE_CNT_SMALL
    else (s.bump F.GATE_CNT_SMALL_DROP).queueDrop 2
  else if s.ym.small.length < 1024 then
    ((s.setYm fun x => { x with small := s.ym.small ++ [(n, arr, bs)] }).setPending 450).bump F.GATE_CNT_SMALL
  else (s.bump F.GATE_CNT_SMALL_DROP).queueDrop 1

/-! Classification (R80, R81), against entries with the waiting changes applied (R103). -/

/-- What a change does to an entry and its state. -/
def FlowOp.apply (op : FlowOp) (x : FlowEnt) : FlowEnt :=
  match op with
  | .invalidate => { x with e := feSetFlag 0 false x.e, rep := Replay.empty }
  | .resetReplay => { x with rep := Replay.empty }
  | .setQuar => { x with e := feSetFlag 4 true x.e }
  | .clearQuar => { x with e := feSetFlag 4 false x.e }
  | .setNext k v => { x with e := feSetFlag 5 v (setLe x.e 42 2 k) }
  | .install e => { FlowEnt.empty with e := e }

/-- A waiting change takes the instance `x` of a template with it (R83). -/
def State.takesInstance (s : State) (c : FlowChange) (x : FlowEnt) : Bool :=
  c.op == .invalidate && feInstance x.e && feTplRef x.e == c.flow && feTemplate (s.flow c.flow).e

/-- The entry of flow `n` as frames classified now see it. -/
def State.viewFlow (s : State) (n : Nat) : FlowEnt :=
  s.gate.changes.foldl (fun x c => if c.flow = n || s.takesInstance c x then c.op.apply x else x) (s.flow n)

/-- Flows that have an entry or await one, ascending. -/
def State.flowList (s : State) : List Nat :=
  ((s.gate.changes.map (·.flow)).foldl (fun t n => Table.insert n () t) (s.gate.flows.map fun f => (f.1, ()))).map (·.1)

/-- The exact match fields but for ingress and VID. -/
def exactMatch (fr : RxFrame) (e : List Byte) : Bool :=
  feValid e && !feTemplate e && feKind e == fr.kind && feTransport e == fr.transport && feStream e == fr.stream
    && feSource e == fr.source

/-- The first `n` bits of two byte lists agree. -/
def prefixEq (n : Nat) (a b : List Byte) : Bool :=
  a.take (n / 8) == b.take (n / 8)
    && (n % 8 == 0 || (a.getD (n / 8) 0).toNat / 2 ^ (8 - n % 8) == (b.getD (n / 8) 0).toNat / 2 ^ (8 - n % 8))

/-- A template matches but for ingress and VID (R81). -/
def tplMatch (fr : RxFrame) (e : List Byte) : Bool :=
  feValid e && feTemplate e && feKind e == fr.kind && feTransport e == fr.transport
    && (feStream e &&& feStreamMask e) == (fr.stream &&& feStreamMask e)
    && prefixEq (feSrcPlen e) (feSource e) fr.source

/-- The ingress values that a frame may match, in the order of R80; Tudel frames match any ingress only (R319). -/
def State.ingressClasses (s : State) (fr : RxFrame) : List Nat :=
  if fr.port ≥ 96 then [0x7FFF]
  else match s.pairOf fr.port with
    | none => [fr.port, 0x7FFF]
    | some (m, _) => [fr.port, 0x8000 + m, 0x7FFF]

/-- Pairs of ingress and VID in the order in which R80 tries them. -/
def State.matchOrder (s : State) (fr : RxFrame) : List (Nat × Nat) :=
  (s.ingressClasses fr).flatMap fun i => [(i, fr.vid), (i, 0x0FFF)]

/-- Stage 1: the flow, or else the template of lowest number. -/
def State.classify (s : State) (fr : RxFrame) : Option Nat :=
  let l := s.flowList
  let ord := s.matchOrder fr
  match ord.findSome? fun iv => l.find? fun n =>
      let e := (s.viewFlow n).e
      exactMatch fr e && feIngress e == iv.1 && feVid e == iv.2 with
  | some n => some n
  | none => l.find? fun n =>
      let e := (s.viewFlow n).e
      tplMatch fr e && ord.any fun iv => feIngress e == iv.1 && feVid e == iv.2

/-! Stage 2: the security extension or the tag trailer (R84, R85, R117, R320). -/

/-- Tag length of an algorithm of R84, 0 for none. -/
def tagLenOf (alg : Nat) : Nat :=
  match alg with
  | 1 => 10 | 2 => 16 | 3 => 32 | 4 => 8 | 5 => 16 | 6 => 8 | 7 => 16 | _ => 0
def algKnown (alg : Nat) : Bool := decide (1 ≤ alg ∧ alg ≤ 7)
def algGmac (alg : Nat) : Bool := decide (4 ≤ alg ∧ alg ≤ 7)

/-- The trailer of an HRS or yard PDU. -/
def trailerSec (pdu : List Byte) : Option Sec :=
  let pay := beAt pdu 36 2
  let o := 48 + pay
  let tl := beAt pdu (o + 5) 1
  if beAt pdu 0 1 ≠ 1 ∨ beAt pdu 2 2 ≠ 48 ∨ 9136 < pay ∨ pdu.length < o + 32 + tl ∨ beAt pdu (o + 6) 2 ≠ 0
      ∨ beAt pdu (o + 18) 2 ≠ 0 then none
  else some ⟨beAt pdu o 4, beAt pdu (o + 4) 1, beAt pdu (o + 8) 6 * 1000000000 + beAt pdu (o + 14) 4, (pdu.drop (o + 20)).take 12,
    (pdu.drop (o + 32)).take tl, tl, pdu.take (o + 32), false⟩

/-- The APDU of an IEC frame is usable: it parses, and a sampled-value frame carries 1 to 16 ASDUs (R95). -/
def apduOk (fr : RxFrame) : Bool :=
  match Config.iecApdu fr.kind fr.transport fr.pdu with
  | none => false
  | some a => fr.kind != 2 || decide (1 ≤ a.asdus.length ∧ a.asdus.length ≤ 16)

/-- Stage 2: none is MALFORMED. -/
def parseSec (fr : RxFrame) : Option Sec :=
  let sec := if fr.kind = 3 ∨ fr.kind = 4 then trailerSec fr.pdu
    else if apduOk fr then Config.iecSec fr.transport fr.pdu else none
  match sec with
  | none => none
  | some x => if x.encrypted || (algKnown x.alg && x.tagLen != tagLenOf x.alg) then none else some x

/-- Stage 3. -/
def lenOk (fr : RxFrame) (x : Sec) : Bool := decide (x.span.length ≤ if fr.kind ≤ 2 then 1518 else 9216)

/-! Rejects (R74, R75, R105). -/

/-- The counters, flags and events of a reject with a code of R74. -/
def State.reject (s : State) (flow code : Nat) : State :=
  let s := match code with
    | 0x7 => (s.bump F.GATE_CNT_TAG).flowCount flow 1
    | 0x8 => (s.bump F.GATE_CNT_TS).flowCount flow 3
    | 0x9 => (s.bump F.GATE_CNT_REPLAY).flowCount flow 2
    | 0xA => (s.bump F.GATE_CNT_REPLAY).flowCount flow 2
    | 0xB => (s.bump F.GATE_CNT_NOENTRY).flag F.GATE_STATUS_TPL_FULL
    | 0xC => ((s.bump F.GATE_CNT_CAP).flowCount flow 6).flag F.GATE_STATUS_CAP_DROP
    | 0x1 => (s.bump F.GATE_CNT_FORM).flowCount flow 5
    | 0xD => (s.bump F.GATE_CNT_FORM).flowCount flow 5
    | _ => (s.bump F.GATE_CNT_KEY).flowCount flow 4
  if code = 0xB ∨ code = 0xC then s
  else s.limited 0x4009 (flow * 16 + code) 1 fun k t => t.raise 0x4009 105 flow code k 0

/-! Stage 4 (R93, R620). -/

/-- The key that a key ID selects: its cache entry and whether it is the previous key. -/
def State.selectKey (s : State) (e : List Byte) (id : Nat) : Option (Nat × Bool) :=
  if (s.keyE (feKeyCur e)).keyId = id then some (feKeyCur e, false)
  else if feNextValid e && (s.keyE (feKeyNext e)).keyId == id then some (feKeyNext e, false)
  else if fePrevValid e && (s.keyE (feKeyPrev e)).keyId == id then some (feKeyPrev e, true)
  else none

/-- The time limits of R91 at device second `t`. -/
def keyInTime (k : KeyEnt) (t : Nat) : Bool := decide (k.notBefore ≤ t) && (k.notAfter == 0 || decide (t < k.notAfter))

/-- Stage 4, the time limits being left to stage 6 (R91): a reject code or the key. A frame that fails the test of its algorithm
reaches no stage 6; the time limits, which come before that test (R620), are then those of the cycle of its arrival (DESIGN
CHOICE, assumption log 137). -/
def State.stage4 (s : State) (x : FlowEnt) (sec : Sec) : Nat ⊕ Nat :=
  match s.selectKey x.e sec.keyId with
  | none => .inl 0x2
  | some (k, prev) =>
    let key := s.keyE k
    if prev && decide (s.clk - x.graceAt > feGrace x.e * 1000000) then .inl 0x3
    else if key.st = 3 then .inl 0x3
    else if key.st = 2 then .inl 0x4
    else if key.st = 0 ∨ !bitOf key.usage 0 then .inl 0x5
    else if !algKnown sec.alg || !bitOf (feAlgMask x.e) (sec.alg - 1) || sec.alg != key.alg then
      .inl (if timeValid s.tq && !keyInTime key (s.nowNs / 1000000000) then 0x5 else 0x6)
    else .inr k

/-! Stage 5: the engines (R86). Work is counted in units of 3.125 ps. -/

def Engine.pick (e : Engine) : Engine :=
  match e.prio, e.other with
  | w :: p, _ => { e with cur := some (true, w), prio := p }
  | [], w :: o => { e with cur := some (false, w), other := o }
  | [], [] => e

/-- An engine works for `u` units; it never interrupts a frame in service. -/
def Engine.run : Nat → Nat → Engine → Engine
  | 0, _, e => e
  | k + 1, u, e =>
    match e.cur with
    | none => let e' := e.pick
      if e'.cur.isNone then e' else Engine.run k u e'
    | some (p, w) => if w ≤ u then Engine.run k (u - w) { e with cur := none } else { e with cur := some (p, w - u) }

def Engine.fuel (e : Engine) : Nat := 2 * (e.prio.length + e.other.length) + 4

def Engine.prioWork (e : Engine) : Nat :=
  e.prio.sum + match e.cur with
    | some (true, w) => w
    | _ => 0
def Engine.allWork (e : Engine) : Nat :=
  e.prio.sum + e.other.sum + match e.cur with
    | some (_, w) => w
    | none => 0

/-- Both engines have worked until now. -/
def State.runEngines (s : State) : State :=
  let u := (s.clk - s.gate.engAt) * 320
  s.setGate fun x => { x with engAt := s.clk, gmac := Engine.run x.gmac.fuel u x.gmac, hmac := Engine.run x.hmac.fuel u x.hmac }

/-- Work of a frame: 1 / 12.8 G s for GMAC, max(1 / 2.5 G, c / 6.4 G) s for HMAC. -/
def frameWork (alg span : Nat) : Nat := if algGmac alg then 25 else max 128 (50 * (ceilDiv (span + 9) 64 + 1))

/-- Admission: the queue's limit of held work is 2 µs for PRIO and 6 µs for the other. -/
def Engine.admits (e : Engine) (prio : Bool) : Bool :=
  if prio then decide (e.prioWork ≤ 640000) else decide (e.allWork ≤ 1920000)
def Engine.add (e : Engine) (prio : Bool) (w : Nat) : Engine :=
  if prio then { e with prio := e.prio ++ [w] } else { e with other := e.other ++ [w] }

/-- The engine that a job needs is idle at elapsed time `t`: the frames admitted so far have left it by then (R101). An opcode of no
engine waits for none. -/
def State.engineFree (s : State) (j : MacJob) (t : Nat) : Bool :=
  let op := leAt j.body 0 1
  let free := fun (e : Engine) => decide (e.allWork ≤ (t - s.gate.engAt) * 320)
  if op = 1 ∨ op = 2 then free s.gate.gmac else if op = 3 ∨ op = 4 then free s.gate.hmac else true

/-- Slice `n` has fewer jobs in service than INFLIGHT (R101). -/
def State.jobRoom (s : State) (n : Nat) : Bool :=
  decide ((s.gate.jobs.filter fun j => j.started && j.slice == n).length < s.get F.GATE_JOB_CFG_INFLIGHT)

/-- A job may be taken into service at elapsed time `t`. -/
def State.mayStart (s : State) (t : Nat) (j : MacJob) : Bool := !j.started && s.jobRoom j.slice && s.engineFree j t

/-- Waiting jobs are taken into service, slice by slice in turn, each slice's oldest first (R101). -/
def State.startJobs : Nat → State → State
  | 0, s => s
  | k + 1, s =>
    let turn := fun (j : MacJob) => (j.slice + 255 - s.gate.jobRr) % 256
    match (s.gate.jobs.filter (s.mayStart s.clk)).map turn with
    | [] => s
    | x :: xs =>
      let best := xs.foldl min x
      match s.gate.jobs.findIdx? fun j => s.mayStart s.clk j && turn j == best with
      | none => s
      | some i => State.startJobs k (s.setGate fun g => { g with
          jobs := g.jobs.modify i fun j => { j with started := true }, jobRr := (s.gate.jobRr + 1 + best) % 256 })
def State.serveJobs (s : State) : State := State.startJobs s.gate.jobs.length s

/-- A flow-path frame from classification to admission (stages 1 to 5). -/
def State.gateRx (s : State) (fr : RxFrame) (bs : List Byte) : State :=
  if !s.bit F.GATE_CTRL then s.bump F.GATE_CNT_OFF
  else match s.classify fr with
    | none => s.strayRx fr.port fr.arr bs
    | some n =>
      let x := s.viewFlow n
      match parseSec fr with
      | none => s.reject n 0xD
      | some sec =>
        if !lenOk fr sec then s.reject n 0x1
        else match s.stage4 x sec with
          | .inl c =>
            let s := s.reject n c
            if c = 0x2 then (s.flag F.GATE_STATUS_KEY_MISS).raiseLim sec.keyId 0x4001 105 n sec.keyId 0 0 else s
          | .inr k =>
            let s := s.serveJobs.runEngines
            let gm := algGmac sec.alg
            let eng := if gm then s.gate.gmac else s.gate.hmac
            let prio := fePrio x.e
            if !eng.admits prio then
              (s.reject n 0xC).raiseLim 0 0x4008 105 n (b2n (!gm)) 0 0
            else
              let eng := eng.add prio (frameWork sec.alg sec.span.length)
              let f : Inflight := ⟨s.gate.seq, fr, n, x.e, sec, k, (s.keyE k).material⟩
              s.setGate fun g => { (if gm then { g with gmac := eng } else { g with hmac := eng }) with
                seq := g.seq + 1, inflight := g.inflight ++ [f] }

/-! Reception. -/

/-- PORT_TS_ASYM.ING as signed nanoseconds added to the arrival time (R57). -/
def State.arrival (s : State) (n : Nat) : Nat := ((s.nowNs : Int) + toSigned 16 (s.get (pt F.PORT_TS_ASYM_ING n))).toNat

/-- A frame that passed R54 takes its path. -/
def State.portRx (s : State) (n : Nat) (bs : List Byte) : State :=
  let arr := s.arrival n
  let (path, tag) := s.rxPath n arr bs
  let mac := beAt bs 6 6
  let pair := s.pairOf n
  let s := match pair with
    | none => s
    | some (m, lan) =>
      let s := s.nodeSeen m mac
      match tag with
      | some (_, l) => if s.redMode m = 1 ∧ l ≠ lan then s.wrongLan m else s
      | none => s
  let pass (t : State) : State :=
    let t := (t.bump (pt F.PORT_CNT_RX_FRAMES n)).addTo (pt F.PORT_CNT_RX_BYTES n) (bs.length + 4)
    t.setPwr fun x => { x with rxBytes := t.pwr.rxBytes + bs.length + 4 }
  match path with
  | .tagErr => s.bump (pt F.PORT_CNT_RX_TAGERR n)
  | .l3Err => s.bump (pt F.PORT_CNT_RX_L3ERR n)
  | .supervision =>
    match pair with
    | none => s
    | some (m, _) => s.supervisionRx m mac
  | .stray => (pass s).strayRx n arr bs
  | .flow fr => (pass s).gateRx fr bs
  | .small ptp tg =>
    match pair, tg with
    | some (m, _), some (q, l) =>
      if ptp then (pass s).smallRx n arr ptp bs
      else match (pass s).unauthDup m mac q l with
        | (t, true) => t.smallRx n arr ptp bs
        | (t, false) => t
    | _, _ => (pass s).smallRx n arr ptp bs

/-- Ring forwarding of a frame with an HSR tag (R66), which precedes the address test. -/
def State.hsrForward (s : State) (n : Nat) (bs : List Byte) : State :=
  match s.pairOf n, s.vlan n bs with
  | some (m, lan), some (_, et, pdu) =>
    let own := s.get (pt F.PORT_MAC n)
    if s.redMode m = 2 ∧ et = 0x892F ∧ beAt bs 0 6 ≠ own ∧ beAt bs 6 6 ≠ own then
      s.ringForward m (beAt bs 6 6) (beAt pdu 2 2) lan bs
    else s
  | _, _ => s

def State.tLink (s : State) (j : Nat) : TLink := Table.at TLink.init j s.tud.links
def State.setTLink (s : State) (j : Nat) (g : TLink → TLink) : State :=
  s.setTud fun x => { x with links := Table.modify TLink.init j g s.tud.links }

/-- A frame received on a port, or on Tudel link `n − 96` as a yard frame; `bs` runs from the destination address to the
last byte before the FCS, or is the Tudel body; `uncorr` uncorrectable FEC codewords came since the last frame of the port. A
frame from a Tudel link has no VLAN tag and is classified with VID 0x0FFF, which only a flow that names no VID matches (DESIGN
CHOICE, assumption log 135). -/
def frameRx (n : Nat) (bs : List Byte) (fcsOk : Bool) (uncorr dt : Nat) (s : State) : State :=
  let s := s.elapse dt
  if n ≥ 96 then
    let s := s.setTLink (n - 96) fun x => { x with rxAt := s.clk }
    if s.get (F.TUDEL_LINKj_STATUS_LSTATE.idx (n - 96)) ≠ 3 ∨ !fcsOk then s.bump F.TUDEL_CNT_RX_DROP
    else
      let fr : RxFrame := ⟨n, s.nowNs, 4, 0, 0x0FFF, beAt bs 4 4, pad16 (leBytes 2 (beAt bs 24 2)), 0, none, bs⟩
      (s.bump F.TUDEL_CNT_RX_FRAMES).gateRx fr bs
  else
    let st := s.lstate n
    let s := s.when (st != 0 && s.get (pt F.PORT_CFG_FEC n) != 0) fun t => t.addTo (pt F.PORT_CNT_FEC_UNCORR n) uncorr
    if st = 2 ∨ st = 4 then s.bump (pt F.PORT_CNT_RX_PENDING n)
    else if st ≠ 3 then s
    else
      let len := bs.length + 4
      let da := beAt bs 0 6
      if !fcsOk then s.bump (pt F.PORT_CNT_RX_FCS n)
      else if len < 64 then s.bump (pt F.PORT_CNT_RX_RUNT n)
      else if s.get (pt F.PORT_MTU n) < len then s.bump (pt F.PORT_CNT_RX_LONG n)
      else
        let s := s.hsrForward n bs
        if !isGroupMac da && da != s.get (pt F.PORT_MAC n) then s.bump (pt F.PORT_CNT_RX_DA n)
        else s.portRx n bs

def execFrameRx (n : Fin 104) (bs : List Byte) (fcsOk : Bool) (dt : Nat) (s : State) (uncorr : Nat := 0) : Res :=
  fin (frameRx n bs fcsOk uncorr dt s)

/-! Stages 6 to 11. -/

/-- The outcome of the replay check (R97). -/
inductive ReplayRes where
  | new | repeated | reanchor | tooOld
  deriving DecidableEq, Repr

/-- replay_check of R97. -/
def replayCheck (r : Replay) (p n ts : Nat) (valid : Bool) : ReplayRes :=
  let q := p + n - 1
  if !r.active then .new
  else if p + 63 < r.top then (if valid && decide (r.lastTs < ts) then .reanchor else .tooOld)
  else if (List.range n).any fun i => decide (p + i ≤ min q r.top) && bitOf r.bitmap (r.top - (p + i)) then .repeated
  else .new

/-- commit of R97, on the replay state. -/
def replayCommit (r : Replay) (p n ts : Nat) (re : Bool) : Replay :=
  let q := p + n - 1
  let r : Replay :=
    if re || !r.active then ⟨q, 0, ts, true⟩
    else if r.top < q then
      let sh := q - r.top
      ⟨q, if 64 ≤ sh then 0 else r.bitmap * 2 ^ sh % 2 ^ 64, ts, true⟩
    else r
  { r with bitmap := (List.range n).foldl (fun b i => if r.top - (p + i) ≤ 63 then setBit b (r.top - (p + i)) else b) r.bitmap }

/-- The extension of R96, on 64-bit positions (R95): one that falls below zero wraps (DESIGN CHOICE, assumption log 138). -/
def extendPos (r : Replay) (m raw : Nat) : Nat :=
  if !r.active then 2 ^ 32 + raw
  else
    let d := (raw + m - r.top % m) % m
    if m ≤ 2 * d then (r.top + d + 2 ^ 64 - m) % 2 ^ 64 else r.top + d

/-- The position of a frame and the positions it covers (R95). -/
def framePos (fr : RxFrame) (e : List Byte) (r : Replay) : Nat × Nat :=
  if fr.kind = 3 ∨ fr.kind = 4 then (beAt fr.pdu 8 8, 1)
  else match Config.iecApdu fr.kind fr.transport fr.pdu with
    | none => (0, 1)
    | some a =>
      if fr.kind = 1 then (a.stNum * 2 ^ 32 + a.sqNum, 1)
      else if fr.transport = 0 then
        (extendPos r (feWrap e) ((a.asdus.head?.map (·.smpCnt)).getD 0), a.asdus.length)
      else (extendPos r (2 ^ 32) a.spdu, 1)

/-- One more GMAC invocation of a key (R90): at 2^32 − 1 it expires, with event 0x4002, and the count goes no further. -/
def State.keyUse (s : State) (k : Nat) : State :=
  let key := s.keyE k
  if !algGmac key.alg || decide (2 ^ 32 - 1 ≤ key.count) then s
  else
    let c := key.count + 1
    let s := s.setKey k fun x => { x with count := c, st := if c = 2 ^ 32 - 1 then 2 else x.st }
    if c = 2 ^ 32 - 1 then s.raise 0x4002 105 k 0 0 0 else s

/-- The NOTICE record of a created or removed instance (R293). -/
def State.notice (s : State) (n : Nat) : State :=
  if s.runsItems then
    s.pairSend 7 0 s.beat (beBytes 1 0x22 ++ beBytes 3 0 ++ beBytes 4 n ++ feBytes (s.flow n).e)
  else s

/-- The lowest platform entry at or above `base` that is not valid (R82). -/
def freeFlow (base : Nat) : Table FlowEnt → Nat
  | [] => base
  | (n, x) :: t => if n < base then freeFlow base t else if n = base ∧ feValid x.e then freeFlow (base + 1) t else base

/-- The instance of a template for a frame (R82): a copy of the template with the frame's match fields; TPL_COUNT, which a template
alone has, is zero. -/
def instanceEntry (tpl : Nat) (e : List Byte) (fr : RxFrame) (ing : Nat) : List Byte :=
  let e := feSetFlag 2 true (feSetFlag 1 false (feBytes e))
  let e := setLe (setLe (setLe e 4 2 ing) 6 2 fr.vid) 8 4 fr.stream
  setLe (setLe (setLe e 16 16 (leNat fr.source)) 50 2 tpl) 54 2 0

/-- An instance goes (R83): event 0x4005, its template's count, its member index, a NOTICE. -/
def State.removeInstance (s : State) (n : Nat) : State :=
  let s := s.memberRemove n
  let tpl := feTplRef (s.flow n).e
  let s := s.setFlow n fun x => { x with e := feSetFlag 0 false x.e, rep := Replay.empty }
  let s := (s.setFlow tpl fun x => { x with e := setLe x.e 54 2 (feTplCount x.e - 1) }).raise 0x4005 105 n 0 0 0
  s.notice n

/-- Promotion (R94). -/
def State.promote (s : State) (n k : Nat) : State :=
  let e := (s.flow n).e
  if feNextValid e && feKeyNext e == k then
    let s := s.setFlow n fun x =>
      { x with graceAt := s.clk
               e := feSetFlag 6 true (feSetFlag 5 false (setLe (setLe x.e 44 2 (feKeyCur x.e)) 40 2 k)) }
    s.raise 0x4003 105 n k 0 0
  else s

/-- Where the yard will not place an accepted frame (INFO bit 5 of R143). -/
def State.notPlaced (s : State) (e : List Byte) (fr : RxFrame) : Bool :=
  let g := feGroup e
  feQuar e || !s.bit F.MYARD_CTRL || g == 0xFFFF || !geValid (s.group g).e || geWithdrawn (s.group g).e
    || (fr.kind == 4 && (!s.yardOk fr.pdu || !s.yardMine fr.pdu))

/-- Stage 11: the accepted frame goes to the Loft and, unless quarantined, to the yard; a FREEZE yard frame is a freeze
request (R324). `apart` marks a template frame on a standby, which only the Loft takes (R293). -/
def State.handOver (s : State) (n : Nat) (e : List Byte) (fr : RxFrame) (pos : Nat) (unchecked apart : Bool) : State :=
  let np := apart || s.notPlaced e fr
  let info := s.tq + 8 * b2n (feQuar e) + 16 * b2n unchecked + 32 * b2n np
  let s := s.loftEnter s.beat (loftEntry (n + fr.port * 2 ^ 17 + feSlice e * 2 ^ 24) pos fr.arr info 1 fr.pdu)
  if apart then s
  else if feQuar e then s.flowCount n 7
  else
    let on := s.yardOn
    let (s, m) := s.acceptMember n e
    let s := s.setYard fun x => { x with queue := x.queue ++ [⟨fr, n, e, s.beat, s.tq, unchecked, on, m, []⟩] }
    if fr.kind = 4 ∧ beAt fr.pdu 1 1 = 3 ∧ s.yardOk fr.pdu ∧ s.yardMine fr.pdu then
      let p := fr.pdu.drop 48
      (s.freezeRequest 3 none (beAt p 12 4) (beAt p 16 4) (beAt p 10 2) (beAt p 4 6 * 1000000000 + beAt p 0 4)
        (beAt fr.pdu 16 8)).1
    else s

/-- Stage 9 onwards for a frame that is new. -/
def State.commitFrame (s : State) (n : Nat) (f : Inflight) (p cnt : Nat) (re unchecked : Bool) : State :=
  let s := s.setFlow n fun x => { x with rep := replayCommit x.rep p cnt f.sec.ts re, lastAt := s.clk }
  let s := s.when re fun t => (t.bump F.GATE_CNT_REANCHOR).raise 0x4007 105 n 0 0 0
  let s := (s.promote n f.key).keyUse f.key
  let s := match s.pairOf f.fr.port, f.fr.tag with
    | some (m, _), some (q, lan) => s.enterSeq m f.fr.mac q lan
    | _, _ => s
  let s := (s.bump F.GATE_CNT_ACCEPT).flowCount n 0
  s.handOver n f.entry f.fr p unchecked false

/-- R62 for a REPEAT frame: a redundancy duplicate, untracked, or a replay. -/
def State.repeatFrame (s : State) (n : Nat) (f : Inflight) : State :=
  match s.pairOf f.fr.port, f.fr.tag with
  | some (m, lan), some (q, _) =>
    if (s.node m f.fr.mac).isNone then s.bump (rd F.RED_CNT_UNTRACKED m)
    else if s.seqHeld m f.fr.mac q lan false then s.bump (rd F.RED_CNT_DUP m)
    else s.reject n 0xA
  | _, _ => s.reject n 0xA

/-- Stage 7 passes a frame unchecked, which the flow counts (R92). -/
def State.stage7 (s : State) (n : Nat) (valid : Bool) : State := s.when (!valid) fun t => t.flowCount n 8

/-- The end of stage 7 and stages 8 to 11 on flow `n`. -/
def State.stage8 (s : State) (n : Nat) (f : Inflight) (valid : Bool) : State :=
  let s := s.stage7 n valid
  let r := (s.flow n).rep
  let (p, cnt) := framePos f.fr f.entry r
  match replayCheck r p cnt f.sec.ts valid with
  | .tooOld => s.reject n 0x9
  | .repeated => s.repeatFrame n f
  | .new => s.commitFrame n f p cnt false (!valid)
  | .reanchor => s.commitFrame n f p cnt true (!valid)

/-- The ingress that an instance takes: the class under which the template matched. -/
def State.instIngress (s : State) (e : List Byte) (fr : RxFrame) : Nat :=
  if (s.ingressClasses fr).contains (feIngress e) then feIngress e else 0x7FFF

/-- A frame under a template (R82, R293). One that was classified to the template before an earlier frame made the instance of its
match fields passes stages 8 to 11 on that instance (DESIGN CHOICE, assumption log 139). -/
def State.templateFrame (s : State) (f : Inflight) (valid : Bool) : State :=
  let tpl := f.flow
  if s.standby then
    let (p, _) := framePos f.fr f.entry Replay.empty
    (s.stage7 tpl valid).handOver tpl f.entry f.fr p (!valid) true
  else
    let ing := s.instIngress f.entry f.fr
    let same := s.flowList.find? fun n =>
      let e := (s.viewFlow n).e
      exactMatch f.fr e && feInstance e && feTplRef e == tpl && feIngress e == ing && feVid e == f.fr.vid
    match same with
    | some n => s.stage8 n f valid
    | none =>
      let n := freeFlow (s.get F.GATE_TPL_POOL) s.gate.flows
      let e := (s.flow tpl).e
      if feTplLimit e ≤ feTplCount e ∨ 65535 < n then
        (((s.stage7 tpl valid).reject tpl 0xB).raiseLim tpl 0x4006 105 tpl 0 0 0)
      else
        let s := s.setFlow n fun _ => { FlowEnt.empty with e := instanceEntry tpl f.entry f.fr ing }
        let s := s.setFlow tpl fun x => { x with e := setLe x.e 54 2 (feTplCount x.e + 1) }
        let s := ((s.bump F.GATE_CNT_INST).raise 0x4004 105 n tpl 0 0).notice n
        s.stage8 n { f with entry := (s.flow n).e } valid

/-- Stages 4 (time limits) and 6 to 11 of a frame. A key that expired while the frame was under way is refused here: every use
after the one that expired it is (R90). -/
def State.verify (s : State) (f : Inflight) : State :=
  let valid := timeValid s.tq
  let now := s.nowNs
  let tol := feTsTol f.entry * 1000000
  if (s.keyE f.key).st = 2 then s.reject f.flow 0x4
  else if valid && !keyInTime (s.keyE f.key) (now / 1000000000) then s.reject f.flow 0x5
  else if Config.checkValue f.sec.alg f.material f.sec.iv f.sec.span ≠ f.sec.tag then s.reject f.flow 0x7
  else if valid && (decide (f.sec.ts + tol < now) || decide (now + tol < f.sec.ts)) then s.reject f.flow 0x8
  else if feTemplate f.entry then s.templateFrame f valid
  else s.stage8 f.flow f valid

/-! Changes that wait (R103). -/

/-- A change to flow `c.flow` is made: the entry, and what follows from it. Event 0x400A is raised by SET_QUAR and CLEAR_QUAR, also
where the bit does not change, and by no WRITE or install (DESIGN CHOICE, assumption log 140). On a standby instances go on NOTICE
records alone (R293), so that an INVALIDATE leaves them. -/
def State.applyChange (s : State) (c : FlowChange) : State :=
  let e := (s.flow c.flow).e
  let n := c.flow
  match c.op with
  | .invalidate =>
    if !feValid e then s
    else if feInstance e then (if s.standby then s else s.removeInstance n)
    else if feTemplate e then
      let l := (s.gate.flows.filter fun f => feValid f.2.e && feInstance f.2.e && feTplRef f.2.e == n).map (·.1)
      (s.each (if s.standby then [] else l) fun i t => t.removeInstance i).setFlow n fun x => c.op.apply x
    else (s.memberRemove n).setFlow n fun x => c.op.apply x
  | .install _ => (s.memberRemove n).setFlow n fun x => c.op.apply x
  | .setQuar => (s.setFlow n fun x => c.op.apply x).raise 0x400A 105 n 1 0 0
  | .clearQuar => (s.setFlow n fun x => c.op.apply x).raise 0x400A 105 n 0 0 0
  | .setNext _ _ =>
    let s := s.setFlow n fun x => c.op.apply x
    s.when (feTemplate e) fun t => t.setGate fun x => { x with propagate := x.propagate ++ [n] }
  | .resetReplay => s.setFlow n fun x => c.op.apply x

/-- The one that waits is told. -/
def State.changeDone (s : State) (c : FlowChange) : State :=
  match c.by' with
  | .facc => (s.put F.GATE_FACC_CMD_BUSY 0).put F.GATE_STATUS_FACC_BUSY 0
  | .slice n id q => s.cmdDone n id q 0 []
  | .hw => s

/-- Frames classified before the change to its flow, or to instances of it, are still under way. -/
def State.changeWaits (s : State) (c : FlowChange) : Bool :=
  s.gate.inflight.any fun f => decide (f.seq < c.seq) && (f.flow == c.flow || feTplRef (s.flow f.flow).e == c.flow
    && feInstance (s.flow f.flow).e && feTemplate (s.flow c.flow).e)

/-- Make every change that need not wait, in order. -/
def State.settleList (s : State) : List FlowChange → State
  | [] => s
  | c :: cs =>
    if s.changeWaits c then s.settleList cs
    else (((s.setGate fun x => { x with changes := x.changes.filter fun d => d.seq != c.seq }).applyChange c).changeDone c).settleList cs

def State.settle (s : State) : State := s.settleList s.gate.changes

/-- Ask for a change; it takes effect at once when no frame classified before it is under way. -/
def State.askChange (s : State) (n : Nat) (op : FlowOp) (b : FlowBy) : State :=
  let s := s.setGate fun x => { x with changes := x.changes ++ [⟨x.seq, n, op, b⟩], seq := x.seq + 1 }
  let s := match b with
    | .facc => (s.flag F.GATE_FACC_CMD_BUSY).flag F.GATE_STATUS_FACC_BUSY
    | _ => s
  s.settle

/-- The frames that complete stage 6 in this cycle after those of `l` are left: the completions that wait next without time
between (R76; assumption log 141). -/
def completing : List Instr → List Inflight → List Inflight
  | .verifyComplete j 0 :: cs, l =>
    match l[j]? with
    | none => completing cs l
    | some f => f :: completing cs (l.eraseIdx j)
  | _, _ => []

/-- Of two frames, the one that R76 takes first: the lower port, then the earlier arrival. -/
def firstOf (a b : Inflight) : Inflight :=
  if b.fr.port < a.fr.port ∨ (b.fr.port = a.fr.port ∧ b.seq < a.seq) then b else a

/-- The frame of the same flow that is taken in the place of `f` (R76). -/
def State.inTurn (s : State) (i : Nat) (f : Inflight) : Inflight :=
  ((completing s.pending (s.gate.inflight.eraseIdx i)).filter fun g => g.flow == f.flow).foldl firstOf f

/-- Stage 6 of the `i`-th frame under way completes. Of the frames of one flow that complete in one cycle, those are taken in the
order of R76, each in the place of the one named. -/
def verifyComplete (i dt : Nat) (s : State) : State :=
  let s := s.elapse dt
  match s.gate.inflight[i]? with
  | none => s
  | some f0 =>
    let f := s.inTurn i f0
    let s := s.setGate fun x => { x with
      inflight := (if f = f0 then x.inflight else x.inflight.map fun g => if g = f then f0 else g).eraseIdx i }
    let bits := if algGmac f.sec.alg then 8 * f.sec.span.length else 0
    let s := s.setPwr fun x => { x with gmacBits := s.pwr.gmacBits + bits }
    (s.verify f).settle

def execVerifyComplete (i dt : Nat) (s : State) : Res := fin (verifyComplete i dt s)

/-! Enable and flow access (R102, R104). -/

/-- A write of GATE_CTRL.EN; the stray count restarts (R621). -/
def gateCtrlWrite (d : Nat) (s : State) : State :=
  let en := bitOf d 0
  let s := s.when (en && !s.bit F.GATE_CTRL) fun t => t.freshLimits (rateBlock 4)
  let s := (s.putB F.GATE_CTRL en).putB F.GATE_STATUS_RUNNING en
  if en then s.setGate fun x => { x with strays := 0 } else s

def execGateEnable (m : Master) (d : Nat) (s : State) : Res := fin (s.regWrite m 0x400000 (gateCtrlWrite d))

def faccIn (g : State → State) (t : State) : State := if t.bit F.GATE_FACC_CMD_BUSY then t else g (t.put F.GATE_FACC_CMD_ERR 0)
def faccCmd (m : Master) (g : State → State) (s : State) : State := s.regWrite m 0x400024 (faccIn g)

/-- A refused flow command (R102). -/
def faccErr (e : Nat) (s : State) : State := (s.put F.GATE_FACC_CMD_ERR e).flag F.GATE_STATUS_FACC_ERR

def State.faccFlow (s : State) : Nat := s.get F.GATE_FACC_IDX

def gateReadOp (t : State) : State := t.putBytes F.GATE_FACC_DATAn 16 (feBytes (t.flow t.faccFlow).e)
def execGateRead (m : Master) (s : State) : Res := fin (faccCmd m gateReadOp s)

/-- Reserved bits and bytes of R79 are zero. -/
def feReservedOk (e : List Byte) : Bool :=
  !bitOf (feFlags e) 7 && decide (leAt e 1 1 < 64) && !bitOf (feAlgMask e) 7 && leAt e 33 1 == 0 && leAt e 56 8 == 0

/-- ALG_MASK is not zero and KIND is one that R79 names: an entry without is invalid (R73, R79). -/
def feFormOk (e : List Byte) : Bool :=
  feAlgMask e != 0 && decide (1 ≤ feKind e ∧ feKind e ≤ 4) && decide (feTransport e < 3)

/-- The other tests of R73, R79 and R88 for a valid entry `n`. -/
def feRangesOk (n : Nat) (e : List Byte) : Bool :=
  let inR (x a b : Nat) : Bool := decide (a ≤ x ∧ x ≤ b)
  let ing := feIngress e
  (ing == 0x7FFF || decide (ing < 96) || decide (0x8000 ≤ ing ∧ ing < 0x8000 + 48)) && decide (feVid e < 4096)
    && inR (feTsTol e) 1 60000 && decide (feGrace e ≤ 10000)
    && (!feTemplate e || (decide (n < 65536) && decide (feSrcPlen e ≤ 128) && inR (feIdle e) 1 3600
      && inR (feTplLimit e) 1 16384))
    && (decide (n < 65536) || (feKeyCur e / 256 == (n - 65536) / 256 && (!feNextValid e || feKeyNext e / 256 == (n - 65536) / 256)))

/-- Two non-template entries have the same match fields (R80). -/
def sameMatch (a b : List Byte) : Bool :=
  feKind a == feKind b && feTransport a == feTransport b && feIngress a == feIngress b && feVid a == feVid b
    && feStream a == feStream b && feSource a == feSource b

/-- A flow other than `n` with the match fields of `e`, in the table or waiting for its install (R80, R103). -/
def State.clashes (s : State) (n : Nat) (e : List Byte) : Bool :=
  let hit := fun (k : Nat) (x : List Byte) => k != n && feValid x && !feTemplate x && sameMatch x e
  (s.gate.flows.any fun f => hit f.1 f.2.e) || s.gate.changes.any fun c =>
    match c.op with
    | .install x => hit c.flow x
    | _ => false

/-- Entry `n` may hold `e` (R73, R79, R80). -/
def State.feAccept (s : State) (n : Nat) (e : List Byte) : Bool :=
  feReservedOk e && feFormOk e && (!feValid e || (feRangesOk n e && (feTemplate e || !s.clashes n e)))

/-- The entry with the (hw) fields as the hardware holds them (R79). An entry that is not valid holds none: what is written over it
starts as no instance and without a previous key (DESIGN CHOICE, assumption log 136). -/
def feKeepHw (old e : List Byte) : List Byte :=
  let old := if feValid old then old else []
  let e := feSetFlag 6 (fePrevValid old) (feSetFlag 2 (feInstance old) e)
  setLe (setLe (setLe e 44 2 (feKeyPrev old)) 50 2 (feTplRef old)) 54 2 (feTplCount old)

/-- WRITE of a platform entry while EN = 0 (R102); a template's new KEY_NEXT or NEXT_VALID goes on to its instances (R83). -/
def gateWrite (s : State) : State :=
  let n := s.faccFlow
  let e := feKeepHw (s.flow n).e (s.getBytes F.GATE_FACC_DATAn 16)
  if s.bit F.GATE_CTRL then faccErr 1 s
  else if 65536 ≤ n then faccErr 2 s
  else if !s.feAccept n e then faccErr 3 s
  else
    let old := (s.flow n).e
    let s := s.setFlow n fun _ => { FlowEnt.empty with e := e }
    s.when (feTemplate e && (feKeyNext e != feKeyNext old || feNextValid e != feNextValid old)) fun t =>
      t.setGate fun x => { x with propagate := x.propagate ++ [n] }

def execGateWrite (m : Master) (s : State) : Res := fin (faccCmd m gateWrite s)

def gateInvalidateOp (t : State) : State :=
  if feValid (t.flow t.faccFlow).e then t.askChange t.faccFlow .invalidate .facc else t
def execGateInvalidate (m : Master) (s : State) : Res := fin (faccCmd m gateInvalidateOp s)

/-- A command that needs a valid entry (R102). -/
def onValid (g : Nat → State → State) (s : State) : State :=
  if feValid (s.flow s.faccFlow).e then g s.faccFlow s else faccErr 4 s

def resetReplayOp : State → State := onValid fun n t => t.askChange n .resetReplay .facc
def execResetReplay (m : Master) (s : State) : Res := fin (faccCmd m resetReplayOp s)
def setQuarOp : State → State := onValid fun n t => t.askChange n .setQuar .facc
def execSetQuar (m : Master) (s : State) : Res := fin (faccCmd m setQuarOp s)
def clearQuarOp : State → State := onValid fun n t => t.askChange n .clearQuar .facc
def execClearQuar (m : Master) (s : State) : Res := fin (faccCmd m clearQuarOp s)
def readStatsOp : State → State := onValid fun n t => t.putBytes F.GATE_FACC_DATAn 10 ((t.flow n).stats.flatMap (leBytes 4))
def execReadStats (m : Master) (s : State) : Res := fin (faccCmd m readStatsOp s)
def readReplayOp : State → State := onValid fun n t => t.putBytes F.GATE_FACC_DATAn 8 (t.flow n).rep.bytes
def execReadReplay (m : Master) (s : State) : Res := fin (faccCmd m readReplayOp s)
/-- SET_NEXT takes KEY_NEXT from DATA10 [31:16]; a runtime flow names only entries of its slice (R88). The commands of GATE_FACC
but WRITE take runtime entries too (R78 speaks of writing one), and a key of another slice answers ERR 3 (DESIGN CHOICE, assumption
log 142). -/
def setNextCmd (n : Nat) (s : State) : State :=
  let k := s.get (F.GATE_FACC_DATAn.idx 10) / 65536
  if 65536 ≤ n ∧ k / 256 ≠ (n - 65536) / 256 then faccErr 3 s else s.askChange n (.setNext k true) .facc
def execSetNext (m : Master) (s : State) : Res := fin (faccCmd m (onValid setNextCmd) s)

/-! Key access (R104). -/

def kaccIn (g : State → State) (t : State) : State := if t.bit F.GATE_KACC_CMD_BUSY then t else g (t.put F.GATE_KACC_CMD_ERR 0)
def kaccCmd (m : Master) (g : State → State) (s : State) : State := s.regWrite m 0x400084 (kaccIn g)

def readMetaOp (t : State) : State := t.putBytes F.GATE_KACC_DATAn 6 (t.keyE (t.get F.GATE_KACC_IDX)).bytes
def execReadMeta (m : Master) (s : State) : Res := fin (kaccCmd m readMetaOp s)

/-- A refused key command. -/
def kaccErr (e : Nat) (s : State) : State := (s.put F.GATE_KACC_CMD_ERR e).flag F.GATE_STATUS_FACC_ERR

def keyRetireCmd (s : State) : State :=
  let k := s.get F.GATE_KACC_IDX
  if (s.keyE k).st = 0 then kaccErr 1 s
  else (s.genKeep k).setKey k fun x => { x with st := 3 }

def execRetire (m : Master) (s : State) : Res := fin (kaccCmd m keyRetireCmd s)

/-! Instances (R83). -/

/-- IDLE seconds without an accepted frame; a STANDBY waits for the NOTICE (R293). -/
def instanceIdle (n dt : Nat) (s : State) : State :=
  let s := s.elapse dt
  let x := s.flow n
  if feValid x.e && feInstance x.e && decide (s.clk - x.lastAt ≥ feIdle x.e * 1000000000) && !s.standby then
    s.askChange n .invalidate .hw
  else s

def execInstanceIdleExpiry (n dt : Nat) (s : State) : Res := fin (instanceIdle n dt s)

/-- A template's KEY_NEXT and NEXT_VALID reach its instances. -/
def templatePropagate (s : State) : State :=
  match s.gate.propagate with
  | [] => s
  | t :: rest =>
    let op := FlowOp.setNext (feKeyNext (s.flow t).e) (feNextValid (s.flow t).e)
    let l := (s.gate.flows.filter fun f => feValid f.2.e && feInstance f.2.e && feTplRef f.2.e == t).map (·.1)
    let s := s.setGate fun x => { x with propagate := rest }
    s.each l fun i u => u.askChange i op .hw

def execTemplateKeyPropagate (s : State) : Res := fin (templatePropagate s)

/-! Slice MAC jobs (R99 to R101). -/

/-- The result of R100. -/
def macResult (st len : Nat) (iv tag : List Byte) : List Byte :=
  leBytes 1 st ++ leBytes 1 len ++ leBytes 2 0 ++ (iv ++ List.replicate (12 - iv.length) 0)
    ++ (tag ++ List.replicate (32 - tag.length) 0)

/-- Status of a job before its data is used. An opcode whose class (GMAC or HMAC) is not that of the key's algorithm has status 2
(DESIGN CHOICE, assumption log 35). -/
def State.macCheck (s : State) (j : MacJob) (key : KeyEnt) : Nat :=
  let op := leAt j.body 0 1
  let gen := op = 1 || op = 3
  let valid := timeValid s.tq
  if op < 1 ∨ 4 < op ∨ leAt j.body 3 1 ≠ 0 ∨ leAt j.body 28 4 ≠ 0 then 2
  else if key.st = 0 then 3
  else if key.st = 3 then 10
  else if key.st = 2 then 5
  else if !bitOf key.usage (if gen then 2 else 1) then 4
  else if algGmac key.alg != decide (op ≤ 2) then 2
  else if valid && !keyInTime key (s.nowNs / 1000000000) then 9
  else if leAt j.body 2 1 ≠ tagLenOf key.alg ∨ 9216 < leAt j.body 4 4 then 6
  else 0

/-- A job ends with a status: counted and delivered (R101, R348). TAG_LEN of the result is that of the descriptor, and IV and TAG
are zero but for a generation that succeeded (DESIGN CHOICE, assumption log 143). -/
def State.macEnd (s : State) (j : MacJob) (st : Nat) (iv tag : List Byte) : State :=
  (s.bump F.GATE_CNT_JOBS).cqPush j.slice ⟨3, j.cmdId, 0, 48, 0, macResult st (leAt j.body 2 1) iv tag, []⟩

/-- Job `i` of service completes, in cycles that the frame queues leave idle (R101); `data` is what its DMA read, none for a fault. -/
def State.macJobEnd (s : State) (i : Nat) (data : Option (List Byte)) : State :=
  match s.gate.jobs[i]? with
  | none => s
  | some j =>
    if !j.started || !s.engineFree j s.clk then s else
    let s := s.setGate fun x => { x with jobs := x.jobs.eraseIdx i }
    let k := j.slice * 256 + leAt j.body 1 1
    let key := s.keyE k
    let st := s.macCheck j key
    if st ≠ 0 then s.macEnd j st [] []
    else match data with
      | none => s.macEnd j 7 [] []
      | some d =>
        let d := d.take (leAt j.body 4 4)
        let s := s.addTo (sl F.SLICE_CNT_DMA_BYTES j.slice) d.length
        let op := leAt j.body 0 1
        let iv := if op = 1 then beBytes 4 s.gate.macFixed ++ beBytes 8 key.count
          else if op = 2 then (j.body.drop 16).take 12 else []
        let tag := Config.checkValue key.alg key.material iv d
        if op = 1 ∨ op = 3 then (s.keyUse k).macEnd j 0 iv tag
        else if tag = (j.body.drop 32).take (tagLenOf key.alg) then s.macEnd j 0 [] []
        else s.macEnd j 1 [] []

/-- A job completes, and others are taken into service. -/
def macJobDone (i : Nat) (data : Option (List Byte)) (s : State) : State := (s.serveJobs.macJobEnd i data).serveJobs

def execMacJobDone (i : Nat) (data : Option (List Byte)) (s : State) : Res := fin (macJobDone i data s)

/-- Job `i` was not started within TMO µs: nothing let it start until then. -/
def macJobTimeout (i dt : Nat) (s : State) : State :=
  let s := s.elapse dt
  match s.gate.jobs[i]? with
  | none => s
  | some j =>
    let late := j.at' + s.get F.GATE_JOB_CFG_TMO * 1000
    if j.started || s.mayStart late j || decide (s.clk < late) then s.serveJobs
    else (s.setGate fun x => { x with jobs := x.jobs.eraseIdx i }).macEnd j 8 [] []

def execMacJobTimeout (i dt : Nat) (s : State) : Res := fin (macJobTimeout i dt s)

end Sys2Proof.Machine
end

