-- ==== Sys2Proof/Machine/Pool.lean ====
section
/-! DEFINITION. The compute pool's memories and the flow records that map state pages: stalls and sheds (R167 to R169),
what an address of the stall map names (R172), bytes and tags behind it, and flow records (R217). -/

namespace Sys2Proof.Machine

def State.setPool (s : State) (g : PoolSt → PoolSt) : State := { s with pool := g s.pool }
/-- Stall `k` = 16 × physical shed + local stall. -/
def State.stall (s : State) (k : Nat) : Stall := Table.at Stall.init k s.pool.stalls
def State.setStall (s : State) (k : Nat) (g : Stall → Stall) : State :=
  s.setPool fun x => { x with stalls := Table.modify Stall.init k g x.stalls }
def State.shed (s : State) (p : Nat) : Shed := Table.at Shed.init p s.pool.sheds
def State.setShed (s : State) (p : Nat) (g : Shed → Shed) : State :=
  s.setPool fun x => { x with sheds := Table.modify Shed.init p g x.sheds }

/-- A register of physical shed `p`. -/
def sh (f : Fld) (p : Nat) : Fld := f.shift (0x1000 * p)

/-- The service position of shed `p`, whose reset value the repair records give (R168). -/
def State.svcPos (s : State) (p : Nat) : Nat := s.get (fixRst (sh F.SHED_CFG p))

/-- The shed is enabled and its enable sequence has ended. -/
def State.shedUp (s : State) (p : Nat) : Bool := s.bit (sh F.SHED_STATUS_RUNNING p) && !s.bit (sh F.SHED_STATUS_INIT_BUSY p)

/-- The stalls of shed `p` run (R206): the shed is up and its quadrant is ON. -/
def State.shedRuns (s : State) (p : Nat) : Bool :=
  s.shedUp p && s.domState (9 + shedQuad p) == 0 && !s.domWaking (9 + shedQuad p) && !s.lifeSt.refclkLost

/-- The physical shed at service position `pos`. -/
def State.shedAt (s : State) (pos : Nat) : Option Nat :=
  (List.range 68).find? fun p => s.bit (sh F.SHED_CTRL_EN p) && s.svcPos p == pos

/-- The stall number of R167 of physical stall `k`, and back. -/
def State.stallNo (s : State) (k : Nat) : Nat := 16 * s.svcPos (k / 16) + k % 16
def State.stallPhys (s : State) (n : Nat) : Option Nat := (s.shedAt (n / 16)).map fun p => 16 * p + n % 16

/-! Flow records (R217). -/

def State.setGroom (s : State) (g : GroomSt → GroomSt) : State := { s with groom := g s.groom }
def State.flowRec (s : State) (f : Nat) : FlowRec := Table.at FlowRec.empty f s.groom.flows
def State.setFlowRec (s : State) (f : Nat) (g : FlowRec → FlowRec) : State :=
  s.setGroom fun x => { x with flows := Table.modify FlowRec.empty f g x.flows }
def FlowRec.bytes (r : FlowRec) : List Byte :=
  leBytes 4 r.epoch ++ leBytes 2 r.len ++ leBytes 1 r.home
    ++ leBytes 1 (b2n r.pageValid + 2 * b2n r.movePending + 4 * b2n r.stateLost + 8 * b2n r.inService)
    ++ leBytes 1 r.pos ++ leBytes 1 0 ++ leBytes 2 (r.lastStall.getD 0xFFFF) ++ leBytes 4 r.ofs

/-! What an address names (R172). -/

inductive Target where
  | localMem (k ofs : Nat)
  | shedMem (p ofs : Nat)
  | sem (p n : Nat)
  | yard (ofs : Nat)
  | hist (adr : Nat)
  | nowhere
  deriving DecidableEq, Repr

def histBase : Nat := 0x20000000
def histSize : Nat := 0x4000000

/-- Shed memory at a service position. -/
def State.posTarget (s : State) (pos ofs : Nat) : Target :=
  match s.shedAt pos with
  | none => .nowhere
  | some p => .shedMem p ofs

/-- The state page of a flow; nothing past its length (R173). -/
def State.pageTarget (s : State) (flow ofs : Nat) : Target :=
  let r := s.flowRec flow
  if r.pageValid ∧ ofs < 64 * r.len then s.posTarget r.pos (r.ofs + ofs) else .nowhere

/-- Addresses that DMA masters and stalls share, for a slice (R172, R374). -/
def State.sharedTarget (s : State) (slice a : Nat) : Target :=
  if 0x10000000 ≤ a ∧ a < 0x16000000 then .yard (a - 0x10000000)
  else if histBase ≤ a ∧ a < histBase + histSize then .hist (slice * histSize + (a - histBase))
  else if 0x40000000 ≤ a ∧ a < 0x44000000 then s.posTarget ((a - 0x40000000) / 0x100000) (a % 0x100000)
  else .nowhere

/-- The item in service on a stall: its slice and flow. -/
def itSlice (i : Item) : Nat := leAt i.d 3 1
def itFlow (i : Item) : Nat := leAt i.d 4 4
def itClass (i : Item) : Nat := leAt i.d 1 1 % 4
def itCost (i : Item) : Nat := leAt i.d 20 4 % 2 ^ 24

/-- What address `a` names for stall `k`. -/
def State.stallTarget (s : State) (k a : Nat) : Target :=
  let x := s.stall k
  let slice := (x.item.map itSlice).getD 0
  if a < 0x10000 then .localMem k a
  else if 0x100000 ≤ a ∧ a < 0x200000 then .shedMem (k / 16) (a - 0x100000)
  else if 0x200000 ≤ a ∧ a < 0x200080 then .sem (k / 16) ((a - 0x200000) / 4)
  else if 0x30000000 ≤ a ∧ a < 0x30010000 then
    (match x.item with
     | none => .nowhere
     | some i => s.pageTarget (itFlow i) (a - 0x30000000))
  else s.sharedTarget slice a

/-- `n` bytes at a place; nowhere reads zero. -/
def State.readTarget (s : State) (t : Target) (n : Nat) : List Byte :=
  match t with
  | .localMem k o => Memory.bytes 0 (s.stall k).mem o n
  | .shedMem p o => Memory.bytes 0 (s.shed p).mem o n
  | .yard o => s.yBytes o n
  | .hist a => Memory.bytes 0 s.loft.hist a n
  | _ => List.replicate n 0

/-- Store bytes at a place; yard SRAM is never written from here (R172). -/
def State.writeTarget (s : State) (t : Target) (bs : List Byte) : State :=
  match t with
  | .localMem k o => s.setStall k fun x => { x with mem := Memory.store 0 x.mem o bs }
  | .shedMem p o => s.setShed p fun x => { x with mem := Memory.store 0 x.mem o bs }
  | .hist a => { s with loft := { s.loft with hist := Memory.store 0 s.loft.hist a bs } }
  | _ => s

/-- The tag of the granule at a place (R371): 64-byte granules, 256-byte ones in history. -/
def State.tagOf (s : State) (t : Target) : Nat :=
  match t with
  | .localMem k o => TagMap.get (o / 64) (s.stall k).tags
  | .shedMem p o => TagMap.get (o / 64) (s.shed p).tags
  | .yard o => TagMap.get (o / 64) s.yard.tags
  | .hist a => TagMap.get (a / 256) s.loft.tags
  | _ => 0

/-- Write the tags of `n` bytes at a place. -/
def State.setTags (s : State) (t : Target) (n v : Nat) : State :=
  match t with
  | .localMem k o => s.setStall k fun x => { x with tags := TagMap.set (o / 64) (ceilDiv n 64) v x.tags }
  | .shedMem p o => s.setShed p fun x => { x with tags := TagMap.set (o / 64) (ceilDiv n 64) v x.tags }
  | .yard o => s.setYard fun x => { x with tags := TagMap.set (o / 64) (ceilDiv n 64) v x.tags }
  | .hist a => { s with loft := { s.loft with tags := TagMap.set (a / 256) (ceilDiv n 256) v s.loft.tags } }
  | _ => s

/-- The bank of shed memory, and its power state: 0 ON, 1 RETAIN, 2 OFF (R175, R203). -/
def shedBank (ofs : Nat) : Nat := ofs / 4 % 16
def State.bankState (s : State) (p b : Nat) : Nat := bitsOf (s.get (sh F.SHED_BANK_PWR p)) (2 * b) 2
def State.setBankState (s : State) (p b v : Nat) : State :=
  let w := s.get (sh F.SHED_BANK_PWR p)
  s.put (sh F.SHED_BANK_PWR p) (w - bitsOf w (2 * b) 2 * 2 ^ (2 * b) + v * 2 ^ (2 * b))
/-- The power state of a stall's local memory. -/
def State.ramState (s : State) (k : Nat) : Nat := bitsOf (s.get (sh F.SHED_STALL_PWR (k / 16))) (2 * (k % 16)) 2
def State.setRamState (s : State) (k v : Nat) : State :=
  let f := sh F.SHED_STALL_PWR (k / 16)
  let w := s.get f
  s.put f (w - bitsOf w (2 * (k % 16)) 2 * 2 ^ (2 * (k % 16)) + v * 2 ^ (2 * (k % 16)))

end Sys2Proof.Machine
end

