-- ==== Sys2Proof/Machine/Guard.lean ====
section
/-! DEFINITION. Guards and memory colours (chapter 12): regions and sets (R374 to R376), the check (R377), refusals with
their reports and slice policy (R378 to R384), and the GUARD block's commands (R385, R386). -/

namespace Sys2Proof.Machine

def State.setGuard (s : State) (g : GuardSt → GuardSt) : State := { s with guard := g s.guard }

/-! Regions (R375). -/

def reBase (e : List Byte) : Nat := leAt e 0 4
def reLimit (e : List Byte) : Nat := leAt e 4 4
def reKey (e : List Byte) : Nat := leAt e 8 1
def rePerm (e : List Byte) : Nat := leAt e 9 1
def reType (e : List Byte) : Nat := leAt e 10 1
def reFlags (e : List Byte) : Nat := leAt e 11 1
def reFirst (e : List Byte) : Nat := leAt e 12 2
def reLast (e : List Byte) : Nat := leAt e 14 2
def reValid (e : List Byte) : Bool := bitOf (reFlags e) 0

/-- The rules of R375 for a valid entry. -/
def reOk (e : List Byte) : Bool :=
  decide (1 ≤ reKey e ∧ reKey e ≤ 0xFE) && decide (rePerm e < 8) && decide (reFlags e < 2)
    && (if reType e = 0 then
          reBase e % 64 == 0 && (reLimit e + 1) % 64 == 0 && decide (reBase e ≤ reLimit e)
        else if reType e = 1 then
          reBase e == 0 && reLimit e == 0 && rePerm e == 1 && decide (reFirst e ≤ reLast e ∧ reLast e ≤ 4095)
        else false)

/-- A region of type ADDRESS, and of type GROUPS. -/
def regionBytes (base limit key perm : Nat) : List Byte :=
  leBytes 4 base ++ leBytes 4 limit ++ leBytes 1 key ++ leBytes 1 perm ++ leBytes 1 0 ++ leBytes 1 1 ++ leBytes 4 0
def groupsRegion (key first last : Nat) : List Byte :=
  leBytes 8 0 ++ leBytes 1 key ++ leBytes 1 1 ++ leBytes 1 1 ++ leBytes 1 1 ++ leBytes 2 first ++ leBytes 2 last

/-- The colours of a slice (R373). -/
def State.scrCol (s : State) (n : Nat) : Nat := s.get (F.GUARD_SCOLn_SCR_COL.idx n)
def State.histCol (s : State) (n : Nat) : Nat := s.get (F.GUARD_SCOLn_HIST_COL.idx n)
def State.stateCol (s : State) (n : Nat) : Nat := s.get (F.GUARD_SCOLn_STATE_COL.idx n)

/-- Entry `r` of slice `n` in the slice region table. -/
def State.region (s : State) (n r : Nat) : List Byte := Table.at [] (16 * n + r) s.guard.regions

/-- The set of a slice for a stall: regions 0 to 3 from its colours, 4 to 15 from its entries (R374). -/
def State.stallSet (s : State) (n : Nat) : List (List Byte) :=
  [regionBytes 0 0xEEFF (s.scrCol n) 3, regionBytes 0x20000000 0x23FFFFFF (s.histCol n) 7,
   regionBytes 0x30000000 0x3000FFFF (s.stateCol n) 3, groupsRegion 1 0 4095]
    ++ (List.range 12).map fun i => s.region n (i + 4)

/-- The set of a slice's DMA job: regions 0 and 2 are invalid (R374). -/
def State.dmaSet (s : State) (n : Nat) : List (List Byte) :=
  [[], regionBytes 0x20000000 0x23FFFFFF (s.histCol n) 7, [], groupsRegion 1 0 4095]
    ++ (List.range 12).map fun i => s.region n (i + 4)

/-- Address `a` lies in the ring of a group of the region that the slice owns. -/
def State.inGroups (s : State) (slice a first last : Nat) : Bool :=
  s.liveGroups.any fun g =>
    let e := (s.group g).e
    decide (first ≤ g ∧ g ≤ last) && geOwner e == slice
      && decide (0x10000000 + geBase e ≤ a ∧ a < 0x10000000 + geBase e + ringBytes e)

/-- A region contains an address. -/
def State.contains (s : State) (slice a : Nat) (e : List Byte) : Bool :=
  reValid e && (if reType e = 0 then decide (reBase e ≤ a ∧ a ≤ reLimit e)
    else reType e == 1 && s.inGroups slice a (reFirst e) (reLast e))

/-! The check (R377). Accesses: 0 read, 1 write, 2 fetch. -/

/-- colour(g, k, t, p): 0 for none. -/
def colourCause (g k t : Nat) (p : Bool) : Nat :=
  if g = 0xFF then 5
  else if g = 0 then (if p then 0 else 6)
  else if g = 1 then (if t = 0 then 0 else 7)
  else if g = k then 0 else 4

/-- What a check finds: the cause (0 granted), the hits as a mask, and their key. -/
structure Verdict where
  cause : Nat
  hits : Nat
  key : Nat
  deriving DecidableEq, Repr

/-- guard_check over a set: `dflt` says that the default map of a privileged master admits the access. -/
def State.guardCheck (s : State) (set' : List (List Byte)) (slice a t tag : Nat) (priv dflt : Bool) : Verdict :=
  let hs := (set'.zipIdx.filter fun x => s.contains slice a x.1)
  let mask := hs.foldl (fun m x => setBit m x.2) 0
  let key := (hs.head?.map fun x => reKey x.1).getD 0
  let cause :=
    if !s.bit F.GUARD_CTRL || hs.isEmpty then 1
    else if hs.any fun x => reKey x.1 != key then 2
    else if !(hs.all fun x => bitOf (rePerm x.1) t) then 3
    else colourCause tag key t priv
  ⟨if cause != 0 && priv && dflt && tag != 0xFF then 0 else cause, mask, key⟩

/-! Refusals (R380 to R384). -/

/-- A guarded access: master, slice (none for platform work), whether privileged, whether by DMA, the item's flow and
epoch, the access and its address. -/
structure GReq where
  master : Nat
  slice : Option Nat
  priv : Bool
  dma : Bool
  flow : Option Nat
  epoch : Nat
  acc : Nat
  addr : Nat
  deriving DecidableEq, Repr

/-- The 32 bytes of a report record. -/
def GuardRep.bytes (r : GuardRep) : List Byte :=
  leBytes 8 r.beat ++ leBytes 4 r.addr ++ leBytes 2 r.master ++ leBytes 1 r.slice ++ leBytes 1 r.cause ++ leBytes 4 r.flow
    ++ leBytes 1 r.access ++ leBytes 1 r.tag ++ leBytes 1 r.key ++ leBytes 1 r.rep ++ leBytes 4 r.epoch ++ leBytes 2 r.hits
    ++ leBytes 2 0

/-- The report registers show the count and the oldest record. -/
def State.syncReports (s : State) : State :=
  let s := s.put F.GUARD_REP_CNT s.guard.reports.length
  s.putBytes F.GUARD_REP_DATAn 8 ((s.guard.reports.head?.map GuardRep.bytes).getD (leBytes 32 0))

/-- Queue a report record, or drop it (R383): the state and the record's number. -/
def State.report (s : State) (q : GReq) (v : Verdict) (tag : Nat) : State × Nat :=
  let id := s.guard.nextId
  let plain := v.cause = 1 ∨ 8 ≤ v.cause
  let r : GuardRep :=
    { id := id, beat := s.beat, addr := q.addr, master := q.master, slice := q.slice.getD 0xFF, cause := v.cause,
      flow := q.flow.getD 0xFFFFFFFF, access := q.acc + 4 * b2n q.priv + 8 * b2n q.dma, tag := if plain then 0 else tag,
      key := v.key, rep := 0, epoch := q.epoch, hits := v.hits }
  let s := s.setGuard fun x => { x with nextId := id + 1 }
  if s.guard.reports.length < 256 then
    ((s.setGuard fun x => { x with reports := x.reports ++ [r] }).syncReports.setPending 451, id)
  else
    let s := (s.bump F.GUARD_CNT_REP_DROP).flag F.GUARD_STATUS_REP_FULL
    ((s.queueDrop 3).limited 0xD003 0 1 fun k t => t.raise 0xD003 182 0 0 k 0, id)

/-- A further refusal of the same item or job is folded into its record while that remains queued. -/
def State.foldReport (s : State) (id : Nat) : State :=
  (s.setGuard fun x => { x with reports := x.reports.map fun r => if r.id = id then { r with rep := satAdd 8 r.rep 1 } else r
    }).syncReports

/-- A refusal made for slice `n` counts in its policy; when ARMED, the next edge acts on it (R384). -/
def State.policyCount (s : State) (n : Nat) (flow : Option Nat) : State :=
  let s := s.bump (F.GUARD_POLn_COUNT.idx n)
  let m := s.get (F.GUARD_POLn_COUNT_MAX.idx n)
  let s := s.when (m != 0 && decide (m ≤ s.get (F.GUARD_POLn_COUNT.idx n))) fun t => t.flag (F.GUARD_POLn_ARMED.idx n)
  s.when (s.bit (F.GUARD_POLn_ARMED.idx n)) fun t => t.setGuard fun x => { x with acts := x.acts ++ [(n, t.beat, flow)] }

/-- An access is refused (R380, R383): `rec` is the record of the item or job so far. While the guards are disabled no
record is made (R385). -/
def State.refuse (s : State) (q : GReq) (v : Verdict) (tag : Nat) (rec : Option Nat) : State × Option Nat :=
  let s := s.bump F.GUARD_CNT_REFUSE
  let s := s.when q.priv fun t => (t.bump F.GUARD_CNT_PRIV).raise 0xD005 182 q.master v.cause 0 q.addr
  let s := match q.slice with
    | none => s
    | some n => (s.policyCount n q.flow).limited 0xD001 n 1 fun k t => t.raise 0xD001 182 n v.cause k 0
  if !s.bit F.GUARD_CTRL then (s, rec)
  else if q.priv then ((s.report q v tag).1, rec)
  else match rec with
    | some id => (s.foldReport id, rec)
    | none => let (t, id) := s.report q v tag; (t, some id)

/-! DMA accesses (R378), granule by granule. -/

/-- The granule that holds an address of the DMA map, and the bytes left in it. -/
def granuleOf (t : Target) (a : Nat) : Nat :=
  match t with
  | .hist _ => 256 - a % 256
  | _ => 64 - a % 64

/-- Check `n` bytes from `a` for a DMA master: the bytes granted before the first refused granule. `fuel` bounds the
number of granules. Slice jobs use their slice's set; platform work has its default map (R381). -/
def State.dmaCheck (s : State) (master : Nat) (slice : Option Nat) (acc : Nat) (rec : Option Nat) :
    Nat → Nat → Nat → Nat → State × Nat × Bool
  | 0, _, _, done => (s, done, true)
  | fuel + 1, a, n, done =>
    if n = 0 then (s, done, true)
    else
      let t := s.sharedTarget (slice.getD 0) a
      let tag := s.tagOf t
      let v := match slice with
        | some k => s.guardCheck (s.dmaSet k) k a acc tag false false
        | none => s.guardCheck [] 0 a acc tag true (t != .nowhere)
      if v.cause = 0 then
        let step := min n (granuleOf t a)
        s.dmaCheck master slice acc rec fuel (a + step) (n - step) (done + step)
      else
        ((s.refuse ⟨master, slice, slice.isNone, true, none, 0, acc, a⟩ v tag rec).1, done, false)

/-- Check `n` bytes from `a`: the state, the bytes granted, and whether all were. -/
def State.dmaAccess (s : State) (master : Nat) (slice : Option Nat) (acc a n : Nat) : State × Nat × Bool :=
  s.dmaCheck master slice acc none (n / 64 + 2) a n 0

/-- A host-side request of a slice job: a slice that is not bound, and a request that the host completes with an error,
are refused with cause HOST (R342, R378). False when refused. -/
def State.hostAccess (s : State) (master n addr acc : Nat) (hostOk : Bool) : State × Bool :=
  if s.get (sl F.SLICE_STATUS_STATE n) = 0 ∨ !hostOk then
    ((s.refuse ⟨master, some n, false, true, none, 0, acc, addr % 2 ^ 32⟩ ⟨9, 0, 0⟩ 0 none).1, false)
  else (s, true)

/-! Policy actions at the edge (R384). -/

/-- Carry out the actions of refusals made before beat `b`: the flows to quarantine; the slices to freeze are returned. -/
def State.policyEdge (s : State) (b : Nat) : State × List Nat :=
  let due := s.guard.acts.filter fun a => decide (a.2.1 < b)
  let s := s.setGuard fun x => { x with acts := x.acts.filter fun a => !decide (a.2.1 < b) }
  let due := due.eraseDups
  due.foldl (fun (st : State × List Nat) a =>
    let (s, fr) := st
    let (n, _, flow) := a
    let act := s.get (F.GUARD_POLn_ACTION.idx n)
    if act = 0 then st
    else
      let s := match flow with
        | some f => if act % 2 = 1 then s.askChange f .setQuar .hw else s
        | none => s
      let freeze := decide (2 ≤ act) || flow.isNone
      let s := s.bump F.GUARD_CNT_POLICY
      let s := s.raise 0xD002 182 n act 0 (flow.getD 0xFFFFFFFF)
      (s, if freeze && !fr.contains n then fr ++ [n] else fr)) (s, [])

/-! Commands (R385, R386). -/

/-- A write of GUARD_CTRL.EN (R385). -/
def guardCtrlWrite (d : Nat) (s : State) : State :=
  if !bitOf d 0 then (s.put F.GUARD_CTRL 0).put F.GUARD_STATUS_RUNNING 0
  else if s.bit F.GUARD_CTRL then s
  else
    let inR (x : Nat) : Bool := decide (2 ≤ x ∧ x ≤ 0xFE)
    let cols := (List.range 256).all fun n => inR (s.scrCol n) && inR (s.histCol n) && inR (s.stateCol n)
    let regs := s.guard.regions.all fun r => !reValid r.2 || reOk r.2
    if cols && regs then (((s.freshLimits (rateBlock 0xD)).flag F.GUARD_CTRL).flag F.GUARD_STATUS_RUNNING).put F.GUARD_STATUS_CFG_ERR 0
    else s.flag F.GUARD_STATUS_CFG_ERR

def execGuardEnable (m : Master) (d : Nat) (s : State) : Res := fin (s.regWrite m 0xD00000 (guardCtrlWrite d))

def raccIn (g : State → State) (t : State) : State := g (t.put F.GUARD_RACC_CMD_ERR 0)
def raccCmd (m : Master) (g : State → State) (s : State) : State := s.regWrite m 0xD00024 (raccIn g)
def raccErr (e : Nat) (s : State) : State := (s.put F.GUARD_RACC_CMD_ERR e).flag F.GUARD_STATUS_ACC_ERR
def State.raccKey (s : State) : Nat := 16 * s.get F.GUARD_RACC_IDX_SLICE + s.get F.GUARD_RACC_IDX_REGION

/-- READ returns a region entry; REGION below 4 is refused (R386). -/
def guardRaccRead (s : State) : State :=
  if s.get F.GUARD_RACC_IDX_REGION < 4 then raccErr 3 s
  else
    let e := Table.at [] s.raccKey s.guard.regions
    s.putBytes F.GUARD_RACC_DATAn 4 (e ++ List.replicate (16 - e.length) 0)

def execGuardRaccRead (m : Master) (s : State) : Res := fin (raccCmd m guardRaccRead s)

/-- WRITE: while EN = 0, of an entry that keeps R375. -/
def guardRaccWrite (s : State) : State :=
  if s.bit F.GUARD_CTRL then raccErr 1 s
  else if s.get F.GUARD_RACC_IDX_REGION < 4 then raccErr 3 s
  else
    let e := s.getBytes F.GUARD_RACC_DATAn 4
    if reValid e && !reOk e then raccErr 2 s
    else s.setGuard fun x => { x with regions := Table.put [] s.raccKey e x.regions }

def execGuardRaccWrite (m : Master) (s : State) : Res := fin (raccCmd m guardRaccWrite s)

/-- INVALIDATE clears VALID. -/
def guardRaccInvalidate (s : State) : State :=
  if s.bit F.GUARD_CTRL then raccErr 1 s
  else if s.get F.GUARD_RACC_IDX_REGION < 4 then raccErr 3 s
  else
    let k := s.raccKey
    let e := Table.at [] k s.guard.regions
    if e.isEmpty then s
    else s.setGuard fun x => { x with regions := Table.put [] k (setLe e 11 1 (clearBit (reFlags e) 0)) x.regions }

def execGuardRaccInvalidate (m : Master) (s : State) : Res := fin (raccCmd m guardRaccInvalidate s)

/-- The memory that GUARD_TAG_SEL names: its place, its size and its granule; none for an index beyond the parts. -/
def State.tagMem (s : State) : Option (Target × Nat × Nat) :=
  let i := s.get F.GUARD_TAG_SEL_INDEX
  let o := s.get F.GUARD_TAG_OFS
  match s.get F.GUARD_TAG_SEL_MEM with
  | 0 => some (.yard o, yardBytes, 64)
  | 1 => if i < 68 then some (.shedMem i o, 0x100000, 64) else none
  | 2 => if i < 1088 then some (.localMem i o, 0x10000, 64) else none
  | 3 => some (.hist o, 256 * histSize, 256)
  | _ => none

def tagErr (e : Nat) (s : State) : State := (s.put F.GUARD_TAG_CMD_ERR e).flag F.GUARD_STATUS_ACC_ERR

/-- A write of GUARD_TAG_CMD with its OP (R386). -/
def tagIn (colour : Nat) (g : State → State) (t : State) : State :=
  g ((t.put F.GUARD_TAG_CMD_ERR 0).put F.GUARD_TAG_CMD_COLOUR colour)
def tagCmd (m : Master) (colour : Nat) (g : State → State) (s : State) : State := s.regWrite m 0xD0004C (tagIn colour g)

/-- FILL writes COLOUR to the tags of a range; over a group's ring it is refused. -/
def tagFill (s : State) : State :=
  let o := s.get F.GUARD_TAG_OFS
  let n := s.get F.GUARD_TAG_LEN
  match s.tagMem with
  | none => tagErr 1 s
  | some (t, size, g) =>
    if o % g ≠ 0 ∨ n % g ≠ 0 ∨ size < o + n then tagErr 1 s
    else
      let ring := s.get F.GUARD_TAG_SEL_MEM == 0 && s.liveGroups.any fun k =>
        let e := (s.group k).e
        decide (geBase e < o + n ∧ o < geBase e + ringBytes e)
      if ring then tagErr 2 s else s.setTags t n (s.get F.GUARD_TAG_CMD_COLOUR)

def execFill (m : Master) (colour : Nat) (s : State) : Res := fin (tagCmd m colour tagFill s)

/-- READ returns the tag of a granule. -/
def tagRead (s : State) : State :=
  match s.tagMem with
  | none => tagErr 1 s
  | some (t, size, g) =>
    if s.get F.GUARD_TAG_OFS % g ≠ 0 ∨ size ≤ s.get F.GUARD_TAG_OFS then tagErr 1 s
    else s.put F.GUARD_TAG_CMD_COLOUR (s.tagOf t)

def execTagRead (m : Master) (colour : Nat) (s : State) : Res := fin (tagCmd m colour tagRead s)

/-- A write of GUARD_REP_POP discards the oldest record. -/
def repPop (d : Nat) (s : State) : State :=
  if bitOf d 0 then
    let s := (s.setGuard fun x => { x with reports := x.reports.tail }).syncReports
    if s.guard.reports.isEmpty then s.clearPending 451 else s
  else s

def execRepPop (m : Master) (d : Nat) (s : State) : Res := fin (s.regWrite m 0xD00064 (repPop d))

/-- A write of GUARD_POLs: its policy fields, and with CLR its COUNT and ARMED (R384). -/
def polWrite (n d : Nat) (s : State) : State :=
  let s := (s.put (F.GUARD_POLn_COUNT_MAX.idx n) (bitsOf d 16 8)).put (F.GUARD_POLn_ACTION.idx n) (bitsOf d 0 2)
  if bitOf d 15 then (s.put (F.GUARD_POLn_COUNT.idx n) 0).put (F.GUARD_POLn_ARMED.idx n) 0 else s

def execPolClr (m : Master) (n : Fin 256) (d : Nat) (s : State) : Res :=
  fin (s.regWrite m (0xD00800 + 4 * n) (polWrite n d))

end Sys2Proof.Machine
end

