-- ==== Sys2Proof/Machine/Groom.lean ====
section
/-! DEFINITION. The Groom (chapter 7): descriptors (R211, R212), state pages (R218, R236 to R240), capacity and floors
(R221 to R223), the plan (R225, R226), tiers, eligibility and affinity (R228 to R230), charging (R231), endings and results
(R233 to R235), triggers (R213), the run deadline (R216) and the forecast (R242, R243). -/

namespace Sys2Proof.Machine

/-! Descriptors (R211). -/

def itFlags (d : List Byte) : Nat := leAt d 0 1
def dValid (d : List Byte) : Bool := bitOf (itFlags d) 0
def dCarry (d : List Byte) : Bool := bitOf (itFlags d) 1
def dResAll (d : List Byte) : Bool := bitOf (itFlags d) 2
def dResFail (d : List Byte) : Bool := bitOf (itFlags d) 3
def dNeedSlab (d : List Byte) : Bool := bitOf (itFlags d) 4
def dClass (d : List Byte) : Nat := leAt d 1 1 % 4
def dTrigger (d : List Byte) : Nat := leAt d 2 1
def dSlice (d : List Byte) : Nat := leAt d 3 1
def dFlow (d : List Byte) : Nat := leAt d 4 4
def dGroup (d : List Byte) : Nat := leAt d 8 2
def dPeriod (d : List Byte) : Nat := leAt d 10 2
def dPhase (d : List Byte) : Nat := leAt d 12 2
def dEntry (d : List Byte) : Nat := leAt d 16 4
def dCost (d : List Byte) : Nat := leAt d 20 4 % 2 ^ 24
def dEpoch (d : List Byte) : Nat := leAt d 24 4
def dTag (d : List Byte) : Nat := leAt d 28 4
def dArgs (d : List Byte) : List Byte := leBytes 32 (leAt d 32 32)

/-- Code 1 of R212: reserved fields, ranges, and the group's existence. -/
def State.descForm (s : State) (d : List Byte) : Bool :=
  decide (itFlags d < 32) && decide (leAt d 1 1 < 4) && decide (dTrigger d < 3) && leAt d 14 2 == 0 && leAt d 23 1 == 0
    && decide (0x20000000 ≤ dEntry d ∧ dEntry d ≤ 0x23FFFFFE) && dEntry d % 2 == 0 && decide (1 ≤ dCost d)
    && (if dTrigger d = 1 then decide (1 ≤ dPeriod d ∧ dPhase d < dPeriod d) else dPeriod d == 0 && dPhase d == 0)
    && (dGroup d == 0xFFFF || (decide (dGroup d < 4096) && geValid (s.group (dGroup d)).e))
    && !(dGroup d == 0xFFFF && dTrigger d == 0)

/-- Submitted items of a slice that are ready, carried or held. -/
def State.submitted (s : State) (n : Nat) : Nat :=
  (s.groom.ready.filter fun i => i.entry.isNone && itSlice i == n).length

/-- The code with which the Groom refuses a descriptor, 0 for none (R212). `sub` for a submitted one, `rt` for a runtime
entry. Before EN the page of a flow with STATE_LEN counts (assumption log 60). -/
def State.descRefusal (s : State) (sub rt : Bool) (d : List Byte) : Nat :=
  let fe := if dFlow d < 131072 then (s.flow (dFlow d)).e else []
  let r := s.flowRec (dFlow d)
  if !s.descForm d then 1
  else if !feValid fe || feSlice fe != dSlice d || (dGroup d != 0xFFFF && geOwner (s.group (dGroup d)).e != dSlice d) then 2
  else if (sub || rt) && dClass d == 0 then 3
  else if (if s.bit F.GROOM_CTRL then !r.pageValid else r.len == 0) then 4
  else if (sub && dTrigger d == 0) || (!sub && dTrigger d == 2) then 5
  else if sub && decide (64 ≤ s.submitted (dSlice d)) then 6
  else if sub && dEpoch d != 0xFFFFFFFF && dEpoch d != r.epoch then 7
  else 0

/-! State pages (R218). -/

/-- Bytes of shed memory in use at a position: pages held and pages on their way there, as (offset, bytes). -/
def State.pagesAt (s : State) (pos : Nat) : List (Nat × Nat) :=
  ((s.groom.flows.filter fun f => f.2.pageValid && f.2.pos == pos).map fun f => (f.2.ofs, 64 * f.2.len))
    ++ (s.groom.moves.filter fun m => m.dest == pos).map fun m => (m.ofs, 64 * (s.flowRec m.flow).len)

/-- The lowest free offset for `n` bytes at a position. -/
def State.pageSpot (s : State) (pos n : Nat) : Option Nat :=
  placeLow n 0x100000 ((s.pagesAt pos).map fun p => (p.1, p.1 + p.2))

def State.freeBytes (s : State) (pos : Nat) : Nat := 0x100000 - ((s.pagesAt pos).map (·.2)).sum

/-- The shed at a position is awaiting a move-out: its shed is to be replaced, or its quadrant is to go OFF (R236). -/
def State.leaving (s : State) (pos : Nat) : Bool :=
  match s.shedAt pos with
  | none => true
  | some p => s.pool.takeovers.any (fun t => t.1 == p)
      || (s.groom.idleBeats.getD (shedQuad p) 0 ≥ s.get F.GROOM_FCAST_CFG_OFF_AFTER && s.get F.GROOM_FCAST_CFG_OFF_AFTER != 0)

/-- Where a page of `n` bytes goes: HOME, else the position with the most free bytes, ties to the lower (R218). -/
def State.choosePos (s : State) (home n : Nat) (ok : Nat → Bool) : Option (Nat × Nat) :=
  let cand := (List.range 64).filter fun p => (s.shedAt p).isSome && ok p
  let spot := fun p => (s.pageSpot p n).map fun o => (p, o)
  match (if cand.contains home then spot home else none) with
  | some x => some x
  | none =>
    let best := cand.foldl (fun (b : Option (Nat × Nat × Nat)) p =>
      match s.pageSpot p n with
      | none => b
      | some o =>
        match b with
        | some (_, _, f) => if f < s.freeBytes p then some (p, o, s.freeBytes p) else b
        | none => some (p, o, s.freeBytes p)) none
    best.map fun x => (x.1, x.2.1)

/-- SHED_BANK_LIVE of every shed: all banks of a shed that holds a page (R204, R218). -/
def State.syncLive (s : State) : State :=
  s.each (List.range 68) fun p t =>
    let live := t.bit (sh F.SHED_CTRL_EN p) && (t.groom.flows.any fun f => f.2.pageValid && f.2.pos == t.svcPos p)
    t.put (sh F.SHED_BANK_LIVE p) (if live then 0xFFFF else 0)

/-- A new zeroed page at a position and offset, tagged with the owner's state colour. -/
def State.newPage (s : State) (flow pos ofs : Nat) : State :=
  let n := 64 * (s.flowRec flow).len
  let col := s.stateCol (feSlice (s.flow flow).e)
  let s := s.setFlowRec flow fun r => { r with pageValid := true, pos := pos, ofs := ofs, lastStall := none }
  match s.shedAt pos with
  | none => s
  | some p => s.setShed p fun x => { x with mem := Memory.clear x.mem ofs n, tags := TagMap.set (ofs / 64) (n / 64) col x.tags }

/-- Allocate the page of a flow, or raise 0x7009 when no position has room (R218). -/
def State.allocPage (s : State) (flow : Nat) : State :=
  let r := s.flowRec flow
  match s.choosePos r.home (64 * r.len) fun _ => true with
  | some (pos, ofs) => s.newPage flow pos ofs
  | none => s.raise 0x7009 108 flow 0 0 0

/-! Capacity (R221). -/

/-- S in nanoseconds, and the length of a beat (R16, R20). -/
def State.sealNs (s : State) : Nat := 10 * s.get F.BEAT_SEAL_WIN
def State.beatNs (s : State) (b : Nat) : Nat := edgeNs s.rate (b + 1) - edgeNs s.rate b

/-- R: the run cycles of beat `b`. -/
def State.runCycles (s : State) (b : Nat) : Nat := (s.beatNs b - s.sealNs - 160) * 6 / 5

/-- Usable stalls of a shed that is enabled and not retired. -/
def State.usable (s : State) (p : Nat) : List Nat :=
  if s.bit (sh F.SHED_CTRL_EN p) && !s.bit (sh F.SHED_STATUS_RETIRED p) then
    (List.range 16).filter fun l => bitOf (s.get (sh F.SHED_STALL_OK p)) l
  else []
def State.nSvc (s : State) : Nat := ((List.range 68).map fun p => (s.usable p).length).sum
def State.quadOn (s : State) (q : Nat) : Bool := s.domState (9 + q) == 0 && !s.domWaking (9 + q)
def State.nQuad (s : State) (q : Nat) : Nat :=
  (((List.range 68).filter fun p => shedQuad p == q).map fun p => (s.usable p).length).sum
def State.nAv (s : State) : Nat := (((List.range 4).filter s.quadOn).map s.nQuad).sum

/-- Stall cycles left before the run deadline of the present run beat; zero at and after it (R182). -/
def State.cyclesLeft (s : State) : Nat :=
  let dl := (edgeNs s.rate s.bt.next - s.sealNs) * 2048000000000
  if !s.bt.running || s.bt.deadline || dl ≤ s.dev then 0 else (dl - s.dev) * 6 / (5 * 2048000000000)

/-- The run deadline L − S of the present run beat has come (R196, R219). -/
def State.pastDeadline (s : State) : Bool :=
  s.bt.running && (s.bt.deadline || decide ((edgeNs s.rate s.bt.next - s.sealNs) * 2048000000000 ≤ s.dev))

/-- Dispatch is open in the present beat, and the run deadline has not come (R206, R219, R220, R246). -/
def State.dispatching (s : State) : Bool :=
  s.bt.running && s.bt.dispatchOpen && !s.pastDeadline && s.bit F.GROOM_CTRL && s.runsItems
    && decide (s.pair.openAt ≤ s.clk) && !s.lifeSt.refclkLost

/-! Results (R233, R234). Statuses: 0 DONE to 4 LOST as R195, 5 NOT_RUN, 6 STALE, 7 REFUSED. -/

/-- The 32 bytes of a result record; FLAGS.WITHHELD is added at the edge. -/
def resultBytes (i : Item) (status code runBeat epoch cycles : Nat) : List Byte :=
  let notStarted := i.stall.isNone && status == 3
  let borrowed := dClass i.d == 0 && (i.tier == 2 || i.tier == 3)
  leBytes 1 status ++ leBytes 1 code ++ leBytes 1 (dClass i.d)
    ++ leBytes 1 (b2n notStarted + 2 * b2n borrowed + 4 * b2n (i.carried != 0) + 16 * b2n i.entry.isNone)
    ++ leBytes 4 (dFlow i.d) ++ leBytes 8 runBeat ++ leBytes 4 epoch ++ leBytes 4 cycles ++ leBytes 4 (dTag i.d)
    ++ leBytes 2 (i.stall.getD 0xFFFF) ++ leBytes 2 (i.entry.getD 0xFFFF)

def State.plan (s : State) (n : Nat) : SlicePlan := Table.at SlicePlan.zero n s.groom.plan
def State.setPlan (s : State) (n : Nat) (g : SlicePlan → SlicePlan) : State :=
  s.setGroom fun x => { x with plan := Table.modify SlicePlan.zero n g x.plan }

/-- The counter of a status. -/
def endCounter (status : Nat) : Fld :=
  match status with
  | 0 => F.GROOM_CNT_DONE
  | 1 => F.GROOM_CNT_FAILED
  | 2 => F.GROOM_CNT_FAULT
  | 3 => F.GROOM_CNT_OVERRUN
  | 4 => F.GROOM_CNT_LOST
  | 5 => F.GROOM_CNT_NOT_RUN
  | 6 => F.GROOM_CNT_STALE
  | _ => F.GROOM_CNT_REFUSED

/-- The statistic of a status: DONE 8, OVERRUN 9, NOT_RUN 10, STALE 11, FAILED, FAULT and LOST 15. -/
def endStat (status : Nat) : Option Nat :=
  match status with
  | 0 => some 8
  | 1 => some 15
  | 2 => some 15
  | 3 => some 9
  | 4 => some 15
  | 5 => some 10
  | 6 => some 11
  | _ => none

/-- An item ends: counted, its result record kept for the edge where its descriptor asks for one; a refused submission
always returns one (R212). -/
def State.finishItem (s : State) (i : Item) (status code cycles : Nat) : State :=
  let n := itSlice i
  let epoch := if i.stall.isSome then i.epoch else (s.flowRec (dFlow i.d)).epoch
  let s := s.bump (endCounter status)
  let s := match endStat status with
    | some k => s.statAdd n k 1
    | none => s
  let s := s.when (status == 3) fun t => t.setRes fun r => { r with ovr := r.ovr + 1 }
  let s := s.when (status == 3 && dClass i.d == 0) fun t => t.setGroom fun x => { x with tripOver := true }
  let wants := dResAll i.d || (dResFail i.d && status != 0) || (status == 7 && i.entry.isNone)
  s.when wants fun t => t.setGroom fun x => { x with
    results := x.results ++ [⟨n, resultBytes i status code t.beat epoch cycles⟩] }

/-- 0x7005 and the counts of a stale result of a flow (R239). -/
def State.staleEvent (s : State) (flow epoch : Nat) : State :=
  s.limited 0x7005 flow 1 fun k t => t.raise 0x7005 108 flow epoch k 0

/-! Order and eligibility (R214, R229). -/

/-- The place of an item in the order of R214. A submitted item with TRIGGER EVERY comes after the table's (assumption log
154). -/
def itemOrder (i : Item) : Nat :=
  (dClass i.d * 4 + dTrigger i.d) * 2 ^ 66 + i.entry.getD (2 ^ 64 + i.seq)

def State.sliceFrozen (s : State) (n : Nat) : Bool := s.bit (F.GROOM_SLICE_CFGn_FROZEN.idx n)

/-- No earlier item of the flow waits, and none is in service. -/
def State.isHead (s : State) (i : Item) : Bool :=
  !(s.flowRec (dFlow i.d)).inService
    && s.groom.ready.all fun j => dFlow j.d != dFlow i.d || j.seq == i.seq || decide (itemOrder i < itemOrder j)

def State.removeReady (s : State) (i : Item) : State :=
  s.setGroom fun x => { x with ready := x.ready.filter fun j => j.seq != i.seq }

/-- TRIP capacity that the slice's TRIP items no longer need goes to slack_left: what it has beyond the COST of those that still
wait (R231). -/
def State.releaseTrip (s : State) (n : Nat) : State :=
  let need : Int := ((s.groom.ready.filter fun i => dClass i.d == 0 && itSlice i == n && i.tier != 3).map fun i => dCost i.d).sum
  let l := (s.plan n).tripLeft
  if need < l then
    (s.setPlan n fun p => { p with tripLeft := need }).setGroom fun x => { x with slackLeft := x.slackLeft + (l - need) }
  else s

/-- A ready item ends without being handed over. -/
def State.endReady (s : State) (i : Item) (status code : Nat) : State :=
  let s := (s.removeReady i).finishItem i status code 0
  s.when (dClass i.d == 0) fun t => t.releaseTrip (itSlice i)

/-- FIT admits the item: COST does not exceed the cycles left (R229). -/
def State.fits (s : State) (i : Item) : Bool :=
  dClass i.d == 0 || !s.bit F.GROOM_CFG_FIT || decide (dCost i.d ≤ s.cyclesLeft)

/-- The first item that ends when it becomes eligible: its window was discarded and it needs it (R232), or it fails only on its
epoch (R229). -/
def State.sweepOne (s : State) : Option (Item × Nat × Nat) :=
  s.groom.ready.findSome? fun i =>
    if !s.isHead i || s.sliceFrozen (itSlice i) then none
    else if i.noSlab && dNeedSlab i.d then some (i, 5, 3)
    else if i.entry.isNone && dEpoch i.d != 0xFFFFFFFF && dEpoch i.d != (s.flowRec (dFlow i.d)).epoch && s.fits i then some (i, 6, 0)
    else none

/-- End such items, each perhaps uncovering the next. -/
def State.sweep (s : State) : Nat → State
  | 0 => s
  | k + 1 =>
    match s.sweepOne with
    | none => s
    | some (i, st, code) =>
      let s := s.endReady i st code
      (if st = 6 then s.staleEvent (dFlow i.d) (dEpoch i.d) else s).sweep k

/-- Such items end at once while dispatch is open. -/
def State.sweepOpen (s : State) : State := if s.dispatching then s.sweep s.groom.ready.length else s

/-- Stalls of quadrants that come ON during the run beat join the pool: their cycles go to slack_left (R244). -/
def State.joinPool (s : State) : State :=
  s.each ((List.range 4).filter fun q => s.quadOn q && !s.groom.planAvail.contains q) fun q t =>
    t.setGroom fun x => { x with planAvail := x.planAvail ++ [q], slackLeft := x.slackLeft + (t.nQuad q * t.cyclesLeft : Nat) }

/-- Idle, available stalls in ascending stall number: usable, memory neither OFF nor waking from OFF (R203, R230). -/
def State.idleStalls (s : State) : List Nat :=
  (List.range 64).flatMap fun pos =>
    match s.shedAt pos with
    | none => []
    | some p =>
      if s.shedRuns p then
        ((s.usable p).filter fun l => s.get ((sh F.SHED_STALL_STATn_STATE p).idx l) == 1
          && s.ramState (16 * p + l) != 2
          && !((s.shed p).stallWaking.contains l && (s.stall (16 * p + l)).wasOff)).map fun l => 16 * pos + l
      else []

/-- The affinity level of an item on stall `x` (R230). -/
def State.affinity (s : State) (i : Item) (x : Nat) : Nat :=
  let r := s.flowRec (dFlow i.d)
  match r.lastStall with
  | some y => if y = x then 0 else if y / 16 = x / 16 then 1 else 2
  | none => if r.pos = x / 16 then 1 else 2

/-- WEIGHT and CAP of a slice as the plan in force took them (R223). -/
def State.weight (s : State) (n : Nat) : Nat := Table.at 1 n s.groom.cfg % 256
def State.capOf (s : State) (n : Nat) : Nat := Table.at 1 n s.groom.cfg / 256
def State.latchCfg (s : State) : State :=
  s.each (List.range 256) fun n t => t.setGroom fun x => { x with
    cfg := Table.put 1 n (t.get (F.GROOM_SLICE_CFGn_WEIGHT.idx n) + 256 * t.get (F.GROOM_SLICE_CFGn_CAP.idx n)) x.cfg }

/-- CAP in stall cycles; none where the slice has none (R223). -/
def State.capCycles (s : State) (n : Nat) : Option Nat :=
  let c := s.capOf n
  if c = 0 then none else some (c * s.get F.GROOM_FLOOR)
def State.underCap (s : State) (i : Item) : Bool :=
  match s.capCycles (itSlice i) with
  | none => true
  | some c => decide ((s.plan (itSlice i)).committed + (dCost i.d : Nat) ≤ (c : Int))

/-- The tier of an item as it stands now, 0 for none (R228). CAP is asked last. -/
def State.tierOf (s : State) (i : Item) : Nat :=
  if dClass i.d = 0 then i.tier
  else if (dCost i.d : Int) ≤ (s.plan (itSlice i)).ownLeft then (if s.underCap i then 4 else 0)
  else if (dCost i.d : Int) ≤ s.groom.slackLeft && s.weight (itSlice i) != 0 && s.underCap i then 5
  else 0

/-- Eligible but for the stall (R229). -/
def State.eligible (s : State) (i : Item) : Bool :=
  s.isHead i && !s.sliceFrozen (itSlice i) && s.fits i
    && (s.flowRec (dFlow i.d)).pageValid

/-- Slack used per weight, as the T5 rule compares it. -/
def State.slackRate (s : State) (n : Nat) : Int :=
  (s.plan n).slackUsed * 256 / (s.weight n : Int)

/-- The rank of a candidate within its tier: class (T4, T5), slice from rr_ptr, order of R214. -/
def State.rank (s : State) (tier : Nat) (i : Item) : Nat :=
  (if 4 ≤ tier then dClass i.d else 0) * 2 ^ 96 + (itSlice i + 256 - s.groom.rr.getD (tier - 1) 0 % 256) % 256 * 2 ^ 80
    + itemOrder i

/-- The least of a list by rank. -/
def bestBy (rank : Item → Nat) (l : List Item) : Option Item :=
  l.foldl (fun b i => match b with
    | none => some i
    | some j => if rank i < rank j then some i else some j) none

/-- The item for stall `x` at a tier and affinity level, among the items of that tier. -/
def State.pickFor (s : State) (tier level x : Nat) (cands : List Item) : Option Item :=
  let c := cands.filter fun i => s.affinity i x == level
  let c := if tier = 5 then
      (match (c.map fun i => s.slackRate (itSlice i)) with
       | [] => []
       | r :: rs => let m := rs.foldl min r; c.filter fun i => s.slackRate (itSlice i) == m)
    else c
  bestBy (s.rank tier) c

/-- The next hand-over of dispatch_round: the item, its tier and the stall number (R230). -/
def State.nextHand (s : State) : Option (Item × Nat × Nat) :=
  let idle := s.idleStalls
  let elig := (s.groom.ready.filter s.eligible).map fun i => (i, s.tierOf i)
  [1, 2, 3, 4, 5].findSome? fun tier =>
    let c := (elig.filter fun e => e.2 == tier).map (·.1)
    if c.isEmpty then none
    else [0, 1, 2].findSome? fun level => idle.findSome? fun x => (s.pickFor tier level x c).map fun i => (i, tier, x)

/-- Items that only CAP keeps from a tier are marked (CAP_HOLDS, R247). -/
def State.markCap (s : State) : State :=
  s.each (s.groom.ready.filter fun i => !i.capHeld && dClass i.d != 0 && s.eligible i && !s.underCap i) fun i t =>
    (t.statAdd (itSlice i) 14 1).setGroom fun x => { x with ready := x.ready.map fun j =>
      if j.seq = i.seq then { j with capHeld := true } else j }

/-! Charging (R231). -/

/-- The commitment of an item at its hand-over. -/
def State.commitItem (s : State) (i : Item) (tier : Nat) : State :=
  let n := itSlice i
  let c : Int := dCost i.d
  match tier with
  | 1 => s.setPlan n fun p => { p with tripLeft := p.tripLeft - c }
  | 2 => s.setPlan n fun p => { p with tripLeft := p.tripLeft - c }
  | 4 => s.setPlan n fun p => { p with ownLeft := p.ownLeft - c, committed := p.committed + c }
  | 5 => (s.setPlan n fun p => { p with slackUsed := p.slackUsed + c, committed := p.committed + c }).setGroom fun x =>
      { x with slackLeft := x.slackLeft - c }
  | _ => s

/-- The commitment is replaced by the actual cycles at the ending. -/
def State.chargeItem (s : State) (i : Item) (actual : Nat) : State :=
  let n := itSlice i
  let diff : Int := (dCost i.d : Int) - actual
  let s := s.setPlan n fun p => { p with used := p.used + actual }
  let s := s.setGroom fun x => { x with chargedNow := x.chargedNow + actual }
  match i.tier with
  | 4 =>
    let left := (s.plan n).ownLeft + diff
    (s.setPlan n fun p => { p with ownLeft := max left 0, committed := p.committed - diff }).setGroom fun x =>
      { x with slackLeft := x.slackLeft + min left 0 }
  | 5 => (s.setPlan n fun p => { p with slackUsed := p.slackUsed - diff, committed := p.committed - diff }).setGroom fun x =>
      { x with slackLeft := x.slackLeft + diff }
  | 3 => s
  | _ =>
    let left := (s.plan n).tripLeft + diff
    ((s.setPlan n fun p => { p with tripLeft := max left 0 }).setGroom fun x =>
      { x with slackLeft := x.slackLeft + min left 0 }).releaseTrip n

/-! The plan (R225). -/

/-- Capacity by slice: TRIP, CONTROL, MEASURE, RECORD. -/
abbrev Caps := Table (List Nat)
def Caps.get (t : Caps) (s c : Nat) : Nat := (Table.at [] s t).getD c 0
def Caps.sub (t : Caps) (s c n : Nat) : Caps := Table.modify [0, 0, 0, 0] s (fun l => l.modify c fun v => v - n) t
def Caps.total (t : Caps) : Nat := (t.map fun e => e.2.sum).sum

/-- Own allocation of a demand under floor `f`. -/
def ownOf (f : Nat) : List Nat → List Nat
  | [] => []
  | d :: ds => min d f :: ownOf (f - min d f) ds

/-- The demand of the ready items (R222). -/
def State.demand (s : State) : Caps :=
  s.groom.ready.foldl (fun t i =>
    if s.sliceFrozen (itSlice i) then t
    else Table.insert (itSlice i) (((Table.find (itSlice i) t).getD [0, 0, 0, 0]).modify (dClass i.d) fun v => v + dCost i.d) t) []

/-- Lenders in their order: RECORD, MEASURE, CONTROL; ascending WEIGHT, descending number. -/
def State.lenders (s : State) (own : Caps) : List (Nat × Nat) :=
  let w := fun n => s.weight n * 256 + (255 - n)
  let ins := fun (l : List Nat) n => (l.filter fun m => w m < w n) ++ [n] ++ l.filter fun m => !decide (w m < w n)
  let order := (own.map (·.1)).foldl ins []
  [3, 2, 1].flatMap fun c => order.map fun n => (n, c)

/-- The allocations are cut to the pool. -/
def cutOwn (p : Nat) (own : Caps) : List (Nat × Nat) → Caps
  | [] => own
  | (l, c) :: t =>
    let oversize := own.total - p
    cutOwn p (own.sub l c (min (own.get l c) oversize)) t

/-- One borrowing of the plan: borrower, lender (none for slack), class, cycles. -/
structure Borrow where
  borrower : Nat
  lender : Option Nat
  cls : Nat
  cycles : Nat
  deriving DecidableEq, Repr

/-- A slice borrows `x` from the lenders in order. -/
def borrowFrom (b : Nat) : Nat → Caps → List (Nat × Nat) → Nat × Caps × List Borrow
  | x, own, [] => (x, own, [])
  | x, own, (l, c) :: t =>
    let k := if l = b then 0 else min x (own.get l c)
    let (x', own', log) := borrowFrom b (x - k) (own.sub l c k) t
    (x', own', if k = 0 then log else ⟨b, some l, c, k⟩ :: log)

/-- Borrowing for each slice with TRIP demand beyond its own, ascending. -/
def borrowAll (demand own0 : Caps) (len : List (Nat × Nat)) :
    List Nat → Nat → Caps → Nat × Caps × List Borrow × List (Nat × Nat)
  | [], slack, own => (slack, own, [], [])
  | n :: ns, slack, own =>
    let x := demand.get n 0 - own0.get n 0
    let t := min x slack
    let (short, own1, log) := if x = 0 then (0, own, []) else borrowFrom n (x - t) own len
    let (slack', own', log', sh') := borrowAll demand own0 len ns (slack - t) own1
    (slack', own', (if t = 0 then [] else [⟨n, none, 0, t⟩]) ++ log ++ log', (if short = 0 then [] else [(n, short)]) ++ sh')

/-- The 16 bytes of a borrow log entry: KIND 0 slack, 1 RECORD, 2 MEASURE, 3 CONTROL. -/
def borrowBytes (b : Nat) (x : Borrow) : List Byte :=
  leBytes 8 b ++ leBytes 1 x.borrower ++ leBytes 1 (x.lender.getD 0) ++ leBytes 1 (if x.lender.isNone then 0 else 4 - x.cls)
    ++ leBytes 1 0 ++ leBytes 4 x.cycles

/-- One borrowing goes to the log, or is counted as not written (R226). -/
def State.logBorrow (s : State) (b : Nat) (x : Borrow) : State :=
  let h := s.get F.GROOM_BLOG_HEAD
  if (h + 1) % 8192 = s.get F.GROOM_BLOG_TAIL then s.bump F.GROOM_CNT_BLOG_DROP
  else (s.setGroom fun y => { y with blog := Table.insert h (borrowBytes b x) y.blog }).put F.GROOM_BLOG_HEAD ((h + 1) % 8192)

/-- 0x7002 for a borrower and its lenders' event rings, with the cycles of the last second (R226, R248, R483). -/
def State.borrowEvents (s : State) (log : List Borrow) (n : Nat) : State :=
  let mine := log.filter fun x => x.borrower == n
  let sum := fun (l : List Borrow) => (l.map (·.cycles)).sum
  let a := sum (mine.filter fun x => x.lender.isNone)
  let l := sum (mine.filter fun x => x.lender.isSome)
  let last := (Table.at [] n s.groom.owed ++ [(s.clk, a, l)]).filter fun x => decide (s.clk < x.1 + 1000000000)
  let slack := (last.map (·.2.1)).sum % 2 ^ 32
  let lent := (last.map (·.2.2)).sum % 2 ^ 32
  let s := s.setGroom fun x => { x with owed := Table.put [] n last x.owed }
  let s := s.limited 0x7002 n 1 fun _ t =>
    { t with evq := t.evq ++ [⟨0x7002, 108, n, slack, 0, lent, false, false, [n]⟩] }
  s.each (mine.filterMap (·.lender)).eraseDups fun k t =>
    t.limited 0x7002 (65536 + k) 1 fun _ u => u.evPush k 0x7002 u.tq n slack 0 lent u.beat

/-- TRIP items take their tier from the running sum of their slice (R228). -/
def tierItems (own : Nat → Nat) (cap : Nat → Nat) : List (Nat × Nat) → List Item → List Item
  | _, [] => []
  | sums, i :: t =>
    let n := itSlice i
    let k := ((sums.find? fun x => x.1 == n).map (·.2)).getD 0 + dCost i.d
    let tier := if k ≤ own n then 1 else if k ≤ cap n then 2 else 3
    { i with tier := tier } :: tierItems own cap ((n, k) :: sums) t

/-- Insert by the order of R214. -/
def orderInsert (i : Item) : List Item → List Item
  | [] => [i]
  | j :: t => if itemOrder i < itemOrder j then i :: j :: t else j :: orderInsert i t

/-- n_svc, n_av, F and R at the edge that opens beat `b`; a change of n_svc is reported (R221, R241). -/
def State.poolEdge (s : State) (b : Nat) : State :=
  if !s.bit F.GROOM_CTRL then s
  else
    let svc := s.nSvc
    let r := s.runCycles b
    let f := svc * r / 256
    let s := (((s.put F.GROOM_POOL_SVC svc).put F.GROOM_POOL_AVAIL s.nAv).put F.GROOM_FLOOR f).put F.GROOM_RUNCYC r
    let changed := s.groom.lastSvc != svc
    (s.when changed fun t => (t.flag F.GROOM_STATUS_POOL_CHG).raise 0x7006 108 svc f 0 0).setGroom fun x => { x with lastSvc := svc }

/-- Needed quadrants that are not ON. -/
def State.quadsMissing (s : State) : Nat :=
  ((List.range 4).filter fun q => bitOf (s.get F.GROOM_FCAST_OUT_NEED_B1) q && !s.quadOn q).foldl setBit 0

/-- A forecast miss, counted once for a beat (R225, R244). -/
def State.fcastMiss (s : State) : State :=
  if s.groom.missed then s
  else (((s.bump F.GROOM_CNT_FCAST_MISS).flag F.GROOM_STATUS_FCAST_MISS).raise 0x7008 108 s.quadsMissing 0 0 0).setGroom fun x =>
    { x with missed := true }

/-- At dispatch open a needed quadrant that is not ON is a miss (R244). -/
def State.missAtOpen (s : State) : State :=
  s.when (s.bit F.GROOM_CTRL && s.runsItems && s.quadsMissing != 0) State.fcastMiss

/-- The plan of run beat `b` with `r` run cycles per stall (R221, R225, R226). -/
def State.makePlan (s : State) (b r : Nat) : State :=
  let s := s.latchCfg
  let svc := s.nSvc
  let av := s.nAv
  let pool := av * r
  let f := svc * r / 256
  let s := (((s.put F.GROOM_POOL_SVC svc).put F.GROOM_POOL_AVAIL av).put F.GROOM_FLOOR f).put F.GROOM_RUNCYC r
  let dem := s.demand
  let own0 : Caps := dem.map fun e => (e.1, ownOf f e.2)
  let len := s.lenders own0
  let s := (s.setGroom fun x => { x with missed := false }).when (decide (pool < own0.total)) State.fcastMiss
  let own1 := if pool < own0.total then cutOwn pool own0 len else own0
  let (slack, own, log, shorts) := borrowAll dem own1 len (dem.map (·.1)) (pool - own1.total) own1
  let slackOf := fun n => ((log.filter fun x => x.borrower == n && x.lender.isNone).map (·.cycles)).sum
  let lentTo := fun n => ((log.filter fun x => x.borrower == n && x.lender.isSome).map (·.cycles)).sum
  let lentBy := fun n c => ((log.filter fun x => x.lender == some n && x.cls == c).map (·.cycles)).sum
  let plan : Table SlicePlan := dem.map fun e =>
    let n := e.1
    (n, { SlicePlan.zero with
          tripLeft := (own1.get n 0 + slackOf n + lentTo n : Nat), ownLeft := (own.get n 1 + own.get n 2 + own.get n 3 : Nat),
          short := ((shorts.find? fun x => x.1 == n).map (·.2)).getD 0, ownTrip := own1.get n 0, bSlack := slackOf n,
          bLent := lentTo n, lent := [lentBy n 3, lentBy n 2, lentBy n 1] })
  let s := s.setGroom fun x => { x with
    plan := plan, slackLeft := slack, rr := List.replicate 5 (b % 256), tripOver := false, chargedNow := 0,
    planAvail := (List.range 4).filter s.quadOn,
    ready := tierItems (fun n => own1.get n 0) (fun n => own1.get n 0 + slackOf n + lentTo n) []
      (x.ready.foldl (fun l i => orderInsert i l) []) }
  let s := s.when (!shorts.isEmpty) fun t => t.flag F.GROOM_STATUS_TRIP_SHORT
  let s := s.when (!log.isEmpty) fun t => t.flag F.GROOM_STATUS_BORROWED
  let s := s.addTo F.GROOM_CNT_BORROW ((log.map (·.cycles)).sum)
  let s := s.each log fun x t => t.logBorrow b x
  let who := (log.map (·.borrower)).eraseDups
  let s := s.each who fun n t => (t.statAdd n 12 1).borrowEvents log n
  s.each (log.filterMap (·.lender)).eraseDups fun n t => t.statAdd n 13 1

/-! Triggers (R213). -/

/-- The window cut at the edge of beat `b` in the descriptor's group. -/
def State.primary (s : State) (b : Nat) (d : List Byte) : Option Nat :=
  if dGroup d = 0xFFFF then none else s.cutWin (dGroup d) b

/-- A standing descriptor makes an item at the edge of `b`. -/
def State.triggers (s : State) (b : Nat) (d : List Byte) : Bool :=
  dValid d && (if dTrigger d = 0 then (s.primary b d).isSome && !geWithdrawn (s.group (dGroup d)).e
    else dTrigger d == 1 && b % dPeriod d == dPhase d)

/-- A new item. -/
def State.newItem (s : State) (b : Nat) (d : List Byte) (entry : Option Nat) : Item :=
  let w := s.primary b d
  { d := d, entry := entry, seq := s.groom.nextSeq, carried := 0, tier := 0, window := w,
    noSlab := dGroup d != 0xFFFF && w.isNone, capHeld := false, stall := none, handAt := 0, epoch := 0 }

/-- Make the item of one entry: it joins the ready list, or ends at once for a frozen slice (R354) or a flow without a page
(R218, R240). -/
def State.trigger (s : State) (b entry : Nat) (d : List Byte) : State :=
  let i := s.newItem b d (some entry)
  let s := s.setGroom fun x => { x with nextSeq := x.nextSeq + 1 }
  let r := s.flowRec (dFlow d)
  if s.standby then s.setGroom fun x => { x with ready := x.ready ++ [i] }
  else if s.sliceFrozen (dSlice d) then s.finishItem i 5 4 0
  else if !r.pageValid then (if s.groom.lost.contains (dFlow d) then s.finishItem i 5 1 0 else s.finishItem i 7 4 0)
  else s.setGroom fun x => { x with ready := x.ready ++ [i] }

/-- Items of run beat `b` are triggered, and submitted and carried items take the beat's window. -/
def State.triggerAll (s : State) (b : Nat) : State :=
  let s := s.setGroom fun x => { x with ready := x.ready.map fun i =>
    { i with window := s.primary b i.d, noSlab := dGroup i.d != 0xFFFF && (s.primary b i.d).isNone, capHeld := false } }
  s.each (s.groom.items.filter fun e => s.triggers b e.2) fun e t => t.trigger b e.1 e.2

/-! The run deadline (R216). -/

/-- An item not handed over at the run deadline (R216); one that R232 keeps from a stall ends as NOT_RUN with code 3. -/
def State.notHanded (s : State) (i : Item) : State :=
  if i.entry.isNone && s.sliceFrozen (itSlice i) then s
  else if i.noSlab && dNeedSlab i.d then s.endReady i 5 3
  else if dClass i.d = 0 then s.endReady i 3 0
  else if i.entry.isNone && dCarry i.d then
    (if i.carried < s.get F.GROOM_CFG_CARRY_MAX then
      s.setGroom fun x => { x with ready := x.ready.map fun j => if j.seq = i.seq then { j with carried := j.carried + 1 } else j }
    else s.endReady i 5 5)
  else s.endReady i 5 (if i.capHeld then 2 else 1)

def State.groomDeadline (s : State) : State :=
  if s.standby then s.setGroom fun x => { x with ready := [] }
  else s.each s.groom.ready fun i t => t.notHanded i

/-! The end of the run beat (R235). -/

/-- TRIP_SHORT for the beat that ends. -/
def State.tripShort (s : State) : State :=
  let shorts := s.groom.plan.filter fun e => e.2.short != 0
  if shorts.isEmpty && !s.groom.tripOver then s
  else
    let best := shorts.foldl (fun (b : Nat × Nat) e => if b.2 < e.2.short then (e.1, e.2.short) else b) (0, 0)
    let s := s.bump F.GROOM_CNT_TRIP_SHORT
    (s.flag F.GROOM_STATUS_TRIP_SHORT).raiseLim 0 0x7001 108 best.1 best.2 0 0

/-- Statistics 0 to 7 take the figures of the run beat that ends, and its charged total joins the last 16 (R242, R247). -/
def State.groomStats (s : State) : State :=
  let l := ((s.groom.plan.map (·.1)) ++ s.groom.stats.map (·.1)).eraseDups
  let s := s.each l fun n t =>
    let p := t.plan n
    let w := fun (i : Int) => i.toNat % 2 ^ 32
    t.setGroom fun x => { x with stats := Table.modify (List.replicate 16 0) n (fun o =>
      [p.used, p.ownTrip, p.bSlack, p.bLent, p.lent.getD 0 0, p.lent.getD 1 0, p.lent.getD 2 0, w p.slackUsed] ++ o.drop 8) x.stats }
  s.setGroom fun x => { x with charged := (x.chargedNow :: x.charged).take 16 }

/-- Result records are posted at the edge that ends the run beat (R233). -/
def State.postResults (s : State) (withheld : Bool) : State :=
  let l := s.groom.results
  let s := s.setGroom fun x => { x with results := [] }
  s.each l fun r t =>
    t.cqPush r.slice ⟨2, 0, 0, 32, 0, if withheld then setLe r.bytes 3 1 (leAt r.bytes 3 1 + 8) else r.bytes, []⟩

/-! Page moves (R236 to R240). -/

/-- A page of position `pos` may be moved: no bank of its shed has failed (R240). -/
def State.movable (s : State) (pos : Nat) : Bool :=
  match s.shedAt pos with
  | none => false
  | some p => !s.pool.bankBad.contains p

/-- A shed at a position may take a page: it is not to be left, and its memories are initialised (R205, R236). -/
def State.takesPage (s : State) (pos : Nat) : Bool :=
  !s.leaving pos && (match s.shedAt pos with
    | none => false
    | some p => !s.bit (sh F.SHED_STATUS_INIT_BUSY p))

/-- Ask for a move: refused with 1 while one is pending, 2 without room or where the page cannot be moved; 0 accepted. The
destination is `dest`, or for 0x7F the one that R218 gives the flow (R236). -/
def State.askMove (s : State) (flow dest : Nat) : State × Nat :=
  let r := s.flowRec flow
  if r.movePending then (s, 1)
  else if !r.pageValid || !s.movable r.pos then (s, 2)
  else
    let ok := fun p => p != r.pos && s.takesPage p && (dest == 0x7F || dest == p)
    match s.choosePos (if dest = 0x7F then r.home else dest) (64 * r.len) ok with
    | none => (s, 2)
    | some (pos, ofs) =>
      ((s.setFlowRec flow fun x => { x with movePending := true }).setGroom fun x =>
        { x with moves := x.moves ++ [⟨flow, pos, ofs, false⟩] }, 0)

/-- Pages in sheds that are to be left ask for a move (R236, R243). -/
def State.moveOut (s : State) : State :=
  s.each (s.groom.flows.filter fun f => f.2.pageValid && !f.2.movePending && s.leaving f.2.pos) fun f t => (t.askMove f.1 0x7F).1

/-- The copies of this beat start: at most 64 KiB into one destination (R237). -/
def State.startCopies (s : State) : State :=
  let pick := s.groom.moves.foldl (fun (a : List PageMove × List (Nat × Nat)) m =>
    let n := 64 * (s.flowRec m.flow).len
    let used := ((a.2.filter fun x => x.1 == m.dest).map (·.2)).sum
    if used + n ≤ 65536 then (a.1 ++ [{ m with copied := true }], (m.dest, n) :: a.2)
    else (a.1 ++ [{ m with copied := false }], a.2)) ([], [])
  s.setGroom fun x => { x with moves := pick.1 }

/-- The bytes of a page as the shed DMA engine reads them: a poisoned granule reads zero, as a privileged refusal (R380,
R381). -/
def State.pageRead (s : State) (flow dmaMaster : Nat) : State × List Byte :=
  let r := s.flowRec flow
  (List.range r.len).foldl (fun (a : State × List Byte) g =>
    let t := a.1.posTarget r.pos (r.ofs + 64 * g)
    let tag := a.1.tagOf t
    if tag = 0xFF then
      ((a.1.refuse ⟨dmaMaster, none, true, true, none, 0, 0, 0x40000000 + r.pos * 0x100000 + r.ofs + 64 * g⟩ ⟨1, 0, 0⟩ tag none).1,
        a.2 ++ List.replicate 64 0)
    else (a.1, a.2 ++ a.1.readTarget t 64)) (s, [])

/-- A complete copy switches the page at the edge (R237). -/
def State.switchPage (s : State) (m : PageMove) : State :=
  match s.shedAt m.dest with
  | none => s
  | some p =>
    let (s, bs) := s.pageRead m.flow (0x440 + p)
    let s := s.newPage m.flow m.dest m.ofs
    let s := s.setShed p fun x => { x with mem := Memory.store 0 x.mem m.ofs bs }
    let s := s.setFlowRec m.flow fun x => { x with epoch := (x.epoch + 1) % 2 ^ 32, movePending := false }
    let e := (s.flowRec m.flow).epoch
    let s := { s with sealSt := { s.sealSt with epochs := s.sealSt.epochs ++ [(m.flow, e)] } }
    ((s.bump F.GROOM_CNT_MOVES).raise 0x7003 108 m.flow e 0 m.dest).syncLive

/-- Where an abandoned move is tried again: at its destination, or, its shed being gone, where R218 puts the page. -/
def State.retryMove (s : State) (m : PageMove) : PageMove :=
  if (s.shedAt m.dest).isSome then { m with copied := false }
  else
    let r := s.flowRec m.flow
    match s.choosePos r.home (64 * r.len) (fun p => p != r.pos && s.takesPage p) with
    | none => { m with copied := false }
    | some (pos, ofs) => { m with dest := pos, ofs := ofs, copied := false }

/-- The moves of the beat that ends: complete copies switch; those in `late`, and those whose destination is gone, are abandoned
and tried again (R237). -/
def State.finishMoves (s : State) (late : List Nat) : State :=
  let l := s.groom.moves.filter (·.copied)
  s.each l fun m t =>
    if late.contains m.flow || (t.shedAt m.dest).isNone then
      let m' := t.retryMove m
      ((t.bump F.GROOM_CNT_MOVE_ABANDONED).raise 0x7004 108 m.flow 0 0 0).setGroom fun x => { x with
        moves := x.moves.map fun y => if y.flow = m.flow then m' else y }
    else (t.setGroom fun x => { x with moves := x.moves.filter fun y => y.flow != m.flow }).switchPage m

/-- A page is lost with its shed: the flow waits for a new one (R240). -/
def State.losePages (s : State) (pos : Nat) : State :=
  s.each (s.groom.flows.filter fun f => f.2.pageValid && f.2.pos == pos) fun f t =>
    (t.setFlowRec f.1 fun r => { r with pageValid := false, movePending := false }).setGroom fun x => { x with
      moves := x.moves.filter fun m => m.flow != f.1, lost := x.lost ++ [f.1] }

/-- Lost pages are given anew where there is room: STATE_LOST, epoch raised, event 0x7007 (R240). -/
def State.replaceLost (s : State) : State :=
  s.each s.groom.lost fun f t =>
    match t.choosePos (t.flowRec f).home (64 * (t.flowRec f).len) t.takesPage with
    | none => t
    | some (pos, ofs) =>
      let t := t.newPage f pos ofs
      let t := t.setFlowRec f fun r => { r with stateLost := true, epoch := (r.epoch + 1) % 2 ^ 32 }
      let t := { t with sealSt := { t.sealSt with epochs := t.sealSt.epochs ++ [(f, (t.flowRec f).epoch + 2 ^ 32)] } }
      let t := t.setGroom fun x => { x with lost := x.lost.filter fun g => g != f }
      ((t.flag F.GROOM_STATUS_STATE_LOST).raise 0x7007 108 f 0 0 0).syncLive

/-! Forecast (R242, R243). -/

/-- COST of the standing items known for beat `b`: EVERY by its phase, CUT of a group that has windows. -/
def State.standingCost (s : State) (b : Nat) : Nat :=
  ((s.groom.items.filter fun e => dValid e.2 &&
    (if dTrigger e.2 = 0 then geValid (s.group (dGroup e.2)).e && !geWithdrawn (s.group (dGroup e.2)).e
      else b % dPeriod e.2 == dPhase e.2)).map fun e => dCost e.2).sum

/-- COST of the submitted and carried items, which are known for the next beat. -/
def State.readyCost (s : State) : Nat := (s.groom.ready.map fun i => dCost i.d).sum

/-- The choices of `n` elements of a list, those with earlier elements first. -/
def choices : Nat → List Nat → List (List Nat)
  | 0, _ => [[]]
  | _, [] => []
  | n + 1, q :: t => (choices n t).map (q :: ·) ++ choices (n + 1) t

/-- The fewest quadrants, at least `n`, whose stalls cover `cyc` cycles of beat `b`; of several sets the one whose quadrants come
first in `order`; all of them when none covers (R242). -/
def State.takeQuads (s : State) (b cyc n : Nat) (order : List Nat) : List Nat :=
  (((List.range 5).drop n).findSome? fun k =>
    (choices k order).find? fun l => decide (cyc ≤ (l.map s.nQuad).sum * s.runCycles b)).getD order

/-- The quadrants needed for a load of `cyc` cycles in beat `b`: those with most pages first, the fewest that cover it, and
never fewer than MIN_Q. -/
def State.quadsFor (s : State) (b cyc : Nat) : List Nat :=
  let pages := fun q => (s.groom.flows.filter fun f => f.2.pageValid && (s.shedAt f.2.pos).map shedQuad == some q).length
  let order := [0, 1, 2, 3].foldl (fun (l : List Nat) q => (l.filter fun x => pages q ≤ pages x) ++ [q] ++ l.filter fun x => !decide (pages q ≤ pages x)) []
  s.takeQuads b cyc (s.get F.GROOM_FCAST_CFG_MIN_Q) order

def mask (l : List Nat) : Nat := l.foldl setBit 0

/-- The forecast made in beat `b` for b + 1 and b + 2. -/
def State.forecast (s : State) (b : Nat) : State :=
  let top := (s.groom.charged.take 15).foldl max s.groom.chargedNow
  let load := fun cost => max (cost * (100 + s.get F.GROOM_FCAST_CFG_MARGIN) / 100) top
  let n1 := s.quadsFor (b + 1) (load (s.standingCost (b + 1) + s.readyCost))
  let n2 := s.quadsFor (b + 2) (load (s.standingCost (b + 2)))
  let idle := (List.range 4).map fun q => if n1.contains q || n2.contains q then 0 else s.groom.idleBeats.getD q 0 + 1
  let s := s.setGroom fun x => { x with idleBeats := idle }
  let after := s.get F.GROOM_FCAST_CFG_OFF_AFTER
  let ok := (List.range 4).filter fun q => after != 0 && decide (after ≤ s.groom.idleBeats.getD q 0)
    && !s.groom.flows.any fun f => f.2.pageValid && (s.shedAt f.2.pos).map shedQuad == some q
  let s := ((s.put F.GROOM_FCAST_OUT_NEED_B1 (mask n1)).put F.GROOM_FCAST_OUT_NEED_B2 (mask n2)).put F.GROOM_FCAST_OUT_OFF_OK (mask ok)
  s.each [9, 10, 11, 12] fun d t => t.evalDomain d 2

end Sys2Proof.Machine
end

