-- ==== Sys2Proof/Machine/SealStore.lean ====
section
/-! DEFINITION. Publications (R253) and the output store: output records (R249, R250), their refusals (R251) and their
admission (R252). -/

namespace Sys2Proof.Machine

def State.setSeal (s : State) (g : SealSt → SealSt) : State := { s with sealSt := g s.sealSt }

/-! Publication entries (R253). -/

def State.pub (s : State) (p : Nat) : List Byte := Table.at [] p s.sealSt.pubs
def puValid (e : List Byte) : Bool := bitOf (leAt e 0 1) 0
def puReportAll (e : List Byte) : Bool := bitOf (leAt e 0 1) 1
def puTsAll (e : List Byte) : Bool := bitOf (leAt e 0 1) 2
def puKind (e : List Byte) : Nat := leAt e 1 1
def puSlice (e : List Byte) : Nat := leAt e 2 1
def puMask (e : List Byte) : Nat := leAt e 3 1
def puEgress (e : List Byte) : Nat := leAt e 4 2
def puAppid (e : List Byte) : Nat := leAt e 6 2
def puStream (e : List Byte) : Nat := leAt e 8 4
def puKey (e : List Byte) : Nat := leAt e 12 2
def puAlg (e : List Byte) : Nat := leAt e 14 1
def puCurve (e : List Byte) : Nat := leAt e 15 1
def puTplOfs (e : List Byte) : Nat := leAt e 16 4
def puTplLen (e : List Byte) : Nat := leAt e 20 2
def puChannels (e : List Byte) : Nat := leAt e 22 1
def puFormat (e : List Byte) : Nat := leAt e 23 1
def puConfRev (e : List Byte) : Nat := leAt e 24 4
def puNdsEnt (e : List Byte) : Nat := leAt e 28 2
def puSeqA (e : List Byte) : Nat := leAt e 32 4
def puSeqB (e : List Byte) : Nat := leAt e 36 4
def puDcrc (e : List Byte) : Nat := leAt e 40 4
def puNextUs (e : List Byte) : Nat := leAt e 44 4
def puLastBeat (e : List Byte) : Nat := leAt e 48 8
def puRate (e : List Byte) : Nat := leAt e 56 4

/-! Output records (R249, R250). -/

def orKind (b : List Byte) : Nat := leAt b 0 1
def orFlags (b : List Byte) : Nat := leAt b 1 1
def orReport (b : List Byte) : Bool := bitOf (orFlags b) 0
def orTs (b : List Byte) : Bool := bitOf (orFlags b) 1
def orForce (b : List Byte) : Bool := bitOf (orFlags b) 2
def orTest (b : List Byte) : Bool := bitOf (orFlags b) 3
def orAnyDest (b : List Byte) : Bool := bitOf (orFlags b) 4
def orLen (b : List Byte) : Nat := leAt b 2 2
def orPub (b : List Byte) : Nat := leAt b 4 2
def orArg (b : List Byte) (o n : Nat) : Nat := leAt b (8 + o) n
def orBody (b : List Byte) : List Byte := b.drop 16

/-- Reserved fields are zero. FORCE on another kind than GOOSE and ANY_DEST on another than YARD are reserved uses
(assumption log 70). -/
def orReserved (b : List Byte) : Bool :=
  decide (orFlags b < 32) && leAt b 6 2 == 0
    && (!orForce b || orKind b == 1) && (!orAnyDest b || orKind b == 6)
    && (match orKind b with
        | 1 => leAt b 8 8 == 0
        | 2 => orArg b 3 5 == 0
        | 3 => orArg b 7 1 == 0 && leAt b 22 2 == 0
        | 4 => orPub b == 0
        | _ => true)

/-- BODY matches the entry's CHANNELS and FORMAT or the record's noASDU and NSAMP; samples are padded to a multiple of 4
(R249). -/
def orBodyOk (e b : List Byte) : Bool :=
  let n := b.length - 16
  match orKind b with
  | 1 => true
  | 2 => decide (1 ≤ orArg b 2 1 ∧ orArg b 2 1 ≤ 16) && n == orArg b 2 1 * puChannels e * 8
  | 3 =>
    let pay := leAt b 20 2 * puChannels e * hrsSize (puFormat e)
    decide (8 ≤ n ∧ 1 ≤ leAt b 20 2) && n == 8 + (pay + 3) / 4 * 4 && decide (pay ≤ 9136)
  | 4 => decide (n ≤ 4080)
  | 5 => n == 0
  | _ => decide (4 ≤ n ∧ n ≤ 9088)

/-- OUTPUT refuses a record of an item of a slice and class (R251). -/
def State.orRefused (s : State) (slice cls a1 : Nat) (b : List Byte) : Bool :=
  let k := orKind b
  let e := s.pub (orPub b)
  !(decide (1 ≤ k ∧ k ≤ 6) && decide (16 ≤ a1 ∧ a1 ≤ 9216) && a1 % 4 == 0 && orLen b == a1 && orReserved b
    && (k == 4 || k == 5 || (decide (orPub b < 8192) && puValid e && puKind e == k && puSlice e == slice
      && bitOf (puMask e) cls))
    && orBodyOk e b)

/-! Admission (R252). A FREEZE record takes no room. -/

/-- Records of the open beat that stand in the common pool or in a slice's guarantee: their number and bytes. -/
def roomUsed (l : List OutRec) : Nat × Nat := (l.length, (l.map fun r => r.bytes.length).sum)

/-- Where a record of `n` bytes goes: none when neither the guarantee nor the pool admits it; true for the pool. -/
def State.admission (s : State) (slice cls n : Nat) : Option Bool :=
  let l := s.sealSt.store.filter fun r => orKind r.bytes != 5
  let own := roomUsed (l.filter fun r => r.slice == slice && !r.pooled)
  let pool := roomUsed (l.filter fun r => r.pooled)
  let free := 16384 - pool.1
  if own.1 < 64 ∧ own.2 + n ≤ 16384 then some false
  else if pool.1 < 16384 ∧ pool.2 + n ≤ 4194304 ∧ (cls = 0 ∨ s.get F.SEAL_OUT_CFG < free) then some true
  else none

/-- OUTPUT of the record `b` of an item whose a1 is `a1`: the state and the code returned in a0 (R190, R251, R252). -/
def State.output (s : State) (i : Item) (a1 : Nat) (b : List Byte) : State × Nat :=
  let n := itSlice i
  let c := itClass i
  let keep := fun (t : State) pooled => t.setSeal fun x => { x with
    store := x.store ++ [⟨i.seq, n, c, itFlow i, i.epoch, t.beat, b, pooled⟩] }
  if !s.bit F.SEAL_CTRL then (s.bump F.SEAL_CNT_FULL, 1)
  else if s.orRefused n c a1 b then
    ((s.bump F.SEAL_CNT_REFUSED).limited 0x9002 n 1 fun k t => t.raise 0x9002 177 n (orKind b) k 0, 2)
  else if orKind b = 5 then (keep s false, 0)
  else
    match s.admission n c a1 with
    | none => ((s.bump F.SEAL_CNT_FULL).limited 0x9003 n 1 fun k t => t.raise 0x9003 177 n c k 0, 1)
    | some pooled => ((keep s pooled).bump F.SEAL_CNT_RECORDS, 0)

end Sys2Proof.Machine
end

