-- ==== Sys2Proof/Machine/Stall.lean ====
section
/-! DEFINITION. Stalls and sheds (chapter 6): fetch, the store buffer, loads and stores, traps and services, endings,
semaphores, hand-over, SRAM power states and the enabling of sheds. Stall `k` is 16 × physical shed + local stall. -/

namespace Sys2Proof.Machine

/-- A per-stall register of a shed. -/
def stl (f : Fld) (k : Nat) : Fld := (sh f (k / 16)).idx (k % 16)
/-- The first parameter of shed events: physical shed and local stall (R209). -/
def stallParam (k : Nat) : Nat := k / 16 * 256 + k % 16
def shedParam (p : Nat) : Nat := p * 256 + 0xFF
/-- The interrupt source of shed `p`. -/
def shedSource (p : Nat) : Nat := 109 + p

def State.setCore (s : State) (k : Nat) (c : Core) : State := s.setStall k fun x => { x with core := c }

/-! Readiness of a memory (R203). -/

inductive Ready where
  | yes | wait | off
  deriving DecidableEq, Repr

/-- Domain `d` runs. -/
def State.domOn (s : State) (d : Nat) : Bool := s.domState d == 0 && !s.domWaking d

def State.memReady (s : State) (t : Target) : Ready :=
  match t with
  | .localMem k _ =>
    if s.ramState k != 0 || (s.shed (k / 16)).stallWaking.contains (k % 16) then .wait else .yes
  | .shedMem p o =>
    if !s.shedRuns p || (s.shed p).waking.contains (shedBank o) then .wait
    else if s.bankState p (shedBank o) = 0 then .yes
    else if s.bankState p (shedBank o) = 1 then .wait
    else .off
  | .yard _ => if s.domOn 14 then .yes else .wait
  | .hist a => if s.domOn (15 + placeHalf (histPlace s.loft.halves (a / 2 ^ 20))) then .yes else .wait
  | _ => .yes

/-- The stall may issue: its shed runs, it has an item that is not being stopped, the run deadline has not come, no load is
pending, and the entry of the item is complete (R171, R188, R196, R203). -/
def State.canIssue (s : State) (k : Nat) : Bool :=
  s.shedRuns (k / 16) && s.get (stl F.SHED_STALL_STATn_STATE k) == 2 && (s.stall k).item.isSome && (s.stall k).load.isNone
    && !s.pastDeadline && (!(s.stall k).entering || s.memReady (.localMem k 0) == .yes)

/-- An access that waits starts the wake of a memory in RETAIN. -/
def State.startWake (s : State) (t : Target) : State :=
  match t with
  | .localMem k _ => s.setShed (k / 16) fun x =>
      if x.stallWaking.contains (k % 16) then x else { x with stallWaking := k % 16 :: x.stallWaking }
  | .shedMem p o => s.setShed p fun x =>
      if x.waking.contains (shedBank o) then x else { x with waking := shedBank o :: x.waking }
  | _ => s

/-- The shed in whose SHED_CNT_WAKE_WAIT an access to a place counts. -/
def targetShed (k : Nat) (t : Target) : Nat :=
  match t with
  | .shedMem p _ => p
  | _ => k / 16

/-- An access waits for its memory; it counts once (R203). -/
def State.loadWaits (s : State) (k : Nat) (t : Target) : State :=
  let s := s.startWake t
  if (s.stall k).waiting then s
  else (s.bump (sh F.SHED_CNT_WAKE_WAIT (targetShed k t))).setStall k fun x => { x with waiting := true }

/-- An address of the semaphore range (R172). -/
def isSem (a : Word) : Bool := decide (0x200000 ≤ a.toNat ∧ a.toNat < 0x200080)

/-- The beat of the last access to a bank (R510). -/
def State.touch (s : State) (t : Target) : State :=
  match t with
  | .shedMem p o => s.setShed p fun x => { x with bankBeat := Table.put 0 (shedBank o) s.beat x.bankBeat }
  | _ => s

/-! The guard of a stall (R172, R377). Accesses: 0 read, 1 write, 2 fetch. -/

/-- A U-mode access to a region that the stall itself enforces: allowed or not; none for other regions. -/
def fixedRegion (a acc : Nat) : Option Bool :=
  if 0xEF00 ≤ a ∧ a < 0xF000 then some (acc == 0)
  else if 0xF000 ≤ a ∧ a < 0x10000 then some false
  else if 0x20000 ≤ a ∧ a < 0x30000 then some false
  else if 0x30000 ≤ a ∧ a < 0x30010 then some (acc == 2)
  else if 0x200000 ≤ a ∧ a < 0x200080 then some (acc != 2)
  else none

/-- The verdict on an access by the item of stall `k`, and the granule's tag. -/
def State.stallVerdict (s : State) (k a acc : Nat) : Verdict × Nat :=
  let t := s.stallTarget k a
  let tag := s.tagOf t
  match fixedRegion a acc with
  | some true => (⟨0, 0, 0⟩, tag)
  | some false => (⟨8, 0, 0⟩, tag)
  | none =>
    let x := s.stall k
    let v := s.guardCheck x.regions ((x.item.map itSlice).getD 0) a acc tag false false
    let bad : Bool := match t with
      | .nowhere => true
      | .yard _ => acc != 0
      | .hist _ => false
      | _ => acc == 2
    (if v.cause = 0 ∧ bad then { v with cause := 1 } else v, tag)

/-- A refusal of an access of stall `k`'s item. -/
def State.stallRefuse (s : State) (k a acc : Nat) (v : Verdict) (tag : Nat) : State :=
  let x := s.stall k
  let (s, rec) := s.refuse ⟨k, x.item.map itSlice, false, false, x.item.map itFlow, (x.item.map (·.epoch)).getD 0, acc, a⟩ v tag
    x.report
  s.setStall k fun y => { y with report := rec }

/-- An access to a bank that is OFF: guard no-match with cause BANK_OFF, and 0x8008 (R203). -/
def State.bankOff (s : State) (k a acc : Nat) (t : Target) : State :=
  match t with
  | .shedMem p o =>
    let who := if p = k / 16 then stallParam k else shedParam p
    (s.stallRefuse k a acc ⟨10, 0, 0⟩ 0).raise 0x8008 (shedSource p) who (shedBank o) 0 0
  | _ => s

/-! Errors of a memory (R159, R177, R371, R609). -/

/-- The memory and index that GUARD_TAG_SEL would name for a place, and the offset of its granule (event 0xD004). -/
def tagPlace (t : Target) : Nat × Nat :=
  match t with
  | .localMem k o => (2 * 2 ^ 28 + k, o / 64 * 64)
  | .shedMem p o => (2 ^ 28 + p, o / 64 * 64)
  | .hist a => (3 * 2 ^ 28, a / 256 * 256)
  | .yard o => (0, o / 64 * 64)
  | _ => (0, 0)

/-- The memory and word of a place that the MTEST block repairs (R608, R609). -/
def unitOf (t : Target) : Option (MemUnit × Nat) :=
  match t with
  | .localMem j o => some (.localMem j, o / 4 * 4)
  | .shedMem p o => some (.shedMem p (shedBank o), o / 4 * 4)
  | _ => none

/-- A defective word waits for repair (R609). -/
def State.defective (s : State) (u : MemUnit) (ofs : Nat) : State :=
  if s.mtest.found.contains (u, ofs) then s else { s with mtest := { s.mtest with found := s.mtest.found ++ [(u, ofs)] } }

/-- One more corrected error under a word's key. -/
def State.ceWord (s : State) (key : Nat) (u : MemUnit) (w : Nat) : State :=
  let n := Table.at 0 key s.mtest.ce + 1
  let s := { s with mtest := { s.mtest with ce := Table.put 0 key n s.mtest.ce } }
  if n = s.get F.MTEST_CFG_CE_LIMIT then s.defective u w else s

/-- A corrected error of a word: CE_LIMIT of them within one pass make it defective (R609). -/
def State.ceSeen (s : State) (t : Target) : State :=
  match t, unitOf t with
  | .localMem j o, some (u, w) => s.ceWord (2 * (65536 * j + o / 4)) u w
  | .shedMem p o, some (u, w) => s.ceWord (2 * (1048576 * p + o / 4) + 1) u w
  | _, _ => s

/-- An uncorrectable error of a place poisons its granule (R159, R177), and is counted and reported. -/
def State.memUe (s : State) (k : Nat) (t : Target) : State :=
  let s := match unitOf t with
    | some (u, w) => s.defective u w
    | none => s
  match t with
  | .localMem j o =>
    let s := ((s.setTags t 1 0xFF).bump (sh F.SHED_CNT_UE (j / 16))).flag (sh F.SHED_STATUS_UE_SEEN (j / 16))
    s.raise 0x8005 (shedSource (j / 16)) (stallParam j) o 0 0
  | .shedMem p o =>
    let s := ((s.setTags t 1 0xFF).bump (sh F.SHED_CNT_UE p)).flag (sh F.SHED_STATUS_UE_SEEN p)
    s.raise 0x8005 (shedSource p) (if p = k / 16 then stallParam k else shedParam p) o 0 1
  | .hist a => ((s.setTags t 1 0xFF).bump F.LOFT_CNT_UE).raise 0x6008 107 (a / histSize) (a % histSize / 256) 0 0
  | _ => s

/-- Reads of history met `ce` corrected errors, and the granules `ue` from address `base` are uncorrectable: they are poisoned
and reported (R159). -/
def State.histErrors (s : State) (base ce : Nat) (ue : List Nat) : State :=
  (s.addTo F.LOFT_CNT_CE ce).each ue fun i t => t.memUe 0 (.hist (base + 256 * i))

/-- The history as such a read sees it: an uncorrectable granule reads zero. -/
def State.blankHist (s : State) (base : Nat) (ue : List Nat) : State :=
  s.each ue fun i t => t.setLoft fun x => { x with hist := Memory.clear x.hist (base + 256 * i) 256 }

/-- What the codes of a read find, before its data is used: the state and whether the data reads zero. -/
def State.memError (s : State) (k a acc : Nat) (t : Target) (e : MemErr) : State × Bool :=
  match e with
  | .none => (s, false)
  | .ce =>
    (match t with
     | .localMem j _ => ((s.bump (sh F.SHED_CNT_CE (j / 16))).ceSeen t, false)
     | .shedMem p _ => ((s.bump (sh F.SHED_CNT_CE p)).ceSeen t, false)
     | .hist _ => (s.bump F.LOFT_CNT_CE, false)
     | _ => (s, false))
  | .ue =>
    (match t with
     | .yard _ => (s, false)
     | _ => (s.memUe k t, true))
  | .tagCe => (s.bump F.GUARD_CNT_TAG_CE, false)
  | .tagUe =>
    let (m, o) := tagPlace t
    let s := ((s.setTags t 1 0xFF).bump F.GUARD_CNT_TAG_UE).raise 0xD004 182 m o 0 0
    (s.stallRefuse k a acc ⟨5, 0, 0⟩ 0xFF, true)

/-! Instruction fetch (R172, R173). -/

/-- The 64-byte line that holds history address `h`, as the stall's cache, the shed's code cache and memory hold it. Where
the copies differ, the spec does not say which ones are still cached: a free value chooses (assumption log 61). -/
def State.fetchLine (s : State) (k h : Nat) : State × List Byte :=
  let n := h / 64
  let p := k / 16
  let mem := Memory.bytes 0 s.loft.hist (64 * n) 64
  let i := Table.find n (s.stall k).icache
  let c := Table.find n (s.shed p).ccache
  let cands := ([i.getD mem, c.getD mem, mem]).eraseDups
  let pick := s.freeVal 2 % cands.length
  let line := if cands.length = 1 then mem else cands.getD pick mem
  let s := if cands.length = 1 then s else s.useFree
  let s := s.setStall k fun x => { x with icache := Table.insert n line x.icache }
  let c' := if c = some line ∨ i = some line then c.getD line else line
  (s.setShed p fun x => { x with ccache := Table.insert n c' x.ccache }, line)

/-- The 16-bit parcel at `a`; none when the guard refuses the fetch. -/
def State.parcel (s : State) (k a : Nat) : State × Option Nat :=
  let (v, tag) := s.stallVerdict k a 2
  if v.cause ≠ 0 then (s.stallRefuse k a 2 v tag, none)
  else
    match s.stallTarget k a with
    | .hist h => let (t, line) := s.fetchLine k h; (t, some (leAt line (h % 64) 2))
    | _ => (s, some 0)

/-- What stands at the pc: the exit stub, or an instruction with its length. -/
inductive Fetched where
  | stub
  | instr (len : Nat) (rv : Rv)
  deriving DecidableEq, Repr

/-- The instruction at the pc. A fetch that is refused, of its first or second parcel, is an illegal instruction (R172, R191). -/
def State.fetch (s : State) (k : Nat) : State × Fetched :=
  let a := (s.stall k).core.pc.toNat
  if 0x30000 ≤ a ∧ a < 0x30010 then (s, .stub)
  else
    match s.parcel k a with
    | (s, none) => (s, .instr 2 .illegal)
    | (s, some lo) =>
      if lo % 4 = 3 then
        match s.parcel k ((a + 2) % 2 ^ 32) with
        | (s, none) => (s, .instr 4 .illegal)
        | (s, some hi) => (s, .instr 4 (decode32 (lo + 65536 * hi)))
      else (s, .instr 2 (decode16 lo))

/-- What the codes find on a fetch from history (R159, R371): the state, and whether the fetch reads zero. Other fetches read no
coded memory. -/
def State.fetchError (s : State) (k : Nat) (e : MemErr) : State × Bool :=
  let a := (s.stall k).core.pc.toNat
  let t := s.stallTarget k a
  match t with
  | .hist _ => if (s.stallVerdict k a 2).1.cause = 0 then s.memError k a 2 t e else (s, false)
  | _ => (s, false)

/-- The memory from which the stall fetches answers. -/
def State.fetchReady (s : State) (k : Nat) : Bool :=
  match s.stallTarget k (s.stall k).core.pc.toNat with
  | .hist h => s.memReady (.hist h) == .yes
  | _ => true

/-- Stall `k` executes the instruction at its pc when `g` takes it; otherwise nothing happens (assumption log 62). -/
def State.stallRun (s : State) (k : Nat) (g : State → Nat → Nat → Rv → Option State) : State :=
  if s.canIssue k && s.fetchReady k then
    match s.fetch k with
    | (t, .instr len rv) => (g t k len rv).getD s
    | (_, .stub) => s
  else s

/-- A stall command: `dt` ns pass, and the stall executes. -/
def stallCmd (p : Fin 68) (l : Fin 16) (dt : Nat) (g : State → Nat → Nat → Rv → Option State) (s : State) : State :=
  (s.elapse dt).stallRun (16 * p.val + l.val) g

/-! Semaphores (R199 to R202). -/

def State.setHeld (s : State) (p n : Nat) (h : Bool) : State :=
  let f := sh F.SHED_SEM_HELD p
  s.put f (if h then setBit (s.get f) n else clearBit (s.get f) n)
def State.setOrph (s : State) (p n : Nat) (h : Bool) : State :=
  let f := sh F.SHED_SEM_ORPH p
  s.put f (if h then setBit (s.get f) n else clearBit (s.get f) n)

def State.semFree (s : State) (p n : Nat) : State :=
  (s.setShed p fun x => { x with holders := Table.erase n x.holders }).setHeld p n false

/-- Semaphore `n` of shed `p` is released orphaned (R202). -/
def State.semOrphan (s : State) (p n : Nat) : State :=
  let who := match Table.find n (s.shed p).holders with
    | some l => p * 256 + l
    | none => shedParam p
  let s := ((s.semFree p n).setOrph p n true).bump (sh F.SHED_CNT_SEM_ORPH p)
  s.limited 0x8003 p 1 fun k t => t.raise 0x8003 (shedSource p) who n k 0

/-- Semaphores that stall `k` holds. -/
def State.semsOf (s : State) (k : Nat) : List Nat :=
  ((s.shed (k / 16)).holders.filter fun h => h.2 == k % 16).map (·.1)

/-- The owner slice of semaphore `n`. -/
def State.semOwner (s : State) (p n : Nat) : Nat :=
  let i := n / 4
  match n % 4 with
  | 0 => s.get ((sh F.SHED_SEM_OWNn_OWN0 p).idx i)
  | 1 => s.get ((sh F.SHED_SEM_OWNn_OWN1 p).idx i)
  | 2 => s.get ((sh F.SHED_SEM_OWNn_OWN2 p).idx i)
  | _ => s.get ((sh F.SHED_SEM_OWNn_OWN3 p).idx i)

/-- What the instruction at the pc of stall `k` does to a semaphore: its number, and whether it releases it. -/
def State.semIntent (s : State) (k : Nat) : Option (Nat × Bool) :=
  let c := (s.stall k).core
  let access (a : Word) (size : Nat) (rel : Bool) : Option (Nat × Bool) :=
    if isSem a && a.toNat % size == 0 then some ((a.toNat - 0x200000) / 4, rel) else none
  if !s.canIssue k || !(s.stall k).sb.isEmpty then none
  else match (s.fetch k).2 with
    | .instr _ (.load _ _ rs1 imm size _) => access (c.rx rs1 + imm) size false
    | .instr _ (.store _ _ rs1 imm size) => access (c.rx rs1 + imm) size true
    | .instr _ (.l op _ rs1 imm) => (c.slabEA op rs1 imm).bind fun a => access a (if op = .lsh then 2 else 4) false
    | _ => none

/-- The stall of a command that may read or write a semaphore and takes no time. -/
def semCmd : Instr → Option (Nat × Nat)
  | .semaphoreAcquire q l 0 | .semaphoreRelease q l 0 | .lsh q l 0 | .lsw q l 0 | .lsp q l 0 => some (q, l)
  | _ => none

/-- The other events of this cycle on the semaphores of shed `p`, which the commands waiting next without time between bring:
local stall (32 for SHED_SEM_FORCE), semaphore and whether it is released (R201; assumption log 151). -/
def State.semEvents (s : State) (p : Nat) : List Instr → List (Nat × Nat × Bool)
  | [] => []
  | .semForce _ q d :: cs =>
    (if q.val = p then ((List.range 32).filter (bitOf d)).map fun n => (32, n, true) else []) ++ s.semEvents p cs
  | c :: cs =>
    match semCmd c with
    | none => []
    | some (q, l) =>
      (if q = p then ((s.semIntent (16 * p + l)).map fun e => (l, e)).toList else []) ++ s.semEvents p cs

/-- A release that a later command of this cycle brings comes before the read (R201): it is made now and noted. -/
def State.semEarly (s : State) (p n : Nat) (ev : List (Nat × Nat × Bool)) : State :=
  match Table.find n (s.shed p).holders with
  | none => s
  | some h =>
    let note (who : Nat) (t : State) : State := t.setShed p fun x => { x with early := (n, who, s.clk) :: x.early }
    if ev.contains (h, n, true) then note h (s.semFree p n)
    else if ev.contains (32, n, true) then note 32 (s.semOrphan p n)
    else s

/-- A release that was made before for a read of the same cycle is not made again. -/
def State.semWasEarly (s : State) (p n who : Nat) : Bool := (s.shed p).early.contains (n, who, s.clk)

/-- An acquiring read by stall `k` for a slice: the word of R199. Of the reads of one cycle that may acquire a free semaphore,
that of the lowest local stall does (R201). -/
def State.semRead (s : State) (k n slice : Nat) : State × Nat :=
  let p := k / 16
  let ev := s.semEvents p s.pending
  let s := s.semEarly p n ev
  let first := ((ev.filter fun e => e.2.1 == n && !e.2.2 && decide (e.1 < k % 16)
    && ((s.stall (16 * p + e.1)).item.map itSlice) == some (s.semOwner p n)).map (·.1)).min?
  let h := Table.find n (s.shed p).holders
  let who := (h.map fun l => 256 * l).getD 0
  if !bitOf (s.get (sh F.SHED_SEM_EN p)) n then (s, 8)
  else if h = some (k % 16) then (s, 17)
  else if s.semOwner p n ≠ slice then (s.bump (sh F.SHED_CNT_SEM_DENIED p), 4 + who)
  else if h.isSome then (s, who)
  else if first.isSome then (s, 256 * first.getD 0)
  else
    let orph := bitOf (s.get (sh F.SHED_SEM_ORPH p)) n
    let s := (s.setShed p fun x => { x with holders := Table.insert n (k % 16) x.holders }).setHeld p n true
    (s.setOrph p n false, 1 + 2 * b2n orph)

/-- A releasing write by stall `k` (R200). -/
def State.semWrite (s : State) (k n : Nat) : State :=
  let p := k / 16
  if s.semWasEarly p n (k % 16) then s
  else if Table.find n (s.shed p).holders = some (k % 16) then s.semFree p n
  else s.bump (sh F.SHED_CNT_SEM_BADREL p)

/-! Endings (R195, R231, R234). -/

/-- Stall cycles since the hand-over. -/
def State.itemCycles (s : State) (i : Item) : Nat := (s.clk - i.handAt) * 6 / 5

/-- The item of stall `k` ends: status 0 DONE, 1 FAILED, 2 FAULT, 3 OVERRUN, 4 LOST, and its code. -/
def State.itemEnd (s : State) (k status code : Nat) : State :=
  match (s.stall k).item with
  | none => s
  | some i =>
    let p := k / 16
    let own := decide (status < 2)
    let s := s.each (s.semsOf k) fun n t =>
      if own then (t.semFree p n).bump (sh F.SHED_CNT_SEM_LEFT p) else t.semOrphan p n
    let usable := bitOf (s.get (sh F.SHED_STALL_OK p)) (k % 16)
    let s := ((s.put (stl F.SHED_STALL_STATn_STATE k) (if usable then 1 else 5)).put (stl F.SHED_STALL_STATn_LAST_END k) status).put
      (stl F.SHED_STALL_STATn_CODE k) code
    let s := s.setStall k fun x => { x with
      item := none, lastSlice := some (itSlice i), load := none, sb := [], waiting := false, drainWaits := false, report := none, ending := none,
      entering := false }
    let cyc := s.itemCycles i
    let s := (s.chargeItem i cyc).setFlowRec (itFlow i) fun r => { r with inService := false }
    let s := s.finishItem i status code cyc
    (s.when (status == 4) fun t => t.setSeal fun x => { x with store := x.store.filter fun r => r.item != i.seq }).sweepOpen

/-! Traps (R191, R192). -/

/-- 64-bit accumulator image: 6 bytes and 2 zero bytes. -/
def accBytes (v : Int) : List Byte := leBytes 6 (v % 2 ^ 48).toNat ++ leBytes 2 0

/-- The save area of R192. -/
def saveArea (c : Core) (cause tval mstatus traps : Nat) : List Byte :=
  leBytes 4 c.pc.toNat ++ leBytes 4 cause ++ leBytes 4 tval ++ leBytes 4 mstatus
    ++ ((List.range 31).flatMap fun r => leBytes 4 (c.rx (r + 1)).toNat) ++ leBytes 4 c.fcsr
    ++ ((List.range 32).flatMap fun r => leBytes 4 (c.rf r).toNat)
    ++ (c.acc.flatMap fun a => accBytes a.1 ++ accBytes a.2)
    ++ leBytes 4 c.win.toNat ++ leBytes 4 c.wpres.toNat ++ leBytes 4 c.wdata.toNat ++ leBytes 4 c.wstride.toNat
    ++ leBytes 4 c.welem.toNat ++ leBytes 4 c.wlim.toNat ++ leBytes 4 c.dflags ++ leBytes 4 traps ++ leBytes 144 0

/-- mstatus after a trap from U mode: TW is 1 (R187), and privileged architecture 1.12 (R170) makes MPP U and MIE 0, MPRV 0
as in U mode, and leaves no field of S mode or V. The other fields that a core with F and a further extension has (MPIE, FS,
XS, SD) are bits of the free value `v` (assumption log 63). -/
def trapStatus (v : Nat) : Nat := 0x200000 + (v &&& 0x8001E080)

/-- Trap entry: the context goes to the save area. -/
def State.trapSave (s : State) (k cause tval : Nat) : State :=
  let x := s.stall k
  let st := trapStatus (s.freeVal 32)
  let bs := saveArea x.core cause tval st (x.traps + 1)
  s.useFree.setStall k fun y => { y with
    traps := y.traps + 1, mem := Memory.store 0 y.mem 0xFE00 bs, mstatus := st, waiting := false }

/-- The save engine may write: the store buffer is empty, and the local memory is ON (R180, R192, R203). -/
def State.saveReady (s : State) (k : Nat) : Bool := (s.stall k).sb.isEmpty && s.memReady (.localMem k 0) == .yes

/-- A trap entry that waits: for the buffer, or for the wake that its write of the save area starts. -/
def State.trapWaits (s : State) (k : Nat) : State :=
  s.when (s.memReady (.localMem k 0) != .yes) fun t => t.loadWaits k (.localMem k 0)

/-- A CSR as M mode reads it (R170, R187): `none` where the spec gives no value. Items run in U mode, which reaches none of
these; the value of mtvec is a constant of the part. -/
def State.mcsr (s : State) (k n : Nat) : Option Nat :=
  if n = 0x300 then some (s.stall k).mstatus
  else if n = 0x301 then some 0x40901124
  else if n = 0x305 then some Config.mtvec
  else if n = 0x306 then some 5
  else if n = 0xF11 ∨ n = 0xF12 then some 0
  else if n = 0xF13 then some (s.get F.IDENT_COMPAT)
  else if n = 0xF14 then some (16 * s.svcPos (k / 16) + k % 16)
  else if (0xC03 ≤ n ∧ n ≤ 0xC1F) ∨ (0xC83 ≤ n ∧ n ≤ 0xC9F) then some 0
  else none

/-- A fatal trap of the item of stall `k` (R191): it waits for the store buffer, then ends the item as FAULT. MTVAL where
it is not an address is a free value (assumption log 63). -/
def State.itemFault (s : State) (k cause : Nat) (addr : Option Word) : State :=
  if !s.saveReady k then s.trapWaits k
  else
    let tval := match addr with
      | some a => a.toNat
      | none => s.freeVal 32
    let s := if addr.isSome then s else s.useFree
    let s := s.trapSave k cause tval
    let s := (s.put (stl F.SHED_STALL_PCn k) (s.stall k).core.pc.toNat).bump (sh F.SHED_CNT_FAULT (k / 16))
    let s := s.itemEnd k 2 (cause % 256)
    s.limited 0x8001 k 1 fun n t => t.raise 0x8001 (shedSource (k / 16)) (stallParam k) cause n tval

/-! Computation. -/

/-- RV32_COMPUTE takes every instruction without a row of its own, and every illegal encoding. -/
def rvCompute (t : State) (k len : Nat) (rv : Rv) : Option State :=
  let c := (t.stall k).core
  match rv with
  | .alu .. | .alui .. | .una .. | .lui .. | .auipc .. | .jal .. | .jalr .. | .branch .. | .fma .. | .farith .. | .fcmp ..
  | .fcvtS .. | .fmvWX .. =>
    (match c.compute len rv with
     | some c' => some (t.setCore k c')
     | none => some (t.itemFault k 2 none))
  | .illegal => some (t.itemFault k 2 none)
  | _ => none

/-- A fetch that finds an uncorrectable error reads zero, which is an illegal instruction; one that is corrected goes on. -/
def rv32Compute (p : Fin 68) (l : Fin 16) (err : MemErr) (dt : Nat) (s : State) : State :=
  let k := 16 * p.val + l.val
  let t := s.elapse dt
  if t.canIssue k && t.fetchReady k then
    match t.fetchError k err with
    | (u, true) => u.itemFault k 2 none
    | (u, false) => u.stallRun k rvCompute
  else t
def execRv32Compute (p : Fin 68) (l : Fin 16) (dt : Nat) (s : State) (err : MemErr := .none) : Res :=
  fin (rv32Compute p l err dt s)

def rvEbreak (t : State) (k _len : Nat) (rv : Rv) : Option State :=
  match rv with
  | .ebreak => some (t.itemFault k 3 none)
  | _ => none

def execEbreak (p : Fin 68) (l : Fin 16) (dt : Nat) (s : State) : Res := fin (stallCmd p l dt rvEbreak s)

/-- What the counters and the Xdlp CSRs show to the item of stall `k` (R182). -/
def State.csrEnv (s : State) (k : Nat) : CsrEnv :=
  ⟨s.clk * 6 / 5, s.cyclesLeft, s.beat, s.tq, ((s.stall k).item.map itSlice).getD 0⟩

def rvCsr (t : State) (k len : Nat) (rv : Rv) : Option State :=
  match rv with
  | .csr op rd useImm rs1 n =>
    (match (t.stall k).core.csrOp (t.csrEnv k) len op rd useImm rs1 n with
     | some c => some (t.setCore k c)
     | none => some (t.itemFault k 2 none))
  | _ => none

def execCsrAccess (p : Fin 68) (l : Fin 16) (dt : Nat) (s : State) : Res := fin (stallCmd p l dt rvCsr s)

/-- An Xdlp row: the instructions that `want` names. -/
def rvXdlp (want : Rv → Bool) (t : State) (k len : Nat) (rv : Rv) : Option State :=
  if want rv then ((t.stall k).core.xdlp len rv).map (t.setCore k) else none

def isQ (o : Qop) : Rv → Bool
  | .q p _ _ _ => p == o
  | _ => false
def isC (o : Cop) : Rv → Bool
  | .c p _ _ _ => p == o
  | _ => false
def isR (o : Rop) : Rv → Bool
  | .r p _ _ _ => p == o
  | _ => false
def isAclr : Rv → Bool
  | .aclr _ => true
  | _ => false

def execQadd (p : Fin 68) (l : Fin 16) (dt : Nat) (s : State) : Res := fin (stallCmd p l dt (rvXdlp (isQ .qadd)) s)
def execQsub (p : Fin 68) (l : Fin 16) (dt : Nat) (s : State) : Res := fin (stallCmd p l dt (rvXdlp (isQ .qsub)) s)
def execQmul (p : Fin 68) (l : Fin 16) (dt : Nat) (s : State) : Res := fin (stallCmd p l dt (rvXdlp (isQ .qmul)) s)
def execQadd16 (p : Fin 68) (l : Fin 16) (dt : Nat) (s : State) : Res := fin (stallCmd p l dt (rvXdlp (isQ .qadd16)) s)
def execQsub16 (p : Fin 68) (l : Fin 16) (dt : Nat) (s : State) : Res := fin (stallCmd p l dt (rvXdlp (isQ .qsub16)) s)
def execQmul16 (p : Fin 68) (l : Fin 16) (dt : Nat) (s : State) : Res := fin (stallCmd p l dt (rvXdlp (isQ .qmul16)) s)
def execQabs (p : Fin 68) (l : Fin 16) (dt : Nat) (s : State) : Res := fin (stallCmd p l dt (rvXdlp (isQ .qabs)) s)
def execQneg (p : Fin 68) (l : Fin 16) (dt : Nat) (s : State) : Res := fin (stallCmd p l dt (rvXdlp (isQ .qneg)) s)
def execCmac (p : Fin 68) (l : Fin 16) (dt : Nat) (s : State) : Res := fin (stallCmd p l dt (rvXdlp (isC .cmac)) s)
def execCmacj (p : Fin 68) (l : Fin 16) (dt : Nat) (s : State) : Res := fin (stallCmd p l dt (rvXdlp (isC .cmacj)) s)
def execCmsu (p : Fin 68) (l : Fin 16) (dt : Nat) (s : State) : Res := fin (stallCmd p l dt (rvXdlp (isC .cmsu)) s)
def execCmsuj (p : Fin 68) (l : Fin 16) (dt : Nat) (s : State) : Res := fin (stallCmd p l dt (rvXdlp (isC .cmsuj)) s)
def execAclr (p : Fin 68) (l : Fin 16) (dt : Nat) (s : State) : Res := fin (stallCmd p l dt (rvXdlp isAclr) s)
def execArdre (p : Fin 68) (l : Fin 16) (dt : Nat) (s : State) : Res := fin (stallCmd p l dt (rvXdlp (isR .ardre)) s)
def execArdim (p : Fin 68) (l : Fin 16) (dt : Nat) (s : State) : Res := fin (stallCmd p l dt (rvXdlp (isR .ardim)) s)
def execApk16 (p : Fin 68) (l : Fin 16) (dt : Nat) (s : State) : Res := fin (stallCmd p l dt (rvXdlp (isR .apk16)) s)

/-! Loads (R176, R179). -/

/-- The register value of loaded data. -/
def PendLoad.value (d : PendLoad) (v : Nat) : Word :=
  match d.bit with
  | some b => BitVec.ofNat 32 (b2n (bitOf v b))
  | none => if d.signed then sext (8 * d.size) v else BitVec.ofNat 32 v

def Core.writeLoad (c : Core) (d : PendLoad) (v : Word) : Core := if d.fp then c.wf d.rd v else c.wx d.rd v

/-- The youngest buffered store that overlaps bytes [a, a + n). -/
def overlap (sb : List SbEnt) (a n : Nat) : Option SbEnt :=
  sb.reverse.find? fun e => decide (e.addr.toNat < a + n ∧ a < e.addr.toNat + e.size)

/-- A load of stall `k`: forwarded, waiting, refused or made (R179). -/
def State.loadGo (s : State) (k len : Nat) (d : PendLoad) : State :=
  let x := s.stall k
  let a := d.addr.toNat
  if a % d.size ≠ 0 then s.itemFault k 4 (some d.addr)
  else
    let go := fun (t : State) g => t.setStall k fun y => { y with
      load := some { d with granted := g, len := len }, waiting := false }
    match overlap x.sb a d.size with
    | some e =>
      if e.addr = d.addr ∧ e.size = d.size then s.setCore k ((x.core.writeLoad d (d.value e.data)).next len) else s
    | none =>
      let (v, tag) := s.stallVerdict k a 0
      if v.cause ≠ 0 then go (s.stallRefuse k a 0 v tag) false
      else
        let t := s.stallTarget k a
        match s.memReady t with
        | .yes => go (s.touch t) true
        | .wait => s.loadWaits k t
        | .off => go (s.bankOff k a 0 t) false

def rvLoad (t : State) (k len : Nat) (rv : Rv) : Option State :=
  match rv with
  | .load fp rd rs1 imm size signed =>
    let a := (t.stall k).core.rx rs1 + imm
    if isSem a && a.toNat % size == 0 then none else some (t.loadGo k len ⟨fp, rd, a, size, signed, none, false, len⟩)
  | _ => none

def execLoad (p : Fin 68) (l : Fin 16) (dt : Nat) (s : State) : Res := fin (stallCmd p l dt rvLoad s)

/-- A load of a semaphore (R180, R199): it waits for an empty buffer, and takes the word that the read gives. -/
def State.semLoad (s : State) (k : Nat) (d : PendLoad) : State :=
  let x := s.stall k
  if !x.sb.isEmpty then s
  else
    let a := d.addr.toNat
    let (u, w) := s.semRead k ((a - 0x200000) / 4) ((x.item.map itSlice).getD 0)
    u.setCore k ((x.core.writeLoad d (d.value (w / 2 ^ (8 * (a % 4)) % 2 ^ (8 * d.size)))).next d.len)

/-- A slab load (R185, R186); one that names a semaphore reads it as a load does. -/
def rvSlab (o : Lop) (t : State) (k len : Nat) (rv : Rv) : Option State :=
  match rv with
  | .l op rd rs1 imm =>
    if op = o then
      let c := (t.stall k).core
      (match c.slabEA op rs1 imm with
       | none => some (t.setCore k ((c.wx rd 0).woob.next len))
       | some a =>
         let size := if op = .lsh then 2 else 4
         let bit := if op = .lsp then some ((c.rx rs1).toNat % 32) else none
         let d : PendLoad := ⟨false, rd, a, size, op == .lsh, bit, false, len⟩
         some (if isSem a && a.toNat % size == 0 then t.semLoad k d else t.loadGo k len d))
    else none
  | _ => none

def execLsh (p : Fin 68) (l : Fin 16) (dt : Nat) (s : State) : Res := fin (stallCmd p l dt (rvSlab .lsh) s)
def execLsw (p : Fin 68) (l : Fin 16) (dt : Nat) (s : State) : Res := fin (stallCmd p l dt (rvSlab .lsw) s)
def execLsp (p : Fin 68) (l : Fin 16) (dt : Nat) (s : State) : Res := fin (stallCmd p l dt (rvSlab .lsp) s)

/-- The data of a pending load returns (R176, R177). -/
def loadReturn (k : Nat) (e : MemErr) (s : State) : State :=
  match (s.stall k).load with
  | none => s
  | some d =>
    let a := d.addr.toNat
    let t := s.stallTarget k a
    let (s, zero) := if d.granted then s.memError k a 0 t e else (s, true)
    let v := if zero then 0 else leNat (s.readTarget t d.size)
    let w := if d.bit.isNone && zero then 0 else d.value v
    s.setStall k fun x => { x with load := none, core := (x.core.writeLoad d w).next d.len }

/-- The cycles for which an access of stall `k` waited for its bank (R174, R175): its own in local memory, its master's in the
shed memory of its shed, those of the remote port in that of another. -/
def State.bankWaits (s : State) (k cycles : Nat) (t : Target) : State :=
  match t with
  | .localMem _ _ => s.addTo (sh (F.SHED_CNT_SCONFn.idx (k % 16)) (k / 16)) cycles
  | .shedMem p _ => s.addTo (sh (F.SHED_CNT_MCONFn.idx (if p = k / 16 then k % 16 else 18)) p) cycles
  | _ => s

/-- The pending load of stall `k` waited `waits` cycles for its bank, and returns. -/
def loadDone (k : Nat) (e : MemErr) (waits : Nat) (s : State) : State :=
  match (s.stall k).load with
  | none => s
  | some d => loadReturn k e (if d.granted then s.bankWaits k waits (s.stallTarget k d.addr.toNat) else s)

def execLoadDataReturn (p : Fin 68) (l : Fin 16) (err : MemErr) (dt : Nat) (s : State) (waits : Nat := 0) : Res :=
  fin (loadDone (16 * p.val + l.val) err waits (s.elapse dt))

/-! Stores (R178, R180). -/

def rvStore (t : State) (k len : Nat) (rv : Rv) : Option State :=
  match rv with
  | .store fp rs2 rs1 imm size =>
    let x := t.stall k
    let a := x.core.rx rs1 + imm
    let v := (if fp then x.core.rf rs2 else x.core.rx rs2).toNat % 2 ^ (8 * size)
    if a.toNat % size ≠ 0 then some (t.itemFault k 6 (some a))
    else if isSem a then none
    else if x.sb.length < 4 then
      some (t.setStall k fun y => { y with sb := y.sb ++ [⟨a, size, v⟩], core := y.core.next len })
    else some t
  | _ => none

def execStore (p : Fin 68) (l : Fin 16) (dt : Nat) (s : State) : Res := fin (stallCmd p l dt rvStore s)

/-- Granules of state pages that a store to shed memory marks for the delta (R255). -/
def State.markDelta (s : State) (t : Target) : State :=
  match t with
  | .shedMem p o =>
    s.each (s.groom.flows.filter fun f => f.2.pageValid && s.shedAt f.2.pos == some p
        && decide (f.2.ofs ≤ o ∧ o < f.2.ofs + 64 * f.2.len)) fun f t =>
      let m := (f.1, (o - f.2.ofs) / 64)
      if t.sealSt.marks.contains m then t else t.setSeal fun x => { x with marks := x.marks ++ [m] }
  | _ => s

/-- The head store of the buffer of stall `k` is accepted or dropped; with `force` it does not wait for a wake (the stop
drains every store, R196). -/
def State.drainHead (s : State) (k : Nat) (force : Bool) : State :=
  match (s.stall k).sb with
  | [] => s
  | e :: _ =>
    let a := e.addr.toNat
    let t := s.stallTarget k a
    let pop := fun (u : State) => u.setStall k fun y => { y with sb := y.sb.tail, drainWaits := false }
    let (v, tag) := s.stallVerdict k a 1
    if v.cause ≠ 0 then pop (s.stallRefuse k a 1 v tag)
    else
      match s.memReady t with
      | .off => pop (s.bankOff k a 1 t)
      | r =>
        if r = .wait ∧ !force then
          let s := s.startWake t
          if (s.stall k).drainWaits then s
          else (s.bump (sh F.SHED_CNT_WAKE_WAIT (targetShed k t))).setStall k fun y => { y with drainWaits := true }
        else pop (((s.writeTarget t (leBytes e.size e.data)).markDelta t).touch t)

/-- The head of the store buffer of stall `k` drains after `waits` cycles of waiting for its bank. -/
def storeDrain (k waits : Nat) (s : State) : State :=
  match (s.stall k).sb with
  | [] => s
  | e :: _ => (s.bankWaits k waits (s.stallTarget k e.addr.toNat)).drainHead k false

def execStoreDrain (p : Fin 68) (l : Fin 16) (dt : Nat) (s : State) (waits : Nat := 0) : Res :=
  fin (storeDrain (16 * p.val + l.val) waits (s.elapse dt))

/-- FENCE waits until the buffer is empty (R180). -/
def rvFence (t : State) (k len : Nat) (rv : Rv) : Option State :=
  match rv with
  | .fence => some (if (t.stall k).sb.isEmpty then t.setCore k ((t.stall k).core.next len) else t)
  | _ => none

def execFence (p : Fin 68) (l : Fin 16) (dt : Nat) (s : State) : Res := fin (stallCmd p l dt rvFence s)

/-- FENCE.I also empties the stall's instruction cache (R173). -/
def rvFenceI (t : State) (k len : Nat) (rv : Rv) : Option State :=
  match rv with
  | .fenceI =>
    some (if (t.stall k).sb.isEmpty then t.setStall k fun y => { y with icache := [], core := y.core.next len } else t)
  | _ => none

def execFenceI (p : Fin 68) (l : Fin 16) (dt : Nat) (s : State) : Res := fin (stallCmd p l dt rvFenceI s)

/-! Semaphore accesses. -/

def rvSemRead (t : State) (k len : Nat) (rv : Rv) : Option State :=
  match rv with
  | .load fp rd rs1 imm size signed =>
    let a := (t.stall k).core.rx rs1 + imm
    if isSem a && a.toNat % size == 0 then some (t.semLoad k ⟨fp, rd, a, size, signed, none, true, len⟩) else none
  | _ => none

def execSemaphoreAcquire (p : Fin 68) (l : Fin 16) (dt : Nat) (s : State) : Res := fin (stallCmd p l dt rvSemRead s)

def rvSemWrite (t : State) (k len : Nat) (rv : Rv) : Option State :=
  match rv with
  | .store _ _ rs1 imm size =>
    let x := t.stall k
    let a := x.core.rx rs1 + imm
    if isSem a && a.toNat % size == 0 then
      if !x.sb.isEmpty then some t
      else some ((t.semWrite k ((a.toNat - 0x200000) / 4)).setCore k (x.core.next len))
    else none
  | _ => none

def execSemaphoreRelease (p : Fin 68) (l : Fin 16) (dt : Nat) (s : State) : Res := fin (stallCmd p l dt rvSemWrite s)

/-! Services (R190). `ue` is the offset at which the runtime meets an uncorrectable error in the save area or its data,
which ends the item as FAULT (R177). -/

/-- An uncorrectable error ends the item that called a service. -/
def State.serviceUe (s : State) (k ofs : Nat) : State :=
  let s := (s.bump (sh F.SHED_CNT_UE (k / 16))).flag (sh F.SHED_STATUS_UE_SEEN (k / 16))
  let s := s.raise 0x8005 (shedSource (k / 16)) (stallParam k) (0xF000 + ofs) 0 0
  let s := (s.put (stl F.SHED_STALL_PCn k) (s.stall k).core.pc.toNat).bump (sh F.SHED_CNT_FAULT (k / 16))
  let s := s.itemEnd k 2 8
  s.limited 0x8001 k 1 fun n t => t.raise 0x8001 (shedSource (k / 16)) (stallParam k) 8 n 0

/-- A service `g` of the item of stall `k`, called by an ECALL or the exit stub; `ends` is how it ends the item (0 DONE, 1
FAILED), which holds once the service is entered (R194). -/
def State.service (s : State) (k : Nat) (ends : Option Nat) (ue : Option (Fin 4096)) (g : State → State) : State :=
  if !s.saveReady k then (s.trapWaits k).setStall k fun x => { x with ending := ends }
  else
    let s := s.trapSave k 8 0
    match ue with
    | some o => s.serviceUe k o.val
    | none => g s

/-- The item goes on behind the ECALL with new values in registers; instructions that the runtime retired are a free value
(assumption log 63). -/
def State.resume (s : State) (k : Nat) (vals : List (Nat × Nat)) : State :=
  let n := s.freeVal 64
  s.useFree.setStall k fun x => { x with core :=
    { vals.foldl (fun c v => c.wx v.1 (BitVec.ofNat 32 v.2)) x.core with
      pc := x.core.pc + 4, instret := n } }

/-- The value of a register of stall `k`. -/
def State.xreg (s : State) (k r : Nat) : Nat := ((s.stall k).core.rx r).toNat

/-- The service that an ECALL requests. -/
def rvService (want : Nat → Bool) (ends : Option Nat) (ue : Option (Fin 4096)) (g : Nat → State → State) (t : State)
    (k _len : Nat) (rv : Rv) : Option State :=
  match rv with
  | .ecall => if want (t.xreg k 17) then some (t.service k ends ue (g k)) else none
  | _ => none

def svcDone (k : Nat) (s : State) : State := s.itemEnd k 0 (s.xreg k 10 % 256)

/-- DONE, by its service or by the exit stub. -/
def doneCmd (p : Fin 68) (l : Fin 16) (ue : Option (Fin 4096)) (dt : Nat) (s : State) : State :=
  let k := 16 * p.val + l.val
  let t := s.elapse dt
  if t.canIssue k && (t.fetch k).2 == .stub then t.service k (some 0) ue (svcDone k)
  else stallCmd p l dt (rvService (· == 0) (some 0) ue svcDone) s

def execDone (p : Fin 68) (l : Fin 16) (ue : Option (Fin 4096)) (dt : Nat) (s : State) : Res := fin (doneCmd p l ue dt s)

/-- Scratch bytes as the runtime reads them: a poisoned granule reads zero, as a privileged refusal (R380, R381). -/
def State.scratchRead (s : State) (k a n : Nat) : State × List Byte :=
  let gs := (List.range (n / 64 + 2)).map fun i => a / 64 + i
  let bad := gs.filter fun g => decide (64 * g < a + n) && TagMap.get g (s.stall k).tags == 0xFF
  let s' := s.each bad fun g t => (t.refuse ⟨k, none, true, false, none, 0, 0, 64 * g⟩ ⟨1, 0, 0⟩ 0xFF none).1
  (s', (List.range n).map fun i => if bad.contains ((a + i) / 64) then 0 else Memory.byte 0 (s.stall k).mem (a + i))

/-- OUTPUT (R190, R249): a record that does not lie in U scratch is refused (assumption log 64). -/
def svcOutput (k : Nat) (s : State) : State :=
  match (s.stall k).item with
  | none => s
  | some i =>
    let a := s.xreg k 10
    let n := s.xreg k 11
    if 0xEF00 < a + n ∨ 9216 < n then
      let b := List.replicate 16 0
      let (s, r) := s.output i 0 b
      s.resume k [(10, r)]
    else
      let (s, b) := s.scratchRead k a n
      let (s, r) := s.output i n (b ++ List.replicate (16 - b.length) 0)
      s.resume k [(10, r)]

def execOutput (p : Fin 68) (l : Fin 16) (ue : Option (Fin 4096)) (dt : Nat) (s : State) : Res :=
  fin (stallCmd p l dt (rvService (· == 1) none ue svcOutput) s)

/-- TIME (R190). -/
def svcTime (k : Nat) (s : State) : State :=
  let t := s.nowNs
  s.resume k [(10, t % 1000000000), (11, t / 1000000000 % 2 ^ 32), (12, t / 1000000000 / 2 ^ 32 % 65536)]

def execTime (p : Fin 68) (l : Fin 16) (ue : Option (Fin 4096)) (dt : Nat) (s : State) : Res :=
  fin (stallCmd p l dt (rvService (· == 2) none ue svcTime) s)

def svcFail (k : Nat) (s : State) : State := s.itemEnd k 1 (s.xreg k 10 % 256)

def execFail (p : Fin 68) (l : Fin 16) (ue : Option (Fin 4096)) (dt : Nat) (s : State) : Res :=
  fin (stallCmd p l dt (rvService (· == 3) (some 1) ue svcFail) s)

def svcBad (k : Nat) (s : State) : State := (s.bump (sh F.SHED_CNT_BADSVC (k / 16))).resume k [(10, 0xFFFFFFFF)]

def execBadService (p : Fin 68) (l : Fin 16) (ue : Option (Fin 4096)) (dt : Nat) (s : State) : Res :=
  fin (stallCmd p l dt (rvService (fun n => decide (3 < n)) none ue svcBad) s)

/-! The stop (R196). -/

/-- Stall `k` is stopped: its instruction stream ends, its stores drain, and its item ends as OVERRUN; a DONE or FAIL service
entered before ends it as that service does (R194, R220). A local memory in RETAIN is woken for the save area. -/
def State.stopStall (s : State) (k : Nat) : State :=
  let s := s.setStall k fun x => { x with load := none }
  let s := ((List.range 4).foldl (fun t _ => t.drainHead k true) s).trapWaits k
  match (s.stall k).ending with
  | some st => (s.trapSave k 8 0).itemEnd k st (s.xreg k 10 % 256)
  | none =>
  let s := s.trapSave k (2 ^ 31 + 16) 0
  (s.put (stl F.SHED_STALL_PCn k) (s.stall k).core.pc.toNat).itemEnd k 3 0

/-- Stalls with an item in service. -/
def State.busyStalls (s : State) : List Nat := (s.pool.stalls.filter fun e => e.2.item.isSome).map (·.1)

/-! Hand-over (R188, R189, R230, R232). -/

/-- The slab of an item's primary window: its offset in the yard. -/
def State.itemSlab (s : State) (i : Item) : Option Nat :=
  match i.window with
  | none => none
  | some k => if dGroup i.d = 0xFFFF then none else some (slabAddr (s.group (dGroup i.d)).e k)

/-- The entry block. -/
def State.entryBlock (s : State) (i : Item) (x : Nat) (cleared newStall : Bool) : List Byte :=
  let slab := s.itemSlab i
  leBytes 8 s.beat ++ leBytes 8 (if slab.isSome then i.window.getD 0 else 0) ++ leBytes 4 (dFlow i.d)
    ++ leBytes 4 (s.flowRec (dFlow i.d)).epoch ++ leBytes 1 (dClass i.d) ++ leBytes 1 (dSlice i.d) ++ leBytes 1 (s.tq % 8)
    ++ leBytes 1 (b2n cleared + 2 * b2n newStall + 4 * b2n i.noSlab)
    ++ leBytes 2 (if slab.isSome then dGroup i.d else 0xFFFF) ++ leBytes 2 0
    ++ leBytes 4 ((slab.map fun o => 0x10000000 + o).getD 0) ++ leBytes 4 (64 * (s.flowRec (dFlow i.d)).len)
    ++ leBytes 4 s.cyclesLeft ++ leBytes 4 x ++ leBytes 16 0 ++ dArgs i.d ++ leBytes 160 0

/-- The registers at the entry (R183, R188). -/
def State.entryCore (s : State) (i : Item) (c : Core) : Core :=
  let c := { Core.zero with pc := BitVec.ofNat 32 (dEntry i.d), instret := c.instret }
  let c := ((c.wx 2 0xEF00).wx 10 0xEF00).wx 1 0x30000
  match s.itemSlab i with
  | none => c
  | some o =>
    let w := fun n => BitVec.ofNat 32 (s.yLe (o + n) 4)
    { c with
      win := BitVec.ofNat 32 (0x10000000 + o), wpres := w 36, wdata := w 44, wstride := w 48
      welem := BitVec.ofNat 32 (s.yLe (o + 18) 2)
      wlim := BitVec.ofNat 32 (s.yLe (o + 14) 2 + 65536 * s.yLe (o + 12) 2) }

/-- Item `i` of a tier is handed to stall number `x`, physical stall `k`. The writes of the entry wait for a local memory in
RETAIN to wake (R203), and the item's first instruction with them. -/
def State.handTo (s : State) (i : Item) (tier x k : Nat) : State :=
  let r := s.flowRec (dFlow i.d)
  let st := s.stall k
  let cleared := st.wasOff || st.lastSlice != some (dSlice i.d)
  let newStall := r.lastStall != some x
  let i := { i with tier := tier, stall := some x, handAt := s.clk, epoch := r.epoch }
  let block := s.entryBlock i x cleared newStall
  let core := s.entryCore i st.core
  let regs := if st.setSlice = some (dSlice i.d) then st.regions else s.stallSet (dSlice i.d)
  let mem := if cleared then Memory.clear st.mem 0 0xEF00 else st.mem
  let tags := if cleared then TagMap.set 0 (0xEF00 / 64) (s.scrCol (dSlice i.d)) st.tags else st.tags
  let s := s.setStall k fun y => { y with
    core := core, mem := Memory.store 0 mem 0xEF00 block, tags := tags, sb := [], load := none, item := some i,
    ending := none, entering := s.memReady (.localMem k 0) != .yes, wasOff := false, setSlice := some (dSlice i.d), regions := regs, waiting := false, drainWaits := false, traps := 0,
    report := none, handBeat := s.beat }
  let s := (s.trapWaits k).setStall k fun y => { y with waiting := false }
  let s := (s.put (stl F.SHED_STALL_STATn_STATE k) 2).put (stl F.SHED_STALL_STATn_SLICE k) (dSlice i.d)
  let s := s.setFlowRec (dFlow i.d) fun r => { r with lastStall := some x, inService := true }
  let s := ((s.removeReady i).bump F.GROOM_CNT_DISPATCHED).commitItem i tier
  let s := s.setGroom fun g => { g with rr := listMod g.rr (tier - 1) fun _ => (dSlice i.d + 1) % 256 }
  s.when (dClass i.d == 0) fun t => t.releaseTrip (dSlice i.d)

/-- One hand-over of dispatch_round. -/
def handOver (dt : Nat) (s : State) : State :=
  let s := s.elapse dt
  if s.dispatching then
    let s := ((s.sweep s.groom.ready.length).joinPool).markCap
    match s.nextHand with
    | none => s
    | some (i, tier, x) =>
      match s.stallPhys x with
      | none => s
      | some k => s.handTo i tier x k
  else s

def execHandOver (dt : Nat) (s : State) : Res := fin (handOver dt s)

/-! Sheds (R205, R206, R208). -/

/-- The counters of a shed. -/
def shedCounters : List Fld :=
  [F.SHED_CNT_CE, F.SHED_CNT_UE, F.SHED_CNT_STOPLATE, F.SHED_CNT_SEM_ORPH, F.SHED_CNT_SEM_LEFT, F.SHED_CNT_SEM_BADREL,
   F.SHED_CNT_SEM_DENIED, F.SHED_CNT_WAKE_WAIT, F.SHED_CNT_FAULT, F.SHED_CNT_BADSVC]
    ++ (List.range 19).map F.SHED_CNT_MCONFn.idx ++ (List.range 16).map F.SHED_CNT_SCONFn.idx

def State.clearShedCounters (s : State) (p : Nat) : State := s.each shedCounters fun f t => t.put (sh f p) 0

/-- Shed `p` is disabled: its items end as LOST and its stalls stop; pages it held are lost (R206, R240). -/
def State.shedOff (s : State) (p : Nat) : State :=
  let s := s.each ((List.range 16).filter fun l => (s.stall (16 * p + l)).item.isSome) fun l t => t.itemEnd (16 * p + l) 4 0
  let s := s.losePages (s.svcPos p)
  let s := ((s.put (sh F.SHED_CTRL_EN p) 0).put (sh F.SHED_STATUS_RUNNING p) 0).put (sh F.SHED_STATUS_INIT_BUSY p) 0
  (s.each (List.range 16) fun l t => t.put (stl F.SHED_STALL_STATn_STATE (16 * p + l)) 0).syncLive

/-- The enable sequence of shed `p` starts (R205). -/
def State.shedStart (s : State) (p : Nat) : State :=
  let s := s.freshLimits fun e => (e.code == 0x8001 && e.key / 16 == p) || (e.code == 0x8003 && e.key == p)
  let s := (s.put (sh F.SHED_CTRL_EN p) 1).put (sh F.SHED_STATUS_RUNNING p) 1
  (s.put (sh F.SHED_STATUS_INIT_BUSY p) 1).put (sh F.SHED_STATUS_ROM_ERR p) 0

/-- The service position admits EN (R167): 0 to 63 held by no other enabled shed, or 0x7F. -/
def State.posFree (s : State) (p : Nat) : Bool :=
  let q := s.svcPos p
  q == 0x7F || (decide (q < 64) && (List.range 68).all fun o => o == p || !s.bit (sh F.SHED_CTRL_EN o) || s.svcPos o != q)

/-- A write of SHED_CTRL. -/
def shedCtrlWrite (p d : Nat) (s : State) : State :=
  let s := if bitOf d 1 then s.clearShedCounters p else s
  if bitOf d 0 then
    if s.bit (sh F.SHED_CTRL_EN p) || !s.posFree p then s else s.shedStart p
  else if s.bit (sh F.SHED_CTRL_EN p) then s.shedOff p
  else s

def execShedEnable (m : Master) (p : Fin 68) (d : Nat) (s : State) : Res :=
  fin (s.regWrite m (0x800000 + 0x1000 * p) (shedCtrlWrite p d))

def execCntClr (m : Master) (p : Fin 68) (s : State) : Res :=
  fin (s.regWrite m (0x800000 + 0x1000 * p) fun t => t.clearShedCounters p)

/-- The states of the stalls of shed `p` after its enable: usable ones IDLE, others RETIRED. -/
def State.stallsIdle (s : State) (p : Nat) : State :=
  s.each (List.range 16) fun l t =>
    t.put (stl F.SHED_STALL_STATn_STATE (16 * p + l)) (if bitOf (t.get (sh F.SHED_STALL_OK p)) l then 1 else 5)

/-- Memories, tags and caches of shed `p` are cleared. -/
def State.shedZero (s : State) (p : Nat) : State :=
  let s := s.setShed p fun x => { x with mem := [], tags := [], ccache := [] }
  s.each (List.range 16) fun l t => t.setStall (16 * p + l) fun x => { x with
    mem := [], tags := [], icache := [], wasOff := true, lastSlice := none }

/-- Pages allocated in the shed meanwhile keep their owner's state colour (R218). -/
def State.colourPages (s : State) (p : Nat) : State :=
  s.each (s.groom.flows.filter fun f => f.2.pageValid && s.shedAt f.2.pos == some p) fun f t =>
    t.setTags (.shedMem p f.2.ofs) (64 * f.2.len) (t.stateCol (feSlice (t.flow f.1).e))

/-- The enable sequence ends (R205). -/
def shedInitDone (p : Nat) (romOk : Bool) (s : State) : State :=
  if !s.bit (sh F.SHED_STATUS_INIT_BUSY p) then s
  else
    let s := s.put (sh F.SHED_STATUS_INIT_BUSY p) 0
    if romOk then ((s.shedZero p).colourPages p).stallsIdle p
    else
      let s := ((s.put (sh F.SHED_CTRL_EN p) 0).put (sh F.SHED_STATUS_RUNNING p) 0).flag (sh F.SHED_STATUS_ROM_ERR p)
      s.raise 0x8004 (shedSource p) (shedParam p) 0 0 0

def execShedInitDone (p : Fin 68) (romOk : Bool) (s : State) : Res := fin (shedInitDone p romOk s)

/-- A write of SHED_SEM_FORCE releases held semaphores orphaned. -/
def semForce (p d : Nat) (s : State) : State :=
  s.each ((List.range 32).filter fun n => bitOf d n && !s.semWasEarly p n 32 && (Table.find n (s.shed p).holders).isSome)
    fun n t => t.semOrphan p n

def execSemForce (m : Master) (p : Fin 68) (d : Nat) (s : State) : Res :=
  fin (s.regWrite m (0x80004C + 0x1000 * p) (semForce p d))

/-! SRAM power states (R203, R204, R510). What an OFF memory lost reads zero afterwards (assumption log 65). -/

/-- Shed memory without one bank. -/
def dropBank (m : Memory) (b : Nat) : Memory := m.filter fun c => shedBank c.1 != b

def State.bankTo (s : State) (p b v : Nat) : State :=
  let old := s.bankState p b
  let s := (s.setBankState p b v).setShed p fun x => if v = 0 then x else { x with waking := x.waking.filter (· != b) }
  let s := s.when (v == 2) fun t => t.setShed p fun x => { x with mem := dropBank x.mem b }
  s.when (v == 0 && old != 0) fun t => t.startWake (.shedMem p (4 * b))

def bankPwrWrite (p d : Nat) (s : State) : State :=
  s.each (List.range 16) fun b t =>
    let v := bitsOf d (2 * b) 2
    if v = 3 then t
    else if v = 2 && bitOf (t.get (sh F.SHED_BANK_LIVE p)) b then t.flag (sh F.SHED_STATUS_PWR_REFUSED p)
    else t.bankTo p b v

def execBankPwrWrite (m : Master) (p : Fin 68) (d : Nat) (s : State) : Res :=
  fin (s.regWrite m (0x800018 + 0x1000 * p) (bankPwrWrite p d))

def State.ramTo (s : State) (k v : Nat) : State :=
  let old := s.ramState k
  let s := (s.setRamState k v).setShed (k / 16) fun x =>
    if v = 0 then x else { x with stallWaking := x.stallWaking.filter (· != k % 16) }
  let s := s.when (v == 2) fun t => t.setStall k fun x => { x with mem := [], wasOff := true }
  s.when (v == 0 && old != 0) fun t => t.startWake (.localMem k 0)

def stallPwrWrite (p d : Nat) (s : State) : State :=
  s.each (List.range 16) fun l t =>
    let v := bitsOf d (2 * l) 2
    if v = 3 then t else t.ramTo (16 * p + l) v

def execStallPwrWrite (m : Master) (p : Fin 68) (d : Nat) (s : State) : Res :=
  fin (s.regWrite m (0x800050 + 0x1000 * p) (stallPwrWrite p d))

/-- A memory of shed `p` is ON again: bank `i` below 16, the local memory of stall `i − 16` otherwise. -/
def sramWakeDone (p i : Nat) (s : State) : State :=
  if i < 16 then
    if (s.shed p).waking.contains i then
      (s.setBankState p i 0).setShed p fun x => { x with waking := x.waking.filter (· != i) }
    else s
  else if (s.shed p).stallWaking.contains (i - 16) then
    (s.setRamState (16 * p + (i - 16)) 0).setShed p fun x => { x with stallWaking := x.stallWaking.filter (· != i - 16) }
  else s

def execSramWakeDone (p : Fin 68) (i : Fin 32) (dt : Nat) (s : State) : Res := fin (sramWakeDone p i (s.elapse dt))

/-- A bank or a stall's memory has been idle (R510). -/
def bankIdle (p i : Nat) (s : State) : State :=
  let n := s.get F.PWR_POLICY_BANK_IDLE
  if !s.bit F.PWR_CTRL || !s.shedRuns p then s
  else if i < 16 then
    let idle := s.beat - Table.at 0 i (s.shed p).bankBeat
    if (s.shed p).waking.contains i then s
    else if !bitOf (s.get (sh F.SHED_BANK_LIVE p)) i && decide (16 * n ≤ idle) && s.bankState p i != 2 then s.bankTo p i 2
    else if n ≤ idle ∧ s.bankState p i = 0 then s.bankTo p i 1
    else s
  else
    let k := 16 * p + (i - 16)
    if n ≤ s.beat - (s.stall k).handBeat ∧ s.ramState k = 0 ∧ (s.stall k).item.isNone then s.ramTo k 1 else s

def execBankIdleExpiry (p : Fin 68) (i : Fin 32) (dt : Nat) (s : State) : Res := fin (bankIdle p i (s.elapse dt))

end Sys2Proof.Machine
end

