-- ==== Sys2Proof/Machine/Repair.lean ====
section
/-! DEFINITION. Memory test, repair, spares and age (chapter 21), and the takeover of a shed by a spare (R169, R207). -/

namespace Sys2Proof.Machine

def State.setMt (s : State) (g : MtestSt → MtestSt) : State := { s with mtest := g s.mtest }

/-! Spares (R169, R207, R610). -/

/-- Shed `p` is a free spare. -/
def State.spareFree (s : State) (p : Nat) : Bool :=
  !s.bit (sh F.SHED_STATUS_RETIRED p) && s.svcPos p == 0x7F && s.pool.takeovers.all fun t => t.2 != p && t.1 != p

/-- The spare for shed `p`: that of its quadrant, else the lowest free one. -/
def State.spareFor (s : State) (p : Nat) : Option Nat :=
  let q := 17 * (p / 17) + 16
  if s.spareFree q && q != p then some q else (List.range 68).find? fun n => n != p && s.spareFree n

/-- MTEST_SPARES counts the free spares. -/
def State.syncSpares (s : State) : State :=
  (s.put F.MTEST_SPARES_SHEDS ((List.range 68).filter s.spareFree).length).put F.MTEST_SPARES_BANKS (s.get F.MYARD_CAP_SPARES_FREE)

/-- The last spare of a kind is used: event 0xF205. -/
def State.sparesOut (s : State) (kind : Nat) : State := (s.flag F.MTEST_STATUS_SPARES_OUT).raise 0xF205 185 kind 0 0 0

/-- A repair record in OTP; false where the area is full (R610). -/
def State.repairRecord (s : State) : State × Bool :=
  let n := s.get F.MTEST_REC
  if n < 2048 then (s.put F.MTEST_REC (n + 1), true) else (s, false)

/-- Units were retired. -/
def State.unitRetired (s : State) : State := (s.bump F.MTEST_CNT_RETIRED).flag F.MTEST_STATUS_RETIRED

/-- A whole shed is to be replaced by a spare. False when none is free. -/
def State.shedReplace (s : State) (p : Nat) : State × Bool :=
  if s.pool.takeovers.any fun t => t.1 == p then (s, true)
  else match s.spareFor p with
    | none => (s, false)
    | some q =>
      let s := (s.setPool fun x => { x with takeovers := x.takeovers ++ [(p, q)] }).syncSpares
      (s.when (s.get F.MTEST_SPARES_SHEDS == 0) fun t => t.sparesOut 2, true)

/-- The whole shed is to be retired, with no spare in its place. -/
def State.shedRetire (s : State) (p : Nat) : State :=
  if s.pool.takeovers.any fun t => t.1 == p then s else s.setPool fun x => { x with takeovers := x.takeovers ++ [(p, 68)] }

/-- A stall fails (R207). A shed without a position is replaced as a whole too; no position goes to the spare, which stays free
(assumption log 153). -/
def State.stallFail (s : State) (k : Nat) : State :=
  let p := k / 16
  if s.svcPos p ≠ 0x7F ∧ (s.shedReplace p).2 then (s.shedReplace p).1
  else if s.svcPos p = 0x7F ∧ (s.spareFor p).isSome ∧ !s.bit (sh F.SHED_STATUS_RETIRED p) then s.shedRetire p
  else if bitOf (s.get (sh F.SHED_STALL_OK p)) (k % 16) then
    let s := s.put (sh F.SHED_STALL_OK p) (clearBit (s.get (sh F.SHED_STALL_OK p)) (k % 16))
    let s := s.when (s.stall k).item.isNone fun t => t.put (stl F.SHED_STALL_STATn_STATE k) 5
    s.unitRetired.raise 0x8006 (shedSource p) (stallParam k) (2 ^ (k % 16)) 0 0
  else s

/-- A bank of shed memory fails beyond its rows: a spare, or the whole shed is to be retired (R207). Its pages cannot be moved any
more (R240). -/
def State.shedFail (s : State) (p : Nat) : State :=
  let s := s.setPool fun x => if x.bankBad.contains p then x else { x with bankBad := p :: x.bankBad }
  let held := (s.groom.flows.filter fun f => f.2.pageValid && f.2.movePending && s.shedAt f.2.pos == some p).map (·.1)
  let s := s.each held fun f t => (t.setFlowRec f fun r => { r with movePending := false }).setGroom fun x =>
    { x with moves := x.moves.filter fun m => m.flow != f }
  match s.shedReplace p with
  | (t, true) => t
  | (_, false) => if s.bit (sh F.SHED_STATUS_RETIRED p) then s else s.shedRetire p

/-- Shed `p` is retired, and spare `q` takes its position, or none when `q` is 68 (R169, R207). -/
def State.takeOver (s : State) (p q : Nat) : State :=
  let pos := s.svcPos p
  let s := (s.shedOff p).setPool fun x => { x with takeovers := x.takeovers.filter fun t => t.1 != p }
  let s := (s.flag (sh F.SHED_STATUS_RETIRED p)).put (fixRst (sh F.SHED_CFG p)) 0x7F
  let s := s.each (List.range 16) fun l t => t.put (stl F.SHED_STALL_STATn_STATE (16 * p + l)) 5
  let s := s.repairRecord.1.setMt fun x => { x with pos := Table.insert p 0x7F x.pos }
  if q = 68 then (s.unitRetired.raise 0x8006 (shedSource p) (shedParam p) 0xFFFF 0 0).syncSpares
  else
    let s := (s.put (fixRst (sh F.SHED_CFG q)) pos).setMt fun x => { x with pos := Table.insert q pos x.pos }
    ((s.shedStart q).bump F.MTEST_CNT_SPARED).syncSpares.raise 0x8007 (shedSource p) (shedParam p) pos 0 q

/-- Pages of flows at a position that are asked to move, and the flows that cannot. -/
def State.vacate (s : State) (pos : Nat) : State × Bool :=
  let l := (s.groom.flows.filter fun f => f.2.pageValid && f.2.pos == pos).map (·.1)
  l.foldl (fun (a : State × Bool) f =>
    if (a.1.flowRec f).movePending then (a.1, true)
    else match a.1.askMove f 0x7F with
      | (t, 0) => (t, true)
      | (t, _) => (t, a.2)) (s, false)

/-- Lowest failing shed first: at most one shed changes at an edge; one whose pages can still be moved waits (R237, R609). -/
def State.takeFirst (s : State) : List (Nat × Nat) → State
  | [] => s
  | (p, q) :: t =>
    match s.vacate (s.svcPos p) with
    | (s, true) => s.takeFirst t
    | (s, false) => s.takeOver p q

def State.repairEdge (s : State) : State :=
  s.takeFirst (sortBy (fun (a b : Nat × Nat) => decide (a.1 ≤ b.1)) s.pool.takeovers)

/-! The test itself (R608 to R610). -/

/-- Rows of a unit in use. -/
def State.rowsUsed (s : State) (u : MemUnit) : Nat :=
  ((s.mtest.rows ++ s.mtest.volatileRows).filter fun x => x.1 == u).map (·.2) |>.sum

def rowAdd (u : MemUnit) (l : List (MemUnit × Nat)) : List (MemUnit × Nat) :=
  match l.find? fun x => x.1 == u with
  | none => l ++ [(u, 1)]
  | some _ => l.map fun x => if x.1 = u then (u, x.2 + 1) else x

/-- The numbers by which 0xF201 and 0xF202 name a memory and a row are not stated: they are free values. -/
def State.raiseMem (s : State) (code : Nat) (p2 : Option Nat) : State :=
  let u := s.freeVal 32
  let s := s.useFree
  match p2 with
  | some o => s.raise code 185 u o 0 0
  | none =>
    let r := s.freeVal 32
    s.useFree.raise code 185 u r 0 0

/-- A unit without spare rows left (R609). -/
def State.unitFail (s : State) (u : MemUnit) : State :=
  match u with
  | .yard b | .yardTag b =>
    let free := s.get F.MYARD_CAP_SPARES_FREE
    if s.yard.taking.any (fun t => t.1 == b) || s.yard.retired.contains b then s
    else if free = 0 then (s.bankRetire b).unitRetired
    else
      let s := (s.put F.MYARD_CAP_SPARES_FREE (free - 1)).setYard fun x => { x with taking := x.taking ++ [(b, 800 - free, true)] }
      let s := (s.repairRecord.1.bump F.MTEST_CNT_SPARED).syncSpares
      s.when (free == 1) fun t => t.sparesOut 1
  | .shedMem p _ | .shedTag p => s.shedFail p
  | .localMem k | .localTag k => s.stallFail k
  | .ym => s.raise 0xF206 185 0 0 0 0

/-- Repair of a defective word (R609, R610). -/
def State.repairWord (s : State) (u : MemUnit) (ofs : Nat) : State :=
  let s := (s.bump F.MTEST_CNT_FOUND).raiseMem 0xF201 (some ofs)
  let s := { s with pair := { s.pair with mtestErr := true } }
  let n := s.rowsUsed u
  if 8 ≤ n then s.unitFail u
  else
    let s := match s.repairRecord with
      | (t, true) => t.setMt fun x => { x with rows := rowAdd u x.rows }
      | (t, false) =>
        ((t.flag F.MTEST_STATUS_REC_FULL).raise 0xF203 185 0 0 0 0).setMt fun x => { x with volatileRows := rowAdd u x.volatileRows }
    let s := (s.bump F.MTEST_CNT_ROWREP).raiseMem 0xF202 none
    s.when (n == 7) fun t => t.sparesOut 0

/-- One test step of a 256-byte region: `fault` is the word at which it found one, `last` whether it ends the pass. A step
changes no content (R608). Words found defective otherwise are repaired with it. Shed memory is left alone between the run
deadline and the cut-off. -/
def mtestStep (u : MemUnit) (fault : Option Nat) (last : Bool) (dt : Nat) (s : State) : State :=
  let s := s.elapse dt
  let shed := match u with
    | .shedMem _ _ => true
    | _ => false
  if !s.bit F.MTEST_CTRL || (shed && s.bt.deadline && s.bt.decision.isNone) then s
  else
    let s := match fault with
      | some o => s.defective u o
      | none => s
    let l := s.mtest.found
    let s := (s.setMt fun x => { x with found := [] }).each l fun w t => t.repairWord w.1 w.2
    if last then
      (s.put F.MTEST_PASS ((s.clk - s.mtest.passAt) / 1000000000)).setMt fun x => { x with passAt := s.clk, ce := [] }
    else s

def execMtestStep (u : MemUnit) (fault : Option Nat) (last : Bool) (dt : Nat) (s : State) : Res := fin (mtestStep u fault last dt s)

/-- A write of MTEST_CTRL.EN (R613). -/
def mtestCtrlWrite (d : Nat) (s : State) : State :=
  if !bitOf d 0 then (s.put F.MTEST_CTRL 0).put F.MTEST_STATUS_RUNNING 0
  else if s.bit F.MTEST_CTRL then s
  else if s.get F.MTEST_CFG_AGE_LOG_H = 0 ∨ s.get F.MTEST_CFG_CE_LIMIT = 0 ∨ s.get F.MTEST_CFG_PASS_M = 0 then
    s.flag F.MTEST_STATUS_CFG_ERR
  else
    (((s.flag F.MTEST_CTRL).flag F.MTEST_STATUS_RUNNING).put F.MTEST_STATUS_CFG_ERR 0).setMt fun x =>
      { x with passAt := s.clk, ce := [] }

def execMtestEnable (m : Master) (d : Nat) (s : State) : Res := fin (s.regWrite m 0x1100000 (mtestCtrlWrite d))

/-! Age (R606, R607). -/

/-- exp(a / b) in units of 2^-96 for naturals, by the first 80 terms of the series. -/
def expFixed (a b : Nat) : Nat :=
  ((List.range 80).foldl (fun (x : Nat × Nat) i => (x.1 + x.2, x.2 * a / (b * (i + 1)))) (0, 2 ^ 96)).1

/-- The advance of an hour at a mean temperature of `n / (4 d)` °C, in units of 1/256 h, rounded down. With
T = 273.15 + n / (4 d), 1/378.15 − 1/T = (T − 378.15) / (378.15 T). -/
def ageAdvance (n : Int) (d : Nat) : Nat :=
  let t : Int := 109260 * d + 100 * n            -- T in units of 1/(400 d) K
  let diff : Int := t - 151260 * d               -- T − 378.15 K in the same units
  let num := 81235 * diff.natAbs * 10            -- x = 8123.5 · diff / (378.15 · t)
  let den := 37815 * t.toNat
  if 0 ≤ diff then 256 * expFixed num den / 2 ^ 96
  else 256 * 2 ^ 96 / expFixed num den

/-- An hour has passed (R606). An hour without a reading takes the present one. -/
def ageTick (dt : Nat) (s : State) : State :=
  let s := s.elapse dt
  if s.clk < s.mtest.hourAt + 3600000000000 then s
  else
    let adv := if s.pwr.tempCnt = 0 then ageAdvance (toSigned 16 (s.get F.PWR_TEMP_TJ)) 1 else ageAdvance s.pwr.tempSum s.pwr.tempCnt
    let acc := s.mtest.ageAcc + adv
    let s := ((s.bump F.IDENT_POH_H).addTo F.IDENT_AGE_H (acc / 256)).setMt fun x => { x with ageAcc := acc % 256, hourAt := s.clk }
    s.setPwr fun x => { x with tempSum := 0, tempCnt := 0 }

def execAgeTick (dt : Nat) (s : State) : Res := fin (ageTick dt s)

/-- An age record (R607). -/
def State.ageRecord (s : State) : State :=
  s.raise 0xF208 185 (s.get F.IDENT_POH_H) (s.get F.IDENT_AGE_H) (s.get F.IDENT_ERASE_IMG) (s.get F.IDENT_ERASE_LDG)

def ageLog (dt : Nat) (s : State) : State :=
  let s := s.elapse dt
  if s.clk < s.mtest.logAt + s.get F.MTEST_CFG_AGE_LOG_H * 3600000000000 then s
  else s.ageRecord.setMt fun x => { x with logAt := s.clk }

def execAgeLogExpiry (dt : Nat) (s : State) : Res := fin (ageLog dt s)

end Sys2Proof.Machine
end

