-- ==== Sys2Proof/Machine/GroomCmd.lean ====
section
/-! DEFINITION. The Groom's register commands (R245, R247): enable, item table and flow record access, statistics and
borrow log reads. -/

namespace Sys2Proof.Machine

/-- Every valid descriptor is one that R212 admits, and MIN_Q is in range (R245). -/
def State.groomOk (s : State) : Bool :=
  (s.groom.items.all fun e => !dValid e.2 || s.descRefusal false (decide (32768 ≤ e.1)) e.2 == 0)
    && decide (1 ≤ s.get F.GROOM_FCAST_CFG_MIN_Q ∧ s.get F.GROOM_FCAST_CFG_MIN_Q ≤ 4)

/-- The Groom is enabled: epochs are zero and pages allocated in ascending flow number (R218, R245). Writes to runtime entries and
results that wait for the edge stay (R210, R212). -/
def State.groomStart (s : State) : State :=
  let s := (((s.freshLimits (rateBlock 7)).flag F.GROOM_CTRL).flag F.GROOM_STATUS_RUNNING).put F.GROOM_STATUS_CFG_ERR 0
  let s := s.setGroom fun x => { x with
    ready := [], plan := [], tripOver := false, slackLeft := 0, stats := [], moves := [], lost := [], charged := [],
    chargedNow := 0, idleBeats := [0, 0, 0, 0], planAvail := [], lastSvc := s.nSvc
    flows := (x.flows.map fun f => (f.1, { FlowRec.empty with len := f.2.len, home := f.2.home })).filter fun f =>
      f.2 != FlowRec.empty }
  (s.each ((s.groom.flows.filter fun f => f.2.len != 0).map (·.1)) fun f t => t.allocPage f).syncLive

/-- A write of GROOM_CTRL.EN. Disabled, the Groom drops its ready items without results (assumption log 66); what its plan was
short of is counted for the beat under way (R235). -/
def groomCtrlWrite (d : Nat) (s : State) : State :=
  if !bitOf d 0 then
    let s := s.when (s.bit F.GROOM_CTRL && s.bt.running && s.runsItems) State.tripShort
    ((s.put F.GROOM_CTRL 0).put F.GROOM_STATUS_RUNNING 0).setGroom fun x => { x with ready := [], plan := [], tripOver := false }
  else if s.bit F.GROOM_CTRL then s
  else if s.groomOk then s.groomStart
  else s.flag F.GROOM_STATUS_CFG_ERR

def execGroomEnable (m : Master) (d : Nat) (s : State) : Res := fin (s.regWrite m 0x700000 (groomCtrlWrite d))

/-! The item table. -/

def iaccIn (g : State → State) (t : State) : State := g ((t.put F.GROOM_IACC_CMD_ERR 0).put F.GROOM_IACC_CMD_CODE 0)
def iaccCmd (m : Master) (g : State → State) (s : State) : State := s.regWrite m 0x700034 (iaccIn g)
def iaccErr (e c : Nat) (s : State) : State :=
  ((s.put F.GROOM_IACC_CMD_ERR e).put F.GROOM_IACC_CMD_CODE c).flag F.GROOM_STATUS_ACC_ERR

/-- Entry `n` of the item table as 64 bytes. -/
def State.itemEntry (s : State) (n : Nat) : List Byte :=
  let e := Table.at [] n s.groom.items
  e ++ List.replicate (64 - e.length) 0

def iaccReadOp (t : State) : State := t.putBytes F.GROOM_IACC_DATAn 16 (t.itemEntry (t.get F.GROOM_IACC_IDX))
def execGroomIaccRead (m : Master) (s : State) : Res := fin (iaccCmd m iaccReadOp s)

/-- WRITE, of a platform entry while EN = 0. A runtime entry is written only by its slice (R210; assumption log 67). -/
def iaccWrite (s : State) : State :=
  let n := s.get F.GROOM_IACC_IDX
  let d := s.getBytes F.GROOM_IACC_DATAn 16
  if s.bit F.GROOM_CTRL ∨ 32768 ≤ n then iaccErr 1 0 s
  else
    let c := if dValid d then s.descRefusal false false d else 0
    if c ≠ 0 then (iaccErr 2 c s).bump F.GROOM_CNT_REFUSED
    else s.setGroom fun x => { x with items := Table.put [] n d x.items }

def execGroomIaccWrite (m : Master) (s : State) : Res := fin (iaccCmd m iaccWrite s)

/-- INVALIDATE clears VALID. -/
def iaccInvalidate (s : State) : State :=
  let n := s.get F.GROOM_IACC_IDX
  if s.bit F.GROOM_CTRL ∨ 32768 ≤ n then iaccErr 1 0 s
  else
    let e := Table.at [] n s.groom.items
    if e.isEmpty then s
    else s.setGroom fun x => { x with items := Table.put [] n (setLe e 0 1 (clearBit (itFlags e) 0)) x.items }

def execGroomIaccInvalidate (m : Master) (s : State) : Res := fin (iaccCmd m iaccInvalidate s)

/-! Flow records. -/

def faccCmd7In (g : State → State) (t : State) : State := g (t.put F.GROOM_FACC_CMD_ERR 0)
def faccCmd7 (m : Master) (g : State → State) (s : State) : State := s.regWrite m 0x700084 (faccCmd7In g)
def faccErr7 (e : Nat) (s : State) : State := (s.put F.GROOM_FACC_CMD_ERR e).flag F.GROOM_STATUS_ACC_ERR

def groomFaccReadOp (t : State) : State := t.putBytes F.GROOM_FACC_DATAn 4 (t.flowRec (t.get F.GROOM_FACC_IDX)).bytes
def execGroomFaccRead (m : Master) (s : State) : Res := fin (faccCmd7 m groomFaccReadOp s)

/-- WRITE of STATE_LEN and HOME while EN = 0; the other fields are the hardware's (R217). -/
def groomFaccWrite (s : State) : State :=
  let b := s.getBytes F.GROOM_FACC_DATAn 4
  let len := leAt b 4 2
  let home := leAt b 6 1
  if s.bit F.GROOM_CTRL ∨ 1024 < len ∨ (64 ≤ home ∧ home ≠ 0x7F) ∨ leAt b 9 1 ≠ 0 then faccErr7 3 s
  else s.setFlowRec (s.get F.GROOM_FACC_IDX) fun r => { r with len := len, home := home }

def execGroomFaccWrite (m : Master) (s : State) : Res := fin (faccCmd7 m groomFaccWrite s)

/-- MOVE to a position, 0x7F for any (R236). -/
def groomMove (dest : Nat) (s : State) : State :=
  let s := s.put F.GROOM_FACC_CMD_DEST dest
  match s.askMove (s.get F.GROOM_FACC_IDX) (s.get F.GROOM_FACC_CMD_DEST) with
  | (t, 0) => t
  | (t, e) => faccErr7 e t

def execMove (m : Master) (dest : Fin 128) (s : State) : Res := fin (faccCmd7 m (groomMove dest) s)

/-! Statistics and the borrow log. -/

/-- A write of GROOM_SSTAT_IDX. -/
def sstatLatch (n : Nat) (s : State) : State :=
  let l := Table.at (List.replicate 16 0) n s.groom.stats
  (s.put F.GROOM_SSTAT_IDX n).each (List.range 16) fun i t => t.put (F.GROOM_SSTAT_DATAn.idx i) (l.getD i 0)

def execSstatLatch (m : Master) (n : Fin 256) (s : State) : Res := fin (s.regWrite m 0x7000A0 (sstatLatch n))

/-- A write of GROOM_BLOG_IDX. -/
def blogLatch (n : Nat) (s : State) : State :=
  (s.put F.GROOM_BLOG_IDX n).putBytes F.GROOM_BLOG_DATAn 4 (Table.at (leBytes 16 0) n s.groom.blog)

def execBlogLatch (m : Master) (n : Fin 8192) (s : State) : Res := fin (s.regWrite m 0x700108 (blogLatch n))

end Sys2Proof.Machine
end

