-- ==== Sys2Proof/Machine/Seal.lean ====
section
/-! DEFINITION. Seal and emission (chapter 8): numbering and building of frames (R261 to R268), GOOSE repetition (R269 to
R271), egress queues (R272 to R274), reports (R275), release and discard, and the SEAL block's commands (R276, R277). -/

namespace Sys2Proof.Machine

/-! Frames as bytes. -/

/-- The ASN.1 encodings of IEC 61850-8-1 and 61850-9-2 (assumption log 71): a BER length, a TLV, and the content of an
unsigned INTEGER. -/
def berLen (n : Nat) : List Byte :=
  if n < 128 then beBytes 1 n else if n < 256 then 0x81#8 :: beBytes 1 n else 0x82#8 :: beBytes 2 n
def tlv (tag : Nat) (c : List Byte) : List Byte := beBytes 1 tag ++ berLen c.length ++ c
/-- `n` bytes with leading zeros removed while the sign stays positive. -/
def trimInt : List Byte → List Byte
  | a :: b :: t => if a = 0 ∧ b.toNat < 128 then trimInt (b :: t) else a :: b :: t
  | l => l
def berInt (n : Nat) : List Byte := trimInt (beBytes 9 n)

/-- The UtcTime of R264: quality FREE is code 3. -/
def utcTime (ns tq : Nat) : List Byte :=
  beBytes 4 (ns / 1000000000 % 2 ^ 32) ++ beBytes 3 (ns % 1000000000 * 2 ^ 24 / 1000000000) ++ beBytes 1 (if tq = 3 then 0xBF else 0x94)

/-- Bytes of the link header of a template: 18 with an IEEE 802.1Q tag. -/
def linkLen (tpl : List Byte) : Nat := if beAt tpl 12 2 = 0x8100 then 18 else 14

/-- One BER TLV at the head of bytes: its length in all; none where it does not fit. -/
def tlvSize (bs : List Byte) : Option Nat :=
  let l := beAt bs 1 1
  let n := if l < 128 then 2 + l else if l = 0x81 then 3 + beAt bs 2 1 else if l = 0x82 then 4 + beAt bs 2 2 else bs.length + 1
  if 2 ≤ bs.length ∧ n ≤ bs.length then some n else none

/-- The first `k` TLVs of bytes, if they are there. -/
def tlvs : Nat → List Byte → Option (List (List Byte))
  | 0, _ => some []
  | k + 1, bs =>
    match tlvSize bs with
    | none => none
    | some n => (tlvs k (bs.drop n)).map fun l => bs.take n :: l

/-- The template of a publication. -/
def State.tplOf (s : State) (e : List Byte) : List Byte := Memory.bytes 0 s.sealSt.tpl (puTplOfs e) (puTplLen e)

/-- The head of bytes is TLVs with the given tags, in order. -/
def tlvTags (tags : List Nat) (bs : List Byte) : Bool := (tlvs tags.length bs).map (·.map fun p => beAt p 0 1) == some tags

/-- The template has the parts that R254 names: the link header, then the TLVs of gocbRef, datSet and goID, or of svID, under their
tags in IEC 61850-8-1 and 61850-9-2 (assumption log 71). -/
def tplOk (kind : Nat) (t : List Byte) : Bool :=
  decide (linkLen t ≤ t.length)
    && (match kind with
        | 1 => tlvTags [0x80, 0x82, 0x83] (t.drop (linkLen t))
        | 2 => tlvTags [0x80] (t.drop (linkLen t))
        | 3 =>
          let et := beAt t (linkLen t - 2) 2
          if et = 0x0800 then decide (linkLen t + 28 ≤ t.length)
          else if et = 0x86DD then decide (linkLen t + 48 ≤ t.length)
          else true
        | _ => true)

/-- The goosePdu of R264. -/
def goosePdu (e tpl b : List Byte) (f : SFrame) : List Byte :=
  let parts := (tlvs 3 (tpl.drop (linkLen tpl))).getD []
  tlv 0x61 (parts.getD 0 [] ++ tlv 0x81 (berInt f.ttl) ++ parts.getD 1 [] ++ parts.getD 2 [] ++ tlv 0x84 (utcTime f.t f.tq)
    ++ tlv 0x85 (berInt f.seqA) ++ tlv 0x86 (berInt f.seqB) ++ tlv 0x87 (beBytes 1 (if orTest b then 0xFF else 0))
    ++ tlv 0x88 (berInt (puConfRev e)) ++ tlv 0x89 [0] ++ tlv 0x8A (berInt (puNdsEnt e)) ++ tlv 0xAB (orBody b))

/-- Values and qualities of ASDU `i` in network order. -/
def svData (e b : List Byte) (i : Nat) : List Byte :=
  swapWords 4 (((orBody b).drop (i * puChannels e * 8)).take (puChannels e * 8))

/-- The savPdu of R265. -/
def savPdu (e tpl b : List Byte) (f : SFrame) : List Byte :=
  let n := orArg b 2 1
  let id := (((tlvs 1 (tpl.drop (linkLen tpl))).getD []).getD 0 [])
  let asdu := fun i => tlv 0x30 (id ++ tlv 0x82 (beBytes 2 ((f.seqA + i) % puRate e)) ++ tlv 0x83 (beBytes 4 (puConfRev e))
    ++ tlv 0x85 (beBytes 1 (if f.tq = 3 then 1 else 2)) ++ tlv 0x87 (svData e b i))
  tlv 0x60 (tlv 0x80 (beBytes 1 n) ++ tlv 0xA2 ((List.range n).flatMap asdu))

/-- Bytes of the samples of an HRS record. -/
def hrsPay (e b : List Byte) : Nat := leAt b 20 2 * puChannels e * hrsSize (puFormat e)

/-- The HRS header and payload of R266. -/
def hrsBody (e b : List Byte) (f : SFrame) : List Byte :=
  beBytes 1 1 ++ beBytes 1 (b2n (f.tq != 3) + 2 * b2n (orTest b)) ++ beBytes 2 48 ++ beBytes 4 (puStream e)
    ++ beBytes 4 f.seqB ++ beBytes 4 f.seqA ++ beBytes 6 (orArg b 0 6) ++ beBytes 2 0 ++ beBytes 4 (leAt b 16 4)
    ++ beBytes 4 (puRate e) ++ beBytes 1 (puChannels e) ++ beBytes 1 (puFormat e) ++ beBytes 2 (leAt b 20 2)
    ++ beBytes 2 (hrsPay e b) ++ beBytes 1 (orArg b 6 1) ++ beBytes 9 0
    ++ swapWords (hrsSize (puFormat e)) (((orBody b).drop 8).take (hrsPay e b))

/-- A yard header (R318). -/
def State.yardHeader (s : State) (typ stream seq window dest chunk len flags tq yflow epoch : Nat) : List Byte :=
  beBytes 1 1 ++ beBytes 1 typ ++ beBytes 2 48 ++ beBytes 4 stream ++ beBytes 8 seq ++ beBytes 8 window
    ++ beBytes 2 (s.get F.TUDEL_ORIGIN) ++ beBytes 2 (s.get F.TUDEL_CFG_DEVICE_ID) ++ beBytes 2 dest ++ beBytes 2 chunk
    ++ beBytes 4 s.rate ++ beBytes 2 len ++ beBytes 1 flags ++ beBytes 1 tq ++ beBytes 4 yflow ++ beBytes 4 epoch

/-- The RESULT frame of a YARD record (R330); `rep` of the frame holds the producing flow's epoch. -/
def State.yardBody (s : State) (e b : List Byte) (f : SFrame) : List Byte :=
  s.yardHeader 2 (puStream e) (f.seqA + 2 ^ 32 * f.seqB) f.beat (orArg b 6 2) (orArg b 4 2) (orBody b).length
    (b2n (orTest b) + 8 * b2n (orAnyDest b)) f.tq (orArg b 0 4) f.rep ++ orBody b

/-- The tag trailer of R85 but for the tag. -/
def trailer (keyId alg tagLen time : Nat) (iv : List Byte) : List Byte :=
  beBytes 4 keyId ++ beBytes 1 alg ++ beBytes 1 tagLen ++ beBytes 2 0 ++ beBytes 6 (time / 1000000000)
    ++ beBytes 4 (time % 1000000000) ++ beBytes 2 0 ++ (iv ++ List.replicate (12 - iv.length) 0)

/-! Egress: the end of a transmission (R273). -/

/-- A frame finishes transmission (R273): it is reported, a PTP event message's transmit time goes to the yardmaster (R57),
and the next starts. `ym` are the frames that yardmaster firmware has handed to the port meanwhile, each with whether it is a
PTP message: they enter queues 6 and 1 (R272; assumption log 133). -/
def frameTxDone (n : Nat) (ym : List (Bool × List Byte)) (dt : Nat) (s : State) : State :=
  let s := s.elapse dt
  let done := (s.port n).tx
  let s := s.each ym fun f t => t.toPort n ⟨if f.1 then 6 else 1, none, f.2⟩
  match done with
  | none => s
  | some (f, t) =>
    let s := (s.emit (.frameTx n f.bytes)).when (ptpEvent f) fun u => u.emit (.txStamp n t f.bytes)
    let s := (s.bump (pt F.PORT_CNT_TX_FRAMES n)).addTo (pt F.PORT_CNT_TX_BYTES n) (wireOf f)
    let s := s.reportFrame 0 f.info (match f.info with
      | some i => if i.ts then some t else none
      | none => none)
    (s.setPort n fun x => { x with tx := none }).startTx n

def execFrameTxDone (n : Fin 96) (dt : Nat) (s : State) (ym : List (Bool × List Byte) := []) : Res :=
  fin (frameTxDone n ym dt s)

/-! From a built frame to its ports. -/

/-- The Internet checksum that completes a sum. -/
def ocCheck (sum : Nat) : Nat := 0xFFFF - ocFold (ocFold sum)

/-- IPv4 or IPv6 with UDP headers before a payload: lengths and checksums filled (R254). -/
def fillUdp (et : Nat) (hdr pay : List Byte) : List Byte :=
  let n := pay.length + 8
  let o := if et = 0x0800 then 20 else 40
  let udp := setAt (setAt ((hdr.drop o).take 8) 4 (beBytes 2 n)) 6 [0, 0]
  let pseudo := if et = 0x0800 then ocSum ((hdr.drop 12).take 8) else ocSum ((hdr.drop 8).take 32)
  let ck := ocCheck (pseudo + 17 + n + ocSum (udp ++ pay))
  let udp := setAt udp 6 (beBytes 2 (if ck = 0 then 0xFFFF else ck))
  let ip := if et = 0x0800 then
      let h := setAt (setAt (hdr.take 20) 2 (beBytes 2 (n + 20))) 10 [0, 0]
      setAt h 10 (beBytes 2 (ocCheck (ocSum h)))
    else setAt (hdr.take 40) 4 (beBytes 2 n)
  ip ++ udp ++ pay

/-- The link header with the port's own source address (R254), and what follows it for the built bytes of a frame. -/
def State.linkOf (s : State) (e : List Byte) (n : Nat) : List Byte :=
  let t := s.tplOf e
  setAt (t.take (linkLen t)) 6 (beBytes 6 (s.get (pt F.PORT_MAC n)))
def State.payOf (s : State) (e built : List Byte) : List Byte :=
  let t := s.tplOf e
  let et := beAt t (linkLen t - 2) 2
  if puKind e = 3 ∧ (et = 0x0800 ∨ et = 0x86DD) then fillUdp et (t.drop (linkLen t)) built else built

/-- A redundancy tag on a frame (R61; assumption log 50): mode 1 appends an RCT, mode 2 inserts an HSR tag. -/
def redTag (mode seq lan : Nat) (link pay : List Byte) : List Byte :=
  let n := pay.length + 6
  if mode = 1 then link ++ pay ++ beBytes 2 seq ++ beBytes 2 ((0xA + lan) * 4096 + n % 4096) ++ beBytes 2 0x88FB
  else
    let o := link.length - 2
    link.take o ++ beBytes 2 0x892F ++ beBytes 2 (lan * 4096 + n % 4096) ++ beBytes 2 seq ++ link.drop o ++ pay

/-- What a report says of a frame (R275). -/
def State.infoOf (s : State) (f : SFrame) (lanB : Bool) : Option EmitInfo :=
  let e := s.pub f.pub
  if !f.report then none
  else some ⟨puSlice e, puKind e, f.pub, if puKind e = 1 then f.seqB else f.seqA, f.beat, f.iv, puKey e,
    puKind e == 1 && f.rep != 0, lanB, f.ts⟩

/-- A built frame leaves for its ports or its Tudel link (R272, R335, R336). A publication whose EGRESS names a pair that is off
(MODE 0, or PORT_GLB_CTRL.EN = 0) still sends on both its ports with a tag, an HSR tag for MODE 0 (DESIGN CHOICE, assumption
log 144). -/
def State.sendFrame (s : State) (f : SFrame) : State :=
  let e := s.pub f.pub
  let eg := puEgress e
  let s := (s.bump F.SEAL_CNT_SENT).when (f.cls == 8 && f.rep != 65536) fun t => t.bump F.TUDEL_CNT_FWD_FRAMES
  if puKind e = 6 && bitOf eg 14 then
    if s.get (F.TUDEL_LINKj_STATUS_LSTATE.idx (eg % 8)) = 3 then
      (s.emit (.tudelTx (eg % 8) 2 f.frame)).reportFrame 0 (s.infoOf { f with ts := false } false) none
    else (s.bump F.TUDEL_CNT_TX_DOWN).reportFrame 2 (s.infoOf f false) none
  else
    let pay := s.payOf e f.frame
    if bitOf eg 15 then
      let m := eg % 128
      let q := (s.red m).txSeq
      let mode := s.redMode m
      let s := s.setRed m fun x => { x with txSeq := (x.txSeq + 1) % 2 ^ 16 }
      let side := fun (n lan : Nat) (t : State) =>
        t.toPort n ⟨clsQueue f.cls, t.infoOf f (lan == 1), redTag mode q lan (t.linkOf e n) pay⟩
      side (s.redB m) 1 (side (s.redA m) 0 s)
    else s.toPort (eg % 128) ⟨clsQueue f.cls, s.infoOf f false, s.linkOf e (eg % 128) ++ pay⟩

/-! Building (R261 to R268). -/

/-- The key of a publication may serve a frame (R263): usable under R91 for egress, and of the entry's algorithm
(assumption log 73). -/
def State.egressKeyOk (s : State) (e : List Byte) : Bool :=
  let k := s.keyE (puKey e)
  k.st == 1 && bitOf k.usage 3 && k.alg == puAlg e
    && (!timeValid s.tq || (decide (k.notBefore ≤ s.nowNs / 1000000000)
      && (k.notAfter == 0 || decide (s.nowNs / 1000000000 < k.notAfter))))

/-- The span of an IEC 61850 frame of layer 2 (R84, R264, R265): from the APPID, with every byte of the APDU, through the security
extension. -/
def iecSpan (appid : Nat) (sim : Bool) (apdu ext : List Byte) : List Byte :=
  beBytes 2 appid ++ beBytes 6 (Config.iecWords sim apdu.length ext.length).toNat ++ apdu ++ ext

/-- The span and its tag, or none when an IEC span is too long (R264, R265). -/
def State.formed (s : State) (f : SFrame) (iv : List Byte) : Option (List Byte) :=
  let e := s.pub f.pub
  let k := s.keyE (puKey e)
  let tpl := s.tplOf e
  let tag := fun span => span ++ Config.checkValue (puAlg e) k.material iv span
  let plain := fun body => some (tag (body ++ trailer k.keyId (puAlg e) (tagLenOf (puAlg e)) s.nowNs iv))
  if f.cls = 8 then plain f.bytes
  else if puKind e = 3 then plain (hrsBody e f.bytes f)
  else if puKind e = 6 then plain (s.yardBody e f.bytes f)
  else
    let apdu := if puKind e = 1 then goosePdu e tpl f.bytes f else savPdu e tpl f.bytes f
    let ext := Config.iecExt k.keyId (puAlg e) s.nowNs iv
    let span := iecSpan (puAppid e) (orTest f.bytes) apdu ext
    if 1518 < span.length then none else some (tag span)

/-- Build a frame: its state becomes 1, 3 (KEY_FAIL) or 6 (LEN). -/
def State.build (s : State) (f : SFrame) : State × SFrame :=
  let e := s.pub f.pub
  if !s.egressKeyOk e then
    let s := (s.bump F.SEAL_CNT_KEYFAIL).flag F.SEAL_STATUS_KEYFAIL
    (s.limited 0x9004 f.pub 1 fun k t => t.raise 0x9004 177 f.pub (puKey e) k 0, { f with st := 3 })
  else
    let iv := if algGmac (puAlg e) then beBytes 4 (s.get F.SEAL_IV_FIXED) ++ beBytes 8 (s.keyE (puKey e)).count else []
    match s.formed f iv with
    | none => (s.bump F.SEAL_CNT_REFUSED, { f with st := 6 })
    | some bs => (s.keyUse (puKey e), { f with st := 1, iv := iv, frame := bs })

/-- The report status of a frame that was not sent: KEY_FAIL, LEN, or `dflt`. -/
def SFrame.fate (f : SFrame) (dflt : Nat) : Nat := if f.st = 3 then 3 else if f.st = 6 then 6 else dflt

/-- The next frame to build: of the highest queue, first in order. -/
def State.nextBuild (s : State) : Option Nat :=
  let l := s.sealSt.frames
  let top := ((l.filter fun f => f.st == 0).map fun f => clsQueue f.cls + 1).foldl max 0
  l.findIdx? fun f => f.st == 0 && clsQueue f.cls + 1 == top

/-- The engine finishes a frame (R268): it leaves at once when released. -/
def frameBuildDone (dt : Nat) (s : State) : State :=
  let s := s.elapse dt
  if !s.bit F.SEAL_CTRL then s
  else match s.nextBuild with
    | none => s
    | some i =>
      match s.sealSt.frames[i]? with
      | none => s
      | some f =>
        let (s, f) := s.build f
        if f.released then
          let s := s.setSeal fun x => { x with frames := x.frames.eraseIdx i }
          if f.st = 1 then s.sendFrame f else s.reportFrame (f.fate 1) (s.infoOf f false) none
        else s.setSeal fun x => { x with frames := x.frames.set i f }

def execFrameBuildDone (dt : Nat) (s : State) : Res := fin (frameBuildDone dt s)

/-! Repetition (R269 to R271), in µs. -/

def State.curveHb (s : State) (c : Nat) : Nat := s.get (F.SEAL_CURVEc_B.idx c) * 1000
def State.curveFirst (s : State) (c : Nat) : Nat := min (s.get (F.SEAL_CURVEc_A_FIRST.idx c)) (s.curveHb c)
def State.curveNext (s : State) (c i : Nat) : Nat := min (i * s.get (F.SEAL_CURVEc_A_MULT.idx c)) (s.curveHb c)
/-- timeAllowedtoLive before an interval, in ms. -/
def ttlOf (us : Nat) : Nat := ceilDiv (2 * us) 1000
/-- A counter that wraps from 0xFFFF_FFFF to 1 (R269). -/
def seqNext (n : Nat) : Nat := if n = 0xFFFFFFFF then 1 else n + 1

/-- Publication `p` changed its hardware fields since the last delta (R255). -/
def State.pubChanged (s : State) (p : Nat) : State :=
  if s.sealSt.changed.contains p then s else s.setSeal fun x => { x with changed := x.changed ++ [p] }
def State.setPub (s : State) (p : Nat) (g : List Byte → List Byte) : State :=
  s.setSeal fun x => { x with pubs := Table.put [] p (g (Table.at [] p x.pubs)) x.pubs }

/-- Repetition of publication `p` enters its queue (R270). One whose key is refused raises no sqNum (assumption log 74). -/
def State.repeatPub (p : Nat) (s : State) : State :=
  match Table.find p s.sealSt.reps with
  | none => s
  | some r =>
    if s.clk < r.due ∨ !s.bit F.SEAL_CTRL then s
    else
      let e := s.pub p
      let c := puCurve e
      let sq := seqNext (puSeqB e)
      let f := { r.frame with rep := r.k, seqB := sq, ttl := ttlOf (r.interval / 1000), st := 0, released := true }
      let (s, f) := s.build f
      let next := s.curveNext c (r.interval / 1000) * 1000
      let s := s.setSeal fun x => { x with reps := Table.insert p ⟨r.frame, r.due + r.interval, r.k + 1, next⟩ x.reps }
      if f.st = 1 then
        let s := (s.setPub p fun e => setLe (setLe e 36 4 sq) 48 8 s.beat).pubChanged p
        (s.sendFrame f).bump F.SEAL_CNT_REPEAT
      else s.reportFrame (f.fate 1) (s.infoOf f false) none

/-- The cycle of the next edge has come, and the edge has still to be taken. -/
def State.edgeHere (s : State) : Bool :=
  s.bit F.BEAT_CTRL_EN && !s.lifeSt.refclkLost && s.reached (edgeNs s.rate s.bt.next)

/-- The repetitions that wait for an edge enter their queues. -/
def State.repeatWaiting (s : State) : State :=
  (s.setSeal fun x => { x with repWait := [] }).each s.sealSt.repWait fun p t => t.repeatPub p

/-- Repetition of publication `p` falls due (R270). One that does so in the cycle of the next edge, or after it, goes behind the
frames released there, or falls away where one of them restarts its curve (R269, R273). -/
def gooseRepetition (p dt : Nat) (s : State) : State :=
  let s := s.elapse dt
  let behind := fun (r : Repeat) => decide (r.due ≤ s.clk ∧ s.clk - r.due ≤ s.nowNs - edgeNs s.rate s.bt.next)
  if !s.edgeHere then s.repeatWaiting.repeatPub p
  else if (Table.find p s.sealSt.reps).any behind then s.setSeal fun x => { x with repWait := x.repWait ++ [p] }
  else s.repeatPub p

def execGooseRepetition (p : Fin 8192) (dt : Nat) (s : State) : Res := fin (gooseRepetition p dt s)

/-- A new state of publication `p` starts its curve at its release (R269, R270). -/
def State.startCurve (s : State) (f : SFrame) : State :=
  let c := puCurve (s.pub f.pub)
  let i1 := s.curveFirst c * 1000
  s.setSeal fun x => { x with reps := Table.insert f.pub ⟨f, s.clk + i1, 1, s.curveNext c (s.curveFirst c) * 1000⟩ x.reps }

/-- A publication entry as READ returns it: NEXT_US is what is left until the next repetition. -/
def State.pubBytes (s : State) (p : Nat) : List Byte :=
  let e := s.pub p
  let e := e ++ List.replicate (64 - e.length) 0
  match Table.find p s.sealSt.reps with
  | none => setLe e 44 4 0
  | some r => setLe e 44 4 ((r.due - s.clk) / 1000)

/-! Numbering and the close of a beat (R258, R261). -/

/-- A publication with the numbers it has provisionally in the sealed beat. -/
def State.provPub (s : State) (p : Nat) : List Byte := (Table.find p s.sealSt.prov).getD (s.pub p)

/-- A record of run beat `b` becomes a frame with provisional numbers. -/
def State.number (s : State) (b : Nat) (r : OutRec) : State :=
  let p := orPub r.bytes
  let e := s.provPub p
  let kind := puKind e
  let rep := orReport r.bytes || orTs r.bytes || puReportAll e || puTsAll e
  let ts := orTs r.bytes || puTsAll e
  let base : SFrame := ⟨p, r.cls, b, 0, r.bytes, puSeqA e, puSeqB e, edgeNs s.rate (b + 1), s.tq, 0, rep, ts, 0, [], [], false⟩
  let keep := fun (f : SFrame) (e' : List Byte) => s.setSeal fun x => { x with
    frames := x.frames ++ [f], prov := Table.insert p (setLe e' 48 8 (b + 1)) x.prov }
  if kind = 1 then
    let crc := crc32c (orBody r.bytes)
    if crc = puDcrc e ∧ !orForce r.bytes then s
    else
      let st := seqNext (puSeqA e)
      keep { base with seqA := st, seqB := 0, ttl := ttlOf (s.curveFirst (puCurve e)) }
        (setLe (setLe (setLe e 32 4 st) 36 4 0) 40 4 crc)
  else if kind = 2 then
    let n := orArg r.bytes 0 2
    keep { base with seqA := n } (setLe e 32 4 ((n + orArg r.bytes 2 1) % puRate e))
  else
    let q := puSeqA e + 2 ^ 32 * puSeqB e + 1
    keep { base with rep := if kind = 6 then r.epoch else 0 } (setLe (setLe e 32 4 (q % 2 ^ 32)) 36 4 (q / 2 ^ 32))

/-- Insert by egress queue, highest first, then publication (R261). -/
def recInsert (r : OutRec) : List OutRec → List OutRec
  | [] => [r]
  | x :: t =>
    if r.cls < x.cls ∨ (r.cls = x.cls ∧ orPub r.bytes < orPub x.bytes) then r :: x :: t else x :: recInsert r t

/-- The store of run beat `b` closes: FREEZE requests are applied (R148), frames numbered, HOST records kept. The FREEZE
records are returned for the delta. -/
def State.sealClose (s : State) (b : Nat) : State × List OutRec :=
  let l := s.sealSt.store
  let fr := l.filter fun r => orKind r.bytes == 5
  let s := s.setSeal fun x => { x with store := [], prov := [], sealedRecs := l.filter fun r => orKind r.bytes == 4 }
  let s := s.each fr fun r t =>
    (t.freezeRequest 1 (some r.slice) (orArg r.bytes 0 4) (orArg r.bytes 4 4) (orPub r.bytes) (edgeNs t.rate b) b).1
  let recs := (l.filter fun r => orKind r.bytes != 5 && orKind r.bytes != 4).foldl (fun a r => recInsert r a) []
  (s.each recs fun r t => t.number b r, fr)

/-! Release and discard (R259, R268). -/

/-- Frames of beat `b` that came from output records. -/
def ofBeat (b : Nat) (f : SFrame) : Bool := f.beat == b && f.cls != 8 && !f.released

/-- The outputs of run beat `b` are released: numbers commit, HOST records and frames
leave, HOST entries ahead of reports (R353). -/
def State.releaseBeat (s : State) (b : Nat) : State :=
  let fs := s.sealSt.frames.filter (ofBeat b)
  let good := s.sealSt.prov.filter fun p => fs.any fun f => f.pub == p.1 && f.st < 2
  let s := s.each good fun p t => t.setPub p.1 fun _ => p.2
  let hosts := s.sealSt.sealedRecs
  let s := s.setSeal fun x => { x with
    prov := [], sealedRecs := []
    frames := (x.frames.filter fun f => !ofBeat b f) ++ ((fs.filter fun f => f.st == 0).map fun f => { f with released := true }) }
  let s := s.each (fs.filter fun f => f.st < 2 && puKind (s.pub f.pub) == 1) fun f t => t.startCurve f
  let s := s.each hosts fun r t =>
    t.cqPush r.slice ⟨6, 0, 0, 24, 0, (r.bytes.drop 8).take 8 ++ leBytes 8 r.beat ++ leBytes 4 r.flow ++ leBytes 4 r.epoch, orBody r.bytes⟩
  s.each fs fun f t =>
    if f.st = 1 then t.sendFrame { f with released := true }
    else if f.st = 0 then t
    else t.reportFrame (f.fate 1) (t.infoOf f false) none

/-- The outputs of run beat `b` are discarded (R26): frames are reported WITHHELD, numbers return. -/
def State.discardBeat (s : State) (b : Nat) : State :=
  let fs := s.sealSt.frames.filter (ofBeat b)
  let s := s.setSeal fun x => { x with prov := [], sealedRecs := [], frames := x.frames.filter fun f => !ofBeat b f }
  s.each fs fun f t => t.reportFrame (f.fate 1) (t.infoOf f false) none

/-- At the edge of `b`, released frames of beat `b − 2` that are still not built are discarded (R268). -/
def State.lateBuild (s : State) (b : Nat) : State :=
  let late := s.sealSt.frames.filter fun f => f.cls != 8 && f.released && f.st == 0 && decide (f.beat + 2 ≤ b)
  let s := s.setSeal fun x => { x with
    frames := x.frames.filter fun f => !(f.cls != 8 && f.released && f.st == 0 && decide (f.beat + 2 ≤ b)) }
  s.each late fun f t =>
    let t := ((t.bump F.SEAL_CNT_LATEBUILD).flag F.SEAL_STATUS_LATEBUILD).reportFrame 5 (t.infoOf f false) none
    t.limited 0x9005 0 1 fun k u => u.raise 0x9005 177 f.beat 0 k 0

/-! The delta's size and budget (R255 to R257). -/

def State.deltaBudget (s : State) : Nat := (s.get F.BEAT_SEAL_WIN - 35) * 131072 / 265

/-- Publications in the delta: changed since the last one, or numbered in this beat. -/
def State.deltaPubs (s : State) : List Nat := (s.sealSt.changed ++ s.sealSt.prov.map (·.1)).eraseDups

def State.deltaSize (s : State) (freezes : Nat) : Nat :=
  32 + 72 * s.sealSt.marks.length + 16 * s.sealSt.epochs.length + 16 * s.yard.recs.length + 32 * freezes
    + 32 * s.deltaPubs.length + 64

/-! Commands (R276, R277). -/

/-- The EGRESS field names a port, a redundancy pair or, for KIND YARD, a Tudel link (R253, R336). -/
def egressOk (kind eg : Nat) : Bool :=
  if kind = 6 && bitOf eg 14 then decide (eg - 0x4000 < 8)
  else if bitOf eg 15 then decide (eg - 0x8000 < 48)
  else decide (eg < 96)

/-- The rules of R253 for a valid entry. -/
def puOk (e : List Byte) : Bool :=
  let k := puKind e
  decide (leAt e 0 1 < 8) && (k == 1 || k == 2 || k == 3 || k == 6) && decide (puMask e < 16) && egressOk k (puEgress e)
    && (k ≤ 2 || puAppid e == 0) && (k == 3 || k == 6 || puStream e == 0) && decide (1 ≤ puAlg e ∧ puAlg e ≤ 7)
    && decide (puCurve e < 8) && puTplOfs e % 8 == 0 && decide (16 ≤ puTplLen e ∧ puTplLen e ≤ 512)
    && decide (puTplOfs e + puTplLen e ≤ 0x100000)
    && (if k = 2 then decide (1 ≤ puChannels e ∧ puChannels e ≤ 32)
        else if k = 3 then decide (1 ≤ puChannels e ∧ puChannels e ≤ 16) else puChannels e == 0)
    && (if k = 3 then puFormat e == 1 || puFormat e == 2 else puFormat e == 0)
    && leAt e 30 2 == 0 && leAt e 60 4 == 0
    && (if k = 2 then decide (4000 ≤ puRate e ∧ puRate e ≤ 15360)
        else if k = 3 then decide (1 ≤ puRate e ∧ puRate e ≤ 2000000) else puRate e == 0)

/-- What EN = 1 asks (R276, SEAL_CURVEc_A.MULT). -/
def State.sealOk (s : State) : Bool :=
  (s.sealSt.pubs.all fun p => !puValid p.2 || (puOk p.2 && tplOk (puKind p.2) (s.tplOf p.2)))
    && (List.range 8).all fun c => decide (1 ≤ s.get (F.SEAL_CURVEc_A_MULT.idx c) ∧ s.get (F.SEAL_CURVEc_A_MULT.idx c) ≤ 4)

/-- A fresh IV fixed field, bit 0 the strap (R262); the table of R401 is emptied. -/
def State.drawIv (s : State) : State :=
  let v := s.freeVal 32
  (s.setGen []).useFree.put F.SEAL_IV_FIXED (v - v % 2 + b2n s.pair.strapB)

/-- A write of SEAL_CTRL.EN (R276; assumption log 75). Every EN = 1 is tested, zeroes the hardware fields, NEXT_US among them, and
draws the IV field. -/
def sealCtrlWrite (d : Nat) (s : State) : State :=
  if !bitOf d 0 then ((s.put F.SEAL_CTRL 0).put F.SEAL_STATUS_RUNNING 0).setSeal fun x => { x with reps := [] }
  else if s.sealOk then
    let s := s.when (!s.bit F.SEAL_CTRL) fun t => t.freshLimits (rateBlock 9)
    let s := ((s.flag F.SEAL_CTRL).flag F.SEAL_STATUS_RUNNING).put F.SEAL_STATUS_CFG_ERR 0
    (s.setSeal fun x => { x with
      pubs := x.pubs.map fun p => (p.1, if puValid p.2 then setLe p.2 32 24 0 else p.2), reps := [], changed := [] }).drawIv
  else s.flag F.SEAL_STATUS_CFG_ERR

def execSealEnable (m : Master) (d : Nat) (s : State) : Res := fin (s.regWrite m 0x900000 (sealCtrlWrite d))

def paccIn (g : State → State) (t : State) : State := g (t.put F.SEAL_PACC_CMD_ERR 0)
def paccCmd (m : Master) (g : State → State) (s : State) : State := s.regWrite m 0x900034 (paccIn g)
def paccErr (e : Nat) (s : State) : State := (s.put F.SEAL_PACC_CMD_ERR e).flag F.SEAL_STATUS_PACC_ERR

def sealReadOp (t : State) : State := t.putBytes F.SEAL_PACC_DATAn 16 (t.pubBytes (t.get F.SEAL_PACC_IDX))
def execSealRead (m : Master) (s : State) : Res := fin (paccCmd m sealReadOp s)

/-- WRITE keeps the hardware's fields (R253). -/
def sealWrite (s : State) : State :=
  let p := s.get F.SEAL_PACC_IDX
  let e := s.getBytes F.SEAL_PACC_DATAn 16
  if s.bit F.SEAL_CTRL then paccErr 1 s
  else if puValid e && !puOk e then paccErr 2 s
  else s.setPub p fun old => setLe e 32 24 (leAt old 32 24)

def execSealWrite (m : Master) (s : State) : Res := fin (paccCmd m sealWrite s)

/-- INVALIDATE clears VALID. -/
def sealInvalidate (s : State) : State :=
  if s.bit F.SEAL_CTRL then paccErr 1 s
  else
    let p := s.get F.SEAL_PACC_IDX
    if (s.pub p).isEmpty then s else s.setPub p fun e => setLe e 0 1 (clearBit (leAt e 0 1) 0)

def execSealInvalidate (m : Master) (s : State) : Res := fin (paccCmd m sealInvalidate s)

/-- A write of SEAL_TACC_DATA: four template bytes while EN = 0, and the offset rises by 4 (R254). -/
def taccWrite (d : Nat) (s : State) : State :=
  if s.bit F.SEAL_CTRL then s
  else
    let o := s.get F.SEAL_TACC_ADDR
    (s.setSeal fun x => { x with tpl := Memory.store 0 x.tpl o (leBytes 4 d) }).put F.SEAL_TACC_ADDR (o + 4)

def execTaccDataWrite (m : Master) (d : Nat) (s : State) : Res := fin (s.regWrite m 0x900084 (taccWrite d))

end Sys2Proof.Machine
end

