-- ==== Sys2Proof/Machine/Tudel.lean ====
section
/-! DEFINITION. Yards and Tudel links (chapter 10): the forwarding table and its frames (R325 to R329), FREEZE frames
(R324, R338), and the link state machine (R332 to R337). Frames received on a link arrive by FRAME_RX. -/

namespace Sys2Proof.Machine

/-! The forwarding table (R325, R326). -/

def fwValid (e : List Byte) : Bool := bitOf (leAt e 0 1) 0
def fwGroup (e : List Byte) : Nat := leAt e 2 2
def fwPub (e : List Byte) : Nat := leAt e 4 2
def fwChunk (e : List Byte) : Nat := leAt e 6 2
def fwOfs (e : List Byte) : Nat := leAt e 8 4
def fwLen (e : List Byte) : Nat := leAt e 12 2
def fwDest (e : List Byte) : Nat := leAt e 14 2

/-- What WRITE asks of a valid entry: the ranges that it can tell by itself (assumption log 76). -/
def fwForm (e : List Byte) : Bool :=
  decide (leAt e 0 1 < 2) && leAt e 1 1 == 0 && decide (fwGroup e < 4096) && decide (fwPub e < 8192)
    && fwOfs e % 64 == 0 && decide (64 ≤ fwLen e ∧ fwLen e ≤ 65472) && fwLen e % 64 == 0

/-- What R325 asks of a valid entry beyond that: the slab's size and the publication. -/
def State.fwOk (s : State) (e : List Byte) : Bool :=
  let g := (s.group (fwGroup e)).e
  let p := s.pub (fwPub e)
  fwForm e && geValid g && decide (fwOfs e + fwLen e ≤ slabSize g) && puValid p && puKind p == 6 && puMask p == 0

/-- Frames of an entry (R327). -/
def fwFrames (e : List Byte) : Nat := ceilDiv (fwLen e) 9088

def State.fwdEntries (s : State) : List (List Byte) := (s.tud.fwd.map (·.2)).filter fwValid

/-- What EN = 1 asks (R326). -/
def State.tudelOk (s : State) : Bool :=
  let l := s.fwdEntries
  l.all s.fwOk && l.all fun e => decide (((l.filter fun x => fwPub x == fwPub e).map fwFrames).sum ≤ 64)

/-- One frame to be forwarded: entry, source window, byte offset within the entry. -/
structure FwdPart where
  e : List Byte
  k : Nat
  ofs : Nat
  deriving DecidableEq, Repr

/-- The frames of the windows cut at the edge of `b`, in entry order. -/
def State.fwdParts (s : State) (b : Nat) : List FwdPart :=
  s.fwdEntries.flatMap fun e =>
    if geWithdrawn (s.group (fwGroup e)).e ∨ !geValid (s.group (fwGroup e)).e then []
    else match s.cutWin (fwGroup e) b with
      | none => []
      | some k => (List.range (fwFrames e)).map fun i => ⟨e, k, 9088 * i⟩

/-- Two frames are of one publication and window. -/
def FwdPart.same (x y : FwdPart) : Bool := fwPub x.e == fwPub y.e && x.k == y.k

/-- The SLAB frame of a part: `n` its number, `last` whether it is the last one. -/
def State.fwdFrame (s : State) (b n : Nat) (last : Bool) (x : FwdPart) : SFrame :=
  let p := fwPub x.e
  let e := s.pub p
  let a := slabAddr (s.group (fwGroup x.e)).e x.k
  let len := min 9088 (fwLen x.e - x.ofs)
  let seq := x.k * 65536 + n
  let missed := bitOf (s.yLe (a + 52) 4) 0
  let h := s.yardHeader 1 (puStream e) seq x.k (fwDest x.e) (fwChunk x.e + x.ofs / 64) len (2 * b2n last + 4 * b2n missed)
    (s.yLe (a + 11) 1) 0 0xFFFFFFFF
  ⟨p, 8, b, fwGroup x.e, h ++ s.yBytes (a + fwOfs x.e + x.ofs) len, seq % 2 ^ 32, seq / 2 ^ 32, s.nowNs, s.tq, 0,
    puReportAll e, puTsAll e, 0, [], [], true⟩

/-- Number the parts (R327): `done'` holds those before. -/
def State.fwdNumber (s : State) (b : Nat) (done' : List FwdPart) : List FwdPart → List SFrame
  | [] => []
  | x :: t =>
    let n := (done'.filter x.same).length
    s.fwdFrame b n (!t.any x.same) x :: s.fwdNumber b (x :: done') t

/-- The windows cut at the edge of `b` are forwarded (R327, R328). -/
def State.forward (s : State) (b : Nat) : State :=
  if s.bit F.TUDEL_CTRL && s.runsItems && s.bit F.MYARD_CTRL then
    s.setSeal fun x => { x with frames := x.frames ++ s.fwdNumber b [] (s.fwdParts b) }
  else s

/-- At the run deadline of `b`, forwarded frames that are not built are discarded (R329). -/
def State.fwdLate (s : State) (b : Nat) : State :=
  let bad := fun (f : SFrame) => f.cls == 8 && f.rep != 65536 && f.st == 0 && decide (f.beat ≤ b)
  let late := s.sealSt.frames.filter bad
  let s := s.setSeal fun x => { x with frames := x.frames.filter fun f => !bad f }
  s.each late fun f t =>
    (t.bump F.TUDEL_CNT_FWD_LATE).limited 0xB004 0 1 fun k u => u.raise 0xB004 179 f.rep 0 k 0

/-! The block's commands (R326, R338). -/

/-- A link enters a state. -/
def State.linkTo (s : State) (j st : Nat) : State :=
  (s.put (F.TUDEL_LINKj_STATUS_LSTATE.idx j) st).setTLink j fun x => { x with since := s.clk, rxAt := s.clk, skewRun := 0 }

def State.lst (s : State) (j : Nat) : Nat := s.get (F.TUDEL_LINKj_STATUS_LSTATE.idx j)

/-- Every link is disabled. -/
def State.linksOff (s : State) : State := s.each (List.range 8) fun j t => t.linkTo j 0

/-- A write of TUDEL_CTRL.EN. -/
def tudelCtrlWrite (d : Nat) (s : State) : State :=
  if !bitOf d 0 then
    (if s.bit F.TUDEL_CTRL then ((s.put F.TUDEL_CTRL 0).put F.TUDEL_STATUS_RUNNING 0).linksOff else s)
  else if s.bit F.TUDEL_CTRL then s
  else if s.tudelOk then
    let s := (((s.freshLimits (rateBlock 0xB)).flag F.TUDEL_CTRL).flag F.TUDEL_STATUS_RUNNING).put F.TUDEL_STATUS_CFG_ERR 0
    let on := (List.range 8).filter fun j => bitOf (s.get F.TUDEL_CFG_LINK_EN) j && j != s.get F.TUDEL_CFG_BOARD_POS
    s.each on fun j t => t.linkTo j 1
  else s.flag F.TUDEL_STATUS_CFG_ERR

def execTudelEnable (m : Master) (d : Nat) (s : State) : Res := fin (s.regWrite m 0xB00000 (tudelCtrlWrite d))

def tfaccIn (g : State → State) (t : State) : State := g (t.put F.TUDEL_FACC_CMD_ERR 0)
def tfaccCmd (m : Master) (g : State → State) (s : State) : State := s.regWrite m 0xB00084 (tfaccIn g)
def tfaccErr (e : Nat) (s : State) : State := (s.put F.TUDEL_FACC_CMD_ERR e).flag F.TUDEL_STATUS_FACC_ERR
def State.setFwd (s : State) (n : Nat) (e : List Byte) : State :=
  s.setTud fun x => { x with fwd := Table.put (List.replicate 16 0) n e s.tud.fwd }
def State.fwd (s : State) (n : Nat) : List Byte := Table.at (List.replicate 16 0) n s.tud.fwd

def tfaccReadOp (t : State) : State := t.putBytes F.TUDEL_FACC_DATAn 4 (t.fwd (t.get F.TUDEL_FACC_IDX))
def execTudelFaccRead (m : Master) (s : State) : Res := fin (tfaccCmd m tfaccReadOp s)

def tfaccWrite (s : State) : State :=
  let e := s.getBytes F.TUDEL_FACC_DATAn 4
  if s.bit F.TUDEL_CTRL then tfaccErr 1 s
  else if fwValid e && !fwForm e then tfaccErr 2 s
  else s.setFwd (s.get F.TUDEL_FACC_IDX) e

def execTudelFaccWrite (m : Master) (s : State) : Res := fin (tfaccCmd m tfaccWrite s)

def tfaccInvalidate (s : State) : State :=
  let n := s.get F.TUDEL_FACC_IDX
  if s.bit F.TUDEL_CTRL then tfaccErr 1 s
  else s.setFwd n (setLe (s.fwd n) 0 1 (clearBit (leAt (s.fwd n) 0 1) 0))

def execTudelFaccInvalidate (m : Master) (s : State) : Res := fin (tfaccCmd m tfaccInvalidate s)

/-- A FREEZE frame of TUDEL_FRZ_CMD (R324, R338), which takes the next SEQ of its publication at once (assumption log
77). A device in a state that does not emit (R279) sends none. -/
def frzFrame (s : State) : State :=
  let p := s.get F.TUDEL_FRZ_CMD_PUB
  let e := s.pub p
  if !(puValid e && puKind e == 6) then s.flag F.TUDEL_STATUS_FACC_ERR
  else if !s.runsItems then s
  else
    let q := puSeqA e + 2 ^ 32 * puSeqB e + 1
    let pay := beBytes 6 (s.nowNs / 1000000000) ++ beBytes 4 (s.nowNs % 1000000000) ++ beBytes 2 (s.get F.TUDEL_FRZ_ARG2_REASON)
      ++ beBytes 4 (s.get (F.TUDEL_FRZ_ARG01.idx 0)) ++ beBytes 4 (s.get (F.TUDEL_FRZ_ARG01.idx 1)) ++ beBytes 4 0
    let h := s.yardHeader 3 (puStream e) q s.beat (s.get F.TUDEL_FRZ_ARG2_DEST) 0 24 0 s.tq 0 0xFFFFFFFF
    let f : SFrame := ⟨p, 8, s.beat, 65536, h ++ pay, q % 2 ^ 32, q / 2 ^ 32, s.nowNs, s.tq, 0, puReportAll e, puTsAll e, 0, [], [],
      true⟩
    let s := (s.setPub p fun x => setLe (setLe (setLe x 32 4 (q % 2 ^ 32)) 36 4 (q / 2 ^ 32)) 48 8 s.beat).pubChanged p
    s.setSeal fun x => { x with frames := x.frames ++ [f] }

def tudelFrzGo (d : Nat) (s : State) : State :=
  let s := s.put F.TUDEL_FRZ_CMD_PUB (bitsOf d 0 13)
  if bitOf d 31 then frzFrame s else s

def execTudelFrzGo (m : Master) (d : Nat) (s : State) : Res := fin (s.regWrite m 0xB000A0 (tudelFrzGo d))

/-! The links (R334, R337). -/

/-- A link goes down: TRAINING again, event 0xB001. -/
def State.linkDown (s : State) (j : Nat) : State := (s.linkTo j 1).raise 0xB001 179 j 0 0 0

/-- PCS and FEC of link `j` lock. -/
def tudelLock (j dt : Nat) (s : State) : State :=
  let s := s.elapse dt
  if s.lst j = 1 then s.linkTo j 2 else s
def execTudelLock (j : Fin 8) (dt : Nat) (s : State) : Res := fin (tudelLock j dt s)

def tudelTrainTmo (j dt : Nat) (s : State) : State :=
  let s := s.elapse dt
  if s.lst j = 1 ∧ (s.tLink j).since + s.get F.TUDEL_TRAIN * 1000000 ≤ s.clk then (s.linkTo j 4).raise 0xB001 179 j 0 0 0 else s
def execTudelTrainTmo (j : Fin 8) (dt : Nat) (s : State) : Res := fin (tudelTrainTmo j dt s)

def tudelAloneRetry (j dt : Nat) (s : State) : State :=
  let s := s.elapse dt
  if s.lst j = 4 ∧ (s.tLink j).since + 1000000000 ≤ s.clk then s.linkTo j 1 else s
def execTudelAloneRetry (j : Fin 8) (dt : Nat) (s : State) : Res := fin (tudelAloneRetry j dt s)

/-- A HELLO is sent when its interval has passed: 100 µs in UP, 10 µs in HELLO_WAIT. -/
def tudelHelloTx (j dt : Nat) (s : State) : State :=
  let s := s.elapse dt
  let st := s.lst j
  if (st = 3 ∧ (s.tLink j).helloAt + 100000 ≤ s.clk) ∨ (st = 2 ∧ (s.tLink j).helloAt + 10000 ≤ s.clk) then
    let body := beBytes 2 (s.get F.TUDEL_CFG_DEVICE_ID) ++ beBytes 1 (s.get F.TUDEL_CFG_BOARD_POS) ++ beBytes 1 0
      ++ beBytes 4 s.rate ++ beBytes 4 (s.get F.DEVID) ++ beBytes 6 (s.nowNs / 1000000000) ++ beBytes 4 (s.nowNs % 1000000000)
    (s.emit (.tudelTx j 1 body)).setTLink j fun x => { x with helloAt := s.clk }
  else s
def execTudelHelloTx (j : Fin 8) (dt : Nat) (s : State) : Res := fin (tudelHelloTx j dt s)

/-- The skew of a HELLO (R337). -/
def State.helloSkew (s : State) (j : Nat) (bs : List Byte) : State :=
  let tx := beAt bs 12 6 * 1000000000 + beAt bs 18 4
  let k : Int := (s.nowNs : Int) - tx - s.get (F.TUDEL_LINKj_CFG_DELAY.idx j)
  let run := if 1000 < k.natAbs then (s.tLink j).skewRun + 1 else 0
  let s := (s.put (F.TUDEL_SKEWj.idx j) (ofSigned 32 k)).setTLink j fun x => { x with skewRun := run }
  s.when (run == 16) fun t => t.raise 0xB005 179 j (ofSigned 32 k) 0 0

/-- The failing test of a HELLO on link `j`, 0 for none (R334). -/
def State.helloTest (s : State) (j : Nat) (bs : List Byte) : Nat :=
  if beAt bs 2 1 ≠ j then 1
  else if beAt bs 4 4 ≠ s.rate then 2
  else if beAt bs 0 2 = s.get F.TUDEL_CFG_DEVICE_ID then 3
  else 0

/-- A HELLO arrives on link `j`. -/
def tudelHelloRx (j : Nat) (bs : List Byte) (crcOk : Bool) (dt : Nat) (s : State) : State :=
  let s := s.elapse dt
  let s := s.setTLink j fun x => { x with rxAt := s.clk }
  let st := s.lst j
  if !crcOk ∨ bs.length ≠ 22 ∨ (st ≠ 2 ∧ st ≠ 3) then s.bump F.TUDEL_CNT_RX_DROP
  else
    let s := (s.put (F.TUDEL_LINKj_STATUS_PEER_ID.idx j) (beAt bs 0 2)).put (F.TUDEL_LINKj_STATUS_PEER_POS.idx j) (beAt bs 2 1)
    let s := if st = 3 then s
      else match s.helloTest j bs with
        | 0 => (s.linkTo j 3).raise 0xB002 179 j (beAt bs 0 2) 0 0
        | e => (((s.linkTo j 5).put (F.TUDEL_LINKj_STATUS_MISWIRE.idx j) e).flag F.TUDEL_STATUS_MISWIRED).raise 0xB003 179 j e 0 0
    s.helloSkew j bs
def execTudelHelloRx (j : Fin 8) (bs : List Byte) (crcOk : Bool) (dt : Nat) (s : State) : Res := fin (tudelHelloRx j bs crcOk dt s)

/-- Lock is lost, or 400 µs have passed without a frame. -/
def tudelLinkLoss (j : Nat) (lock : Bool) (dt : Nat) (s : State) : State :=
  let s := s.elapse dt
  let st := s.lst j
  if (st = 2 ∨ st = 3) ∧ (lock ∨ (s.tLink j).rxAt + 400000 ≤ s.clk) then s.linkDown j else s
def execTudelLinkLoss (j : Fin 8) (lock : Bool) (dt : Nat) (s : State) : Res := fin (tudelLinkLoss j lock dt s)

end Sys2Proof.Machine
end

