-- ==== Sys2Proof/Machine/PairRec.lean ====
section
/-! DEFINITION. Delta and resync records of the pair link (R285, R302): how they are formed, told apart and applied. -/

namespace Sys2Proof.Machine

def State.setPair (s : State) (g : PairSt → PairSt) : State := { s with pair := g s.pair }

/-! Forming records. -/

def recBegin (flags tq bytes beat : Nat) (sig : List Byte) : List Byte :=
  beBytes 1 0x10 ++ beBytes 1 flags ++ beBytes 1 tq ++ beBytes 1 0 ++ beBytes 4 bytes ++ beBytes 8 beat ++ sig.take 8 ++ beBytes 8 0
def recGranule (flow gran : Nat) (data : List Byte) : List Byte :=
  beBytes 1 0x11 ++ beBytes 1 0 ++ beBytes 2 gran ++ beBytes 4 flow ++ data
def recEpoch (flow len epoch : Nat) (lost : Bool) : List Byte :=
  beBytes 1 0x12 ++ beBytes 1 (b2n lost) ++ beBytes 2 len ++ beBytes 4 flow ++ beBytes 4 epoch ++ beBytes 4 0
def recMember (op g flow idx beat : Nat) : List Byte :=
  beBytes 1 0x13 ++ beBytes 1 op ++ beBytes 2 g ++ beBytes 4 flow ++ beBytes 2 idx ++ beBytes 2 0 ++ beBytes 4 (beat % 2 ^ 32)
def recFreeze (slice reason pre post t : Nat) : List Byte :=
  beBytes 1 0x14 ++ beBytes 1 slice ++ beBytes 2 reason ++ beBytes 4 pre ++ beBytes 4 post ++ beBytes 4 0
    ++ beBytes 6 (t / 1000000000) ++ beBytes 4 (t % 1000000000) ++ beBytes 6 0
/-- PUBSTATE from the bytes of a publication entry. -/
def recPub (p : Nat) (e : List Byte) : List Byte :=
  beBytes 1 0x15 ++ beBytes 1 0 ++ beBytes 2 p ++ beBytes 4 (leAt e 32 4) ++ beBytes 4 (leAt e 36 4) ++ beBytes 4 (leAt e 40 4)
    ++ beBytes 4 (leAt e 44 4) ++ beBytes 4 0 ++ beBytes 8 (leAt e 48 8)
def recEnd (overflow : Bool) (count beat : Nat) (before : List (List Byte)) : List Byte :=
  beBytes 1 0x1F ++ beBytes 1 (b2n overflow) ++ beBytes 2 0 ++ beBytes 4 count ++ beBytes 8 beat ++ beBytes 8 (crc64 before.flatten)
    ++ beBytes 40 0

/-- Publication `p` as it stands provisionally, NEXT_US being what is left (R253, R255). -/
def State.pubNow (s : State) (p : Nat) : List Byte :=
  let e := s.provPub p
  setLe (e ++ List.replicate (64 - e.length) 0) 44 4 (leAt (s.pubBytes p) 44 4)

/-- The 64 bytes of a granule of a flow's page. -/
def State.granule (s : State) (flow gran : Nat) : List Byte := s.readTarget (s.pageTarget flow (64 * gran)) 64

/-- The records of the delta of run beat `b` between BEGIN and END, in the order of R258. -/
def State.deltaBody (s : State) (b : Nat) (freezes : List OutRec) : List (List Byte) :=
  let marks := sortBy (fun (x y : Nat × Nat) => decide (x.1 < y.1 ∨ (x.1 = y.1 ∧ x.2 ≤ y.2))) s.sealSt.marks
  (s.sealSt.epochs.map fun x => recEpoch x.1 (s.flowRec x.1).len (x.2 % 2 ^ 32) (2 ^ 32 ≤ x.2))
    ++ (s.yard.recs.map fun x => recMember x.1 x.2.1 x.2.2.1 x.2.2.2.1 x.2.2.2.2)
    ++ (freezes.map fun r => recFreeze r.slice (orPub r.bytes) (orArg r.bytes 0 4) (orArg r.bytes 4 4) (edgeNs s.rate b))
    ++ (s.deltaPubs.map fun p => recPub p (s.pubNow p))
    ++ (marks.map fun m => recGranule m.1 m.2 (s.granule m.1 m.2))

/-- The whole delta: FLAGS of BEGIN, and OVERFLOW with nothing between BEGIN and END (R257). -/
def State.deltaRecs (s : State) (b flags size : Nat) (overflow : Bool) (body : List (List Byte)) : List (List Byte) :=
  let l := recBegin flags s.tq size b s.pair.sig :: (if overflow then [] else body)
  l ++ [recEnd overflow (l.length + 1) b l]

/-- Records packed into payloads of at most 32,768 bytes. -/
def packRecs : List (List Byte) → List Byte → List (List Byte)
  | [], acc => [acc]
  | r :: t, acc => if acc.length + r.length ≤ 32768 then packRecs t (acc ++ r) else acc :: packRecs t r

/-- Payloads sent as frames of a type, LAST on the last. -/
def State.sendAll (s : State) (typ beat : Nat) : List (List Byte) → State
  | [] => s
  | [p] => s.pairSend typ 1 beat p
  | p :: t => (s.pairSend typ 0 beat p).sendAll typ beat t

/-! Telling records apart. -/

/-- The length of the record at the head of bytes, 0 where there is none. -/
def recLen (bs : List Byte) : Nat :=
  match beAt bs 0 1 with
  | 0x10 => 32
  | 0x11 => 72
  | 0x12 => 16
  | 0x13 => 16
  | 0x14 => 32
  | 0x15 => 32
  | 0x1F => 64
  | 0x20 => 32
  | 0x21 => 16 + beAt bs 2 2
  | 0x22 => 72
  | 0x2F => 32
  | _ => 0

/-- The records of a payload; none where it is no sequence of records. -/
def splitRecs : Nat → List Byte → Option (List (List Byte))
  | 0, bs => if bs.isEmpty then some [] else none
  | n + 1, bs =>
    if bs.isEmpty then some []
    else
      let k := recLen bs
      if k = 0 ∨ bs.length < k then none
      else (splitRecs n (bs.drop k)).map fun l => bs.take k :: l

def recType (r : List Byte) : Nat := beAt r 0 1

/-! Applying records (R288, R293, R294, R303). -/

/-- A granule or part of a page: written where the flow has its page. -/
def State.commitPage (s : State) (flow ofs : Nat) (data : List Byte) : State :=
  if (s.flowRec flow).pageValid ∧ ofs + data.length ≤ 64 * (s.flowRec flow).len then s.writeTarget (s.pageTarget flow ofs) data
  else s

/-- EPOCH: the flow has a page of this length; STATE_LOST zeroes it. -/
def State.commitEpoch (s : State) (flow len epoch : Nat) (lost : Bool) : State :=
  let s := s.setFlowRec flow fun x => { x with epoch := epoch, len := len, stateLost := lost }
  let r := s.flowRec flow
  let s := if !r.pageValid then s.allocPage flow else if lost then s.newPage flow r.pos r.ofs else s
  s.syncLive

/-- MEMBER (R294); a record of an index that the flow holds already changes nothing. -/
def State.commitMember (s : State) (op g flow idx : Nat) : State :=
  if !s.bit F.MYARD_CTRL ∨ !geValid (s.group g).e then s
  else if op = 1 ∧ ((s.memberOf g flow).map (·.idx)) = some idx then s
  else if op = 1 then
    let s := s.setGroup g fun x => { x with members := x.members.filter fun m => m.idx != idx && m.flow != flow }
    let s := s.giveIndex g flow idx
    s.setYard fun x => { x with recs := x.recs.dropLast }
  else
    s.setGroup g fun x => { x with members := x.members.map fun m =>
      if m.flow = flow && m.idx = idx && m.removed.isNone then { m with removed := some (geLag x.e + 2) } else m }

/-- PUBSTATE. -/
def State.commitPub (s : State) (r : List Byte) : State :=
  s.setPub (beAt r 2 2) fun e =>
    setLe (setLe (setLe (setLe (setLe e 32 4 (beAt r 4 4)) 36 4 (beAt r 8 4)) 40 4 (beAt r 12 4)) 44 4 (beAt r 16 4)) 48 8 (beAt r 24 8)

/-- FREEZE on the standby (R148). -/
def State.commitFreeze (s : State) (b : Nat) (r : List Byte) : State :=
  (s.freezeRequest 1 (some (beAt r 1 1)) (beAt r 4 4) (beAt r 8 4) (beAt r 2 2) (beAt r 16 6 * 1000000000 + beAt r 22 4) b).1

/-- RS_INST: the instance of an entry is created or removed (R293). -/
def State.commitInst (s : State) (n : Nat) (e : List Byte) : State :=
  let had := feValid (s.flow n).e && feInstance (s.flow n).e
  if feValid e then
    let s := s.setFlow n fun _ => { FlowEnt.empty with e := e }
    if had then s
    else
      let tpl := feTplRef e
      let s := s.setFlow tpl fun x => { x with e := setLe x.e 54 2 (feTplCount x.e + 1) }
      (s.bump F.GATE_CNT_INST).raise 0x4004 105 n tpl 0 0
  else if had then s.removeInstance n
  else s

/-- One record but PUBSTATE and FREEZE, which have their own times. -/
def State.commitRec (s : State) (r : List Byte) : State :=
  match recType r with
  | 0x11 => s.commitPage (beAt r 4 4) (64 * beAt r 2 2) (r.drop 8)
  | 0x12 => s.commitEpoch (beAt r 4 4) (beAt r 2 2) (beAt r 8 4) (bitOf (beAt r 1 1) 0)
  | 0x13 => s.commitMember (beAt r 1 1) (beAt r 2 2) (beAt r 4 4) (beAt r 8 2)
  | 0x21 => s.commitPage (beAt r 4 4) (beAt r 8 4) (r.drop 16)
  | 0x22 => s.commitInst (beAt r 4 4) (r.drop 8)
  | _ => s

/-- The staged delta of a beat is committed (R288). -/
def State.commitStaged (s : State) : State :=
  match s.pair.staged with
  | none => s
  | some (b, l) =>
    let s := s.each l fun r t => t.commitRec r
    (s.setPair fun x => { x with staged := none }).put F.PAIR_COMMIT b

/-- PUBSTATE records that wait are committed. -/
def State.commitPubs (s : State) : State :=
  match s.pair.pubWait with
  | none => s
  | some (_, l) => (s.each l fun r t => t.commitPub r).setPair fun x => { x with pubWait := none }

/-- Every flow with a page starts from zero: STATE_LOST, epoch raised (R240, R298, R309). -/
def State.allLost (s : State) : State :=
  s.each ((s.groom.flows.filter fun f => f.2.pageValid).map (·.1)) fun f t =>
    let t := t.setFlowRec f fun r => { r with stateLost := true, epoch := (r.epoch + 1) % 2 ^ 32 }
    let r := t.flowRec f
    let t := t.newPage f r.pos r.ofs
    let t := t.setSeal fun x => { x with epochs := x.epochs ++ [(f, r.epoch + 2 ^ 32)] }
    (t.flag F.GROOM_STATUS_STATE_LOST).raise 0x7007 108 f 0 0 0

/-! A resync pass (R302). -/

def rsBegin (bytes beat : Nat) : List Byte := beBytes 1 0x20 ++ beBytes 3 0 ++ beBytes 4 bytes ++ beBytes 8 beat ++ beBytes 16 0
def rsInst (n : Nat) (e : List Byte) : List Byte := beBytes 1 0x22 ++ beBytes 3 0 ++ beBytes 4 n ++ feBytes e
def rsEnd (count beat : Nat) : List Byte := beBytes 1 0x2F ++ beBytes 3 0 ++ beBytes 4 count ++ beBytes 8 beat ++ beBytes 16 0

def RsItem.size : RsItem → Nat
  | .record bs => bs.length
  | .page _ _ n => 16 + n

/-- The bytes of an item as they stand. -/
def State.rsBytes (s : State) : RsItem → List Byte
  | .record bs => bs
  | .page f o n =>
    beBytes 1 0x21 ++ beBytes 1 0 ++ beBytes 2 n ++ beBytes 4 f ++ beBytes 4 o ++ beBytes 4 0 ++ s.readTarget (s.pageTarget f o) n

/-- The member of a group is dynamic: its flow took its index after enable (R109). -/
def State.dynamic (s : State) (flow : Nat) : Bool :=
  !(decide (flow < 65536) && feValid (s.flow flow).e && !feInstance (s.flow flow).e)

/-- The records of a pass but RS_BEGIN, trailing deltas and RS_END. -/
def State.rsItems (s : State) : List RsItem :=
  let inst := s.gate.flows.filter fun f => feValid f.2.e && feInstance f.2.e
  let mem := s.liveGroups.flatMap fun g =>
    ((s.group g).members.filter fun m => m.removed.isNone && s.dynamic m.flow).map fun m => recMember 1 g m.flow m.idx s.beat
  let pages := s.groom.flows.filter fun f => f.2.pageValid
  let pubs := (s.sealSt.pubs.map (·.1)).filter fun p => puValid (s.pub p)
  (inst.map fun f => .record (rsInst f.1 f.2.e)) ++ mem.map .record
    ++ (pages.map fun f => .record (recEpoch f.1 f.2.len f.2.epoch f.2.stateLost))
    ++ (pubs.map fun p => .record (recPub p (s.pubBytes p)))
    ++ pages.flatMap fun f => (List.range (ceilDiv f.2.len 16)).map fun i => .page f.1 (1024 * i) (min 1024 (64 * f.2.len - 1024 * i))

/-- A pass starts, from RS_BEGIN. -/
def State.startResync (s : State) : State :=
  let l := s.rsItems
  let n := (l.map RsItem.size).sum + 32
  let s := s.bump F.PAIR_CNT_RESYNC
  let s := s.put F.PAIR_RS_LEFT (ceilDiv n 1024)
  let r : RsTx := ⟨.record (rsBegin n s.beat) :: l, [], 0, 0, s.beat, 0, false, false⟩
  s.setPair fun x => { x with resync := some r }

/-- Take items for one frame: at most `room` bytes. -/
def takeItems (room : Nat) : List RsItem → List RsItem × List RsItem
  | [] => ([], [])
  | i :: t => if i.size ≤ room then let (a, b) := takeItems (room - i.size) t; (i :: a, b) else ([], i :: t)

/-- Take records for one frame. -/
def takeRecs (room : Nat) : List (List Byte) → List (List Byte) × List (List Byte)
  | [] => ([], [])
  | r :: t => if r.length ≤ room then let (a, b) := takeRecs (room - r.length) t; (r :: a, b) else ([], r :: t)

/-- One RESYNC frame: trailing deltas first, then the pass, then RS_END; at most RATE KiB in a beat. -/
def resyncFrame (dt : Nat) (s : State) : State :=
  let s := s.elapse dt
  match s.pair.resync with
  | none => s
  | some x =>
    if s.role ≠ 5 ∨ x.ended then s
    else
      let room := min 32768 (1024 * s.get F.PAIR_RS_CFG - x.inBeat)
      let (tr, trail) := takeRecs room x.trail
      let (it, queue) := if trail.isEmpty then takeItems (room - (tr.map (·.length)).sum) x.queue else ([], x.queue)
      let recs := tr ++ it.map s.rsBytes
      let n := (recs.map (·.length)).sum
      let fin' := trail.isEmpty && queue.isEmpty && decide (n + 32 ≤ room)
      let count := x.count + recs.length
      let recs := if fin' then recs ++ [rsEnd (count + 1) s.beat] else recs
      if recs.isEmpty then s
      else
        let left := (queue.map RsItem.size).sum
        let s := (s.pairSend 8 0 s.beat recs.flatten).put F.PAIR_RS_LEFT (ceilDiv left 1024)
        let k := recs.flatten.length
        let r : RsTx := { x with
          queue := queue, trail := trail, bytes := x.bytes + k, count := count, inBeat := x.inBeat + k, ended := fin' }
        s.setPair fun y => { y with resync := some r }

def execResyncFrameSend (dt : Nat) (s : State) : Res := fin (resyncFrame dt s)

end Sys2Proof.Machine
end

