-- ==== Sys2Proof/Machine/Pair.lean ====
section
/-! DEFINITION. Paired operation (chapter 9): the role state machine (R279, R297 to R301, R308 to R313), pair frames sent and
received (R283 to R287), the interlock (R289 to R292), probes (R305) and health words (R307). What an edge does to the pair
is `State.pairEdge`. -/

namespace Sys2Proof.Machine

/-! States and events. -/

def State.sync (s : State) : Nat := s.get F.PAIR_STATUS_SYNC

/-- SYNC changes: event 0xA005 with the ACK status that caused it. -/
def State.setSync (s : State) (v status : Nat) : State :=
  if s.sync = v then s else (s.put F.PAIR_STATUS_SYNC v).raise 0xA005 178 v status 0 0

/-- A standby missed or refused something: STALE, or COLD still. -/
def State.stale (s : State) (status : Nat) : State := if s.role = 2 ∧ s.sync ≠ 0 then s.setSync 3 status else s

/-- The mask of slices in FREEZING, FROZEN, SAVING or RESTORING, as a number of 256 bits. -/
def State.frozenMask (s : State) : Nat :=
  ((List.range 256).filter fun n => decide (2 ≤ s.get (sl F.SLICE_STATUS_STATE n))).foldl setBit 0

/-- A SLICES frame goes out when the mask has changed, or when it is asked for (R296). -/
def State.sendSlices (s : State) (force : Bool) : State :=
  let m := s.frozenMask
  if s.runsItems && (force || s.pair.sentMask != some m) then
    (s.pairSend 10 0 s.beat (leBytes 32 m)).setPair fun x => { x with sentMask := some m }
  else s

/-- PAIR_PFROZEN as a number. -/
def State.pfrozen (s : State) : Nat := leNat ((List.range 8).flatMap fun i => leBytes 4 (s.get (F.PAIR_PFROZENn.idx i)))
def State.putPfrozen (s : State) (m : Nat) : State := s.each (List.range 8) fun i t => t.put (F.PAIR_PFROZENn.idx i) (m / 2 ^ (32 * i))

/-- STATE changes: ROLE_CHG, event 0xA001. Leaving STANDBY clears the mask of R296, kept for R355. In a state that does
not emit (R279) no repetition runs (assumption log 126). -/
def State.toRole (s : State) (v : Nat) : State :=
  let old := s.role
  if old = v then s
  else
    let s := s.when (old == 2) fun t => (t.setPair fun x => { x with heldMask := t.pfrozen }).putPfrozen 0
    let s := ((s.put F.PAIR_STATUS_STATE v).flag F.PAIR_STATUS_ROLE_CHG).raise 0xA001 178 v old 0 0
    let s := s.when (decide (v < 3) || v == 6) fun t => t.setSeal fun x => { x with reps := [] }
    s.when (v != 5 && v != 4) fun t => t.setPair fun x => { x with resync := none }

/-- The device enters SOLO or ACTIVE at an edge: 0x0105 for slices that the former active device held frozen (R355). -/
def State.freezeLost (s : State) : State :=
  let m := s.pair.heldMask
  let s := s.setPair fun x => { x with heldMask := 0 }
  s.each ((List.range 256).filter fun n => bitOf m n && s.get (sl F.SLICE_STATUS_STATE n) == 1) fun n t => t.raiseSlice 0x0105 n 0 0 0

/-- The partner's SYNC in its last health word, and whether it is HOT. -/
def State.pSync (s : State) : Nat := bitsOf (s.get F.PAIR_PHEALTH) 26 2
def State.pHot (s : State) : Bool := s.pair.lost.isNone && bitOf (s.get F.PAIR_PHEALTH) 0 && s.pair.pState == some 2 && s.pSync == 2

/-- The active device is to become SOLO at the cut-off of beat `b` (R300). -/
def State.soloBy (s : State) (b : Nat) : State :=
  if s.role = 4 ∧ s.pair.soloAt.isNone then s.setPair fun x => { x with soloAt := some b } else s

/-- A readback mismatch (R290, R306). -/
def State.rbFault (s : State) : State := (s.flag F.PAIR_STATUS_IL_RB_FAULT).bump F.PAIR_CNT_IL_FAULT

/-! Promotion (R297, R298). -/

/-- A held item of the standby meets the checks of its trigger now (R218, R240, R354). -/
def State.recheck (s : State) (i : Item) : State :=
  let r := s.flowRec (itFlow i)
  if s.sliceFrozen (itSlice i) then s.finishItem i 5 4 0
  else if !r.pageValid then (if s.groom.lost.contains (itFlow i) then s.finishItem i 5 1 0 else s.finishItem i 7 4 0)
  else s.setGroom fun x => { x with ready := x.ready ++ [i] }

/-- The run cycles from `at'` ns of device time to the run deadline of the present beat. -/
def State.cyclesFrom (s : State) (at' : Nat) : Nat := (edgeNs s.rate s.bt.next - s.sealNs - at') * 6 / 5

/-- STANDBY becomes PROMOTING (R298, R299). Before the run deadline it runs the beat again, from the state committed at its
edge; at or after it, the beat is lost. A partial delta is discarded, and a delta acknowledged with OK stays staged: the edge
commits it, so that the state held goes through b. -/
def State.promoteNow (s : State) : State :=
  let rerun := s.bt.running && !s.bt.deadline
  let r := if rerun then s.cyclesFrom (s.nowNs + 160) else 0
  let cold := s.sync ≠ 2
  let s := (s.toRole 3).bump F.PAIR_CNT_PROMOTE
  let s := s.raise 0xA003 178 (b2n rerun) r 0 0
  let s := (s.setPair fun x => { x with rx := none, openAt := s.clk + 160, probeBad := [], promoLate := s.bt.running && s.bt.deadline }).commitPubs
  let s := s.when cold fun t => t.allLost
  if rerun then
    let held := s.groom.ready
    let s := s.setGroom fun x => { x with ready := [] }
    let s := (s.each held fun i t => t.recheck i).makePlan s.beat r
    (s.bump F.PAIR_CNT_RERUN).when s.bt.dispatchOpen fun t => t.forward t.beat
  else s

/-- The partner is lost, by cause (R284): what follows for each state (R297, R300). -/
def State.partnerLost (s : State) (cause : Nat) : State :=
  if s.pair.lost.isSome ∨ s.pair.pState.isNone ∨ s.role < 2 ∨ s.role = 6 then s
  else
    let s := ((s.setPair fun x => { x with lost := some cause }).bump F.PAIR_CNT_LOST).raise 0xA002 178 cause 0 0 0
    let s := s.setPair fun x => { x with resync := none }
    if s.role = 2 then
      (if (s.sync = 2 ∨ s.bit F.PAIR_CFG_COLD_TAKE) ∧ (!s.bit F.PAIR_STATUS_IL_QUIET ∨ cause = 3) ∧ s.pair.strapOk ∧ tqRuns s.tq then
        s.promoteNow
      else s.stale 0)
    else s.soloBy s.beat

/-! Enabling (R311, R313). -/

/-- The block is disabled: ACT_OUT_N released, SYNC COLD. -/
def State.pairOff (s : State) : State :=
  let s := ((s.put F.PAIR_CTRL_EN 0).put F.PAIR_STATUS_RUNNING 0).toRole 0
  let s := (s.setSync 0 0).put F.PAIR_CTRL_HANDOVER 0
  let s := s.put F.PAIR_CTRL_HANDOVER_COLD 0
  let x := s.pair
  { s with pair := { PairSt.init with strapB := x.strapB, sig := x.sig, actIn := x.actIn, actInAt := x.actInAt, lastTx := x.lastTx } }

/-- What EN = 1 asks: fields in their ranges. -/
def State.pairOk (s : State) : Bool :=
  let inR := fun (x a b : Nat) => decide (a ≤ x ∧ x ≤ b)
  inR (s.get F.PAIR_HB_CFG_MISS) 2 15 && inR (s.get F.PAIR_HB_CFG_PERIOD) 20 1000 && inR (s.get F.PAIR_HB_CFG_LISTEN_TMO) 1 255
    && inR (s.get F.PAIR_RS_CFG) 64 16384 && inR (s.get F.PAIR_PROBE_CFG) 0 256

def State.pairOn (s : State) : State :=
  let s := ((s.flag F.PAIR_CTRL_EN).flag F.PAIR_STATUS_RUNNING).put F.PAIR_STATUS_CFG_ERR 0
  let s := (s.put F.PAIR_STATUS_SYNC 0).setPair fun x =>
    { x with actOut := some true, listenAt := s.clk, listenMoved := false, lastRx := s.clk, lost := none, pState := none }
  s.toRole (if s.bit F.PAIR_CFG_MODE then 1 else 5)

/-! Requests through PAIR_CTRL. -/

/-- HANDOVER (R308). -/
def hoRequest (s : State) : State :=
  if s.role = 4 then s.flag F.PAIR_CTRL_HANDOVER else s.flag F.PAIR_STATUS_HO_REFUSED

/-- HANDOVER_COLD (R309): at the next edge that is a whole second and whose cut-off lies ahead. -/
def hoColdRequest (s : State) : State :=
  if (s.role = 4 ∨ s.role = 5) ∧ s.pair.pState = some 2 ∧ s.pair.lost.isNone then
    let n := s.rate
    let from' := s.beat + (if s.bt.decision.isSome then 2 else 1)
    (s.flag F.PAIR_CTRL_HANDOVER_COLD).setPair fun x => { x with coldAt := some (ceilDiv from' n * n) }
  else s.flag F.PAIR_STATUS_HO_REFUSED

/-- A pass can start (R302). -/
def State.mayResync (s : State) : Bool :=
  s.role == 5 && s.bit F.PAIR_CFG_MODE && s.pair.resync.isNone && s.pair.lost.isNone && s.pair.pState == some 2
    && bitOf (s.get F.PAIR_PHEALTH) 0 && (s.pSync == 0 || s.pSync == 3 || s.pair.rsWant) && !s.bit F.PAIR_STATUS_FOREIGN

def resyncRequest (s : State) : State :=
  if s.mayResync then s.startResync.setPair fun x => { x with rsWant := false } else s

/-- FAILED (R301): FAILING is sent with a cause that the spec does not state, and toggling stops. -/
def failNow (s : State) : State :=
  if s.role = 0 ∨ s.role = 6 then s
  else
    let v := s.freeVal 16
    (s.useFree.pairSend 9 0 s.beat (beBytes 2 v ++ beBytes 6 0)).toRole 6

/-- A write of PAIR_CTRL. -/
def pairCtrlWrite (d : Nat) (s : State) : State :=
  if s.role = 6 then s
  else if !bitOf d 0 then (if s.bit F.PAIR_CTRL_EN then s.pairOff else s)
  else
    let s := if s.bit F.PAIR_CTRL_EN then s else if s.pairOk then s.pairOn else s.flag F.PAIR_STATUS_CFG_ERR
    let s := s.when (bitOf d 2) resyncRequest
    let s := s.when (bitOf d 3) hoRequest
    let s := s.when (bitOf d 4) hoColdRequest
    s.when (bitOf d 5) failNow

def execPairEnable (m : Master) (d : Nat) (s : State) : Res := fin (s.regWrite m 0xA00000 (pairCtrlWrite d))
def execPairHandover (m : Master) (s : State) : Res := fin (s.regWrite m 0xA00000 fun t => if t.role = 6 then t else hoRequest t)
def execPairHandoverCold (m : Master) (s : State) : Res :=
  fin (s.regWrite m 0xA00000 fun t => if t.role = 6 then t else hoColdRequest t)
def execPairResync (m : Master) (s : State) : Res := fin (s.regWrite m 0xA00000 resyncRequest)

/-- A write of FAILING by a master, or a lockstep failure of the yardmaster (none). -/
def execPairFailing (m : Option Master) (s : State) : Res :=
  fin (match m with
    | some m => s.regWrite m 0xA00000 failNow
    | none => failNow s)

/-! Frames sent (R283, R284). -/

def execHelloTx (dt : Nat) (s : State) : Res :=
  let s := s.elapse dt
  let gap := if s.role = 1 then 10000 else 1000000
  fin (if s.role = 0 ∨ s.clk < s.pair.helloAt + gap then s
    else
      let body := beBytes 2 s.deviceId ++ beBytes 1 (b2n s.pair.strapB) ++ beBytes 1 s.role ++ beBytes 4 (s.get F.DEVID)
        ++ beBytes 1 (s.get F.IDENT_COMPAT) ++ beBytes 1 (s.get F.PAIR_CFG_PREFER) ++ beBytes 6 0 ++ s.pair.sig
      (s.pairSend 1 0 s.beat body).setPair fun x => { x with helloAt := s.clk })

/-- PERIOD in ns. -/
def State.hbPeriod (s : State) : Nat := 10 * s.get F.PAIR_HB_CFG_PERIOD

def execHeartbeatTx (dt : Nat) (s : State) : Res :=
  let s := s.elapse dt
  fin (if s.role = 0 ∨ s.clk < s.pair.lastTx + s.hbPeriod then s
    else s.pairSend 2 0 s.beat (beBytes 6 (s.nowNs / 1000000000) ++ beBytes 4 (s.nowNs % 1000000000) ++ beBytes 1 s.role
      ++ beBytes 1 0 ++ beBytes 4 (s.get F.PAIR_HEALTH)))

def execHeartbeatMiss (dt : Nat) (s : State) : Res :=
  let s := s.elapse dt
  fin (if s.pair.lastRx + s.get F.PAIR_HB_CFG_MISS * s.hbPeriod ≤ s.clk then s.partnerLost 2 else s)

/-- The PCS of the pair link gains or loses lock. -/
def pairLinkLock (up : Bool) (dt : Nat) (s : State) : State :=
  let s := s.elapse dt
  if up && (s.domState 18 != 0 || s.lrefGone 0) then s
  else if up == s.bit F.PAIR_STATUS_LINK_UP then s
  else
    let s := (s.putB F.PAIR_STATUS_LINK_UP up).raise 0xA00E 178 (b2n up) 0 0 0
    let s := s.setPair fun x => { x with rxSeq := none, rx := none, rxBad := 0 }
    if up then s else s.partnerLost 1

def execPairLinkLock (up : Bool) (dt : Nat) (s : State) : Res := fin (pairLinkLock up dt s)

/-! Frames received (R283). -/

/-- A received frame as its header says. -/
structure PFrame where
  flags : Nat
  beat : Nat
  pay : List Byte
  deriving DecidableEq, Repr

/-- A frame is discarded; one that may belong to a delta leaves status `st` for it. -/
def State.pairDiscard (s : State) (typ st : Nat) : State :=
  let s := s.setPair fun x => { x with
    rxBad := if (x.rx.isSome || typ == 3) && (x.rxBad == 0 || decide (st < x.rxBad)) then st else x.rxBad,
    rsRx := x.rsRx.map fun r => (r.1, false) }
  if s.role = 2 ∧ (s.sync = 2 ∨ s.sync = 1) then s.setSync 3 st else s

/-- The header tests of R283, for a frame of type `typ`. A frame of an unknown TYPE is discarded. -/
def State.pairRx (s : State) (typ : Nat) (bs : List Byte) : State × Option PFrame :=
  if s.role = 0 ∨ !s.bit F.PAIR_STATUS_LINK_UP then (s, none)
  else
    let s := s.setPair fun x => { x with lastRx := s.clk, lost := none }
    let n := bs.length - 4
    if bs.length < 20 ∨ beAt bs 2 2 + 20 ≠ bs.length ∨ 32768 < beAt bs 2 2 ∨ crc32c (bs.take n) ≠ beAt bs n 4 then
      ((s.bump F.PAIR_CNT_CRC).pairDiscard typ 1, none)
    else
      let q := beAt bs 4 4
      let ok := match s.pair.rxSeq with
        | none => true
        | some p => q == (p + 1) % 2 ^ 32
      let s := s.setPair fun x => { x with rxSeq := some q }
      if !ok then ((s.bump F.PAIR_CNT_SEQ_GAP).pairDiscard typ 3, none)
      else if beAt bs 0 1 = 0 ∨ 10 < beAt bs 0 1 then (if s.role = 2 ∧ s.sync = 2 then s.setSync 3 0 else s, none)
      else if beAt bs 0 1 ≠ typ then (s, none)
      else (s, some ⟨beAt bs 1 1, beAt bs 8 8, (bs.take n).drop 16⟩)

/-- A frame received: time passes, and an accepted frame has its effect. -/
def pairFrame (typ : Nat) (bs : List Byte) (dt : Nat) (g : PFrame → State → State) (s : State) : State :=
  match (s.elapse dt).pairRx typ bs with
  | (t, none) => t
  | (t, some f) => g f t

/-- The partner reports its state (R296, R309): entering STANDBY it is sent the mask; when both are STANDBY, the device that
was standby takes the role over at the next edge (assumption log 83). -/
def State.partnerState (s : State) (st : Nat) : State :=
  let old := s.pair.pState
  let s := s.setPair fun x => { x with pState := some st }
  let s := s.when (st == 2 && old != some 2) fun t => t.sendSlices true
  if s.role = 2 ∧ st = 2 ∧ (old = some 4 ∨ old = some 5) ∧ s.pair.coldAt.isNone then
    s.setPair fun x => { x with coldAt := some s.bt.next }
  else s

/-- HELLO (R311 to R313). -/
def helloRx (f : PFrame) (s : State) : State :=
  let strap := beAt f.pay 2 1
  let st := beAt f.pay 3 1
  let prefer := beAt f.pay 9 1
  let foreign := (f.pay.drop 16).take 48 != s.pair.sig
  let same := strap == b2n s.pair.strapB
  let s := (s.put F.PAIR_PEER_STRAP strap).put F.PAIR_PEER_DEVICE_ID (beAt f.pay 0 2)
  let s := s.when (foreign && !s.bit F.PAIR_STATUS_FOREIGN) fun t => t.raise 0xA00C 178 2 0 0 0
  let s := s.when (same && s.pair.pStrap != some strap) fun t => t.raise 0xA00C 178 1 0 0 0
  let s := (s.putB F.PAIR_STATUS_FOREIGN foreign).setPair fun x =>
    { x with pStrap := some strap, strapOk := !same, listenAt := s.clk, listenMoved := false }
  let s := s.partnerState st
  if s.role ≠ 1 ∨ same then s
  else if st = 1 then
    let own := s.get F.PAIR_CFG_PREFER
    let pref := if prefer = own then own else 0
    let s := s.when (prefer != own) fun t => t.raise 0xA00C 178 3 0 0 0
    if b2n s.pair.strapB = pref then s.toRole 5 else (s.setSync 0 0).toRole 2
  else if st = 4 ∨ st = 5 then (s.setSync 0 0).toRole 2
  else if st = 2 ∨ st = 6 then s.toRole 5
  else s

def execHelloRx (bs : List Byte) (dt : Nat) (s : State) : Res := fin (pairFrame 1 bs dt helloRx s)

/-- A health word of the partner (R300, R304, R307). -/
def State.healthIn (s : State) (w : Nat) : State :=
  let old := s.pSync
  let s := (s.put F.PAIR_PHEALTH w).partnerState (bitsOf w 28 4)
  let s := s.when (s.role == 4 && s.pSync != 2) fun t => t.soloBy (t.beat + 1)
  if s.pair.resync.isSome ∧ s.role = 5 ∧ old = 1 ∧ (s.pSync = 3 ∨ s.pSync = 0) then s.startResync else s

/-- HEARTBEAT (R284, R291): PAIR_SKEW and its bound. -/
def heartbeatRx (f : PFrame) (s : State) : State :=
  let t := beAt f.pay 0 6 * 1000000000 + beAt f.pay 6 4
  let k : Int := (t : Int) + s.get F.PAIR_RTT / 2 - s.nowNs
  let s := (s.partnerState (beAt f.pay 10 1)).put F.PAIR_SKEW (ofSigned 32 k)
  let s := s.healthIn (beAt f.pay 12 4)
  if 40 < k.natAbs then
    let n := s.pair.skewRun + 1
    let s := (s.bump F.PAIR_CNT_SKEW).setPair fun x => { x with skewRun := n }
    s.when (n == 16) fun t => (t.flag F.PAIR_STATUS_SKEW_BAD).raise 0xA00A 178 (ofSigned 32 k) 0 0 0
  else (s.put F.PAIR_STATUS_SKEW_BAD 0).setPair fun x => { x with skewRun := 0 }

def execHeartbeatRx (bs : List Byte) (dt : Nat) (s : State) : Res := fin (pairFrame 2 bs dt heartbeatRx s)

/-! Deltas received (R287, R288). -/

/-- The records agree with END: BEGIN first, END last, COUNT and CRC. -/
def deltaWhole (l : List (List Byte)) : Bool :=
  match l.getLast? with
  | none => false
  | some e =>
    recType (l.headD []) == 0x10 && recType e == 0x1F && beAt e 4 4 == l.length && beAt e 16 8 == crc64 l.dropLast.flatten

/-- The status of a delta in the order of the ACK table. Across grids the beat numbers differ as they must (R309): that alone
refuses no delta of a standby that can take it. -/
def State.ackStatus (s : State) (l : List (List Byte)) (whole : Bool) : Nat :=
  let b := l.headD []
  let hot := s.sync == 2 || (s.sync == 1 && bitOf (beAt b 1 1) 1 && s.pair.rsDone)
  if s.bit F.PAIR_STATUS_FOREIGN then 6
  else if s.pair.rxBad = 1 ∨ (!whole ∧ s.pair.rxBad = 0) then 1
  else if whole ∧ beAt b 8 8 ≠ s.beat ∧ !(s.bit F.PAIR_STATUS_GRID ∧ hot) then 2
  else if s.pair.rxBad ≠ 0 then s.pair.rxBad
  else if bitOf (beAt (l.getLastD []) 1 1) 0 then 4
  else if !hot then 5
  else if (b.drop 16).take 8 ≠ s.pair.sig.take 8 then 6
  else 0

/-- Send the acknowledgement. -/
def State.sendAck (s : State) (beat status : Nat) : State :=
  let s := s.when (status != 0) fun t => t.bump F.PAIR_CNT_NACK
  s.pairSend 4 0 beat (beBytes 1 status ++ beBytes 3 0 ++ beBytes 4 (s.get F.PAIR_HEALTH))

/-- A BEGIN that carries another beat than the own one: GRID, event 0xA009 (R313). -/
def State.beginBeat (s : State) (l : List (List Byte)) : State :=
  let b := l.headD []
  if recType b ≠ 0x10 then s
  else
    let bad := beAt b 8 8 != s.beat
    let s := s.when (bad && !s.bit F.PAIR_STATUS_GRID) fun t => t.raise 0xA009 178 (beAt b 8 8) t.beat 0 0
    s.putB F.PAIR_STATUS_GRID bad

/-- A delta is complete: it is acknowledged, and staged when the status is OK. -/
def State.deltaEnd (s : State) (beat : Nat) (bs : List Byte) : State :=
  let l := (splitRecs bs.length bs).getD []
  let whole := deltaWhole l
  let st := s.ackStatus l whole
  let s := (s.beginBeat l).sendAck beat st
  let s := s.setPair fun x => { x with rx := none, rxBad := 0 }
  if st ≠ 0 then (s.setPair fun x => { x with rsDone := false }).stale st
  else
    let body := (l.drop 1).dropLast
    let flags := beAt (l.headD []) 1 1
    let s := s.each (body.filter fun r => recType r == 0x14) fun r t => t.commitFreeze beat r
    let rest := body.filter fun r => recType r != 0x14 && recType r != 0x15
    let s := s.commitPubs.setPair fun x => { x with
      staged := some (beat, rest), pubWait := some (beat, body.filter fun r => recType r == 0x15), hoRx := bitOf flags 0, hoAckAt := s.clk }
    if s.sync = 1 then
      let s := (s.setSync 2 0).raise 0xA006 178 (ceilDiv s.pair.rsBytes 1024) (beat - s.pair.rsStart) 0 0
      s.setPair fun x => { x with rsDone := false, rsRx := none }
    else s

def deltaRx (f : PFrame) (s : State) : State :=
  if s.role ≠ 2 then s
  else
    let starts := beAt f.pay 0 1 == 0x10
    let old := match s.pair.rx with
      | none => []
      | some (_, p, _) => if starts then [] else p
    let bs := old ++ f.pay
    let s := s.setPair fun x => { x with rx := some (f.beat, bs, 0), rxBad := if starts then 0 else x.rxBad }
    if bitOf f.flags 0 then s.deltaEnd f.beat bs else s

/-- A DELTA frame; the last one of a delta is answered even when its SEQ or its CRC has it discarded (R287). -/
def execDeltaRx (bs : List Byte) (dt : Nat) (s : State) : Res :=
  fin (match (s.elapse dt).pairRx 3 bs with
    | (t, some f) => deltaRx f t
    | (t, none) =>
      if t.role = 2 ∧ t.pair.rxBad ≠ 0 ∧ beAt bs 0 1 = 3 ∧ bitOf (beAt bs 1 1) 0 then t.deltaEnd (beAt bs 8 8) [] else t)

/-- The cut-off of the present beat in ns of device time. -/
def State.cutoffNs (s : State) : Nat := edgeNs s.rate s.bt.next - 250

/-- ACK (R286, R259, R300, R304, R308). One in the datapath cycle of the cut-off or later is late (R260): it decides nothing. -/
def ackRx (f : PFrame) (s : State) : State :=
  let st := beAt f.pay 0 1
  let s := s.healthIn (beAt f.pay 4 4)
  if f.beat ≠ s.beat ∨ !s.sealSt.endSent ∨ s.sealSt.ack.isSome then s
  else
    let rtt := min (s.clk - s.pair.endAt) 65535
    let s := (s.put F.PAIR_RTT rtt).put F.PAIR_RTT_MAX (max rtt (s.get F.PAIR_RTT_MAX))
    let late := s.bt.decision.isSome || s.reached s.cutoffNs
    let s := s.setSeal fun x => { x with ack := if late then x.ack else some st }
    let s := s.when (st != 0) fun t => (t.bump F.PAIR_CNT_NACK).soloBy (t.beat + 1)
    let s := if s.pair.hoSent then
        (if st = 0 then s.setPair fun x => { x with hoOk := true }
         else ((s.put F.PAIR_CTRL_HANDOVER 0).flag F.PAIR_STATUS_HO_REFUSED).setPair fun x => { x with hoSent := false, hoWant := false })
      else s
    match s.pair.resync with
    | some x =>
      if x.offered && !late then
        (if st = 0 then s.raise 0xA006 178 (ceilDiv x.bytes 1024) (s.beat - x.start) 0 0 else s.startResync)
      else s
    | none => s

def execAckRx (bs : List Byte) (dt : Nat) (s : State) : Res := fin (pairFrame 4 bs dt ackRx s)

/-- OUTCOME (R288). -/
def outcomeRx (f : PFrame) (s : State) : State :=
  match s.pair.pubWait with
  | some (b, _) =>
    if s.role ≠ 2 ∨ b ≠ f.beat then s
    else if beAt f.pay 0 1 = 1 then s.commitPubs
    else if beAt f.pay 0 1 = 2 then s.setPair fun x => { x with pubWait := none }
    else s
  | none => s

def execOutcomeRx (bs : List Byte) (dt : Nat) (s : State) : Res := fin (pairFrame 5 bs dt outcomeRx s)

/-- One DIGEST record against the own slab, where there is one (R295). -/
def State.digestCheck (s : State) (r : List Byte) : State :=
  let g := beAt r 0 2
  match (s.group g).wins.find? fun w => w.closed && w.k % 2 ^ 32 == beAt r 4 4 with
  | none => s
  | some w =>
    if s.yLe (slabAddr (s.group g).e w.k + 56) 8 = beAt r 8 8 then s.setPair fun x => { x with digRun := Table.erase g x.digRun }
    else
      let n := Table.at 0 g s.pair.digRun + 1
      let s := (s.bump F.PAIR_CNT_DIGEST).setPair fun x => { x with digRun := Table.insert g n x.digRun, digMiss := x.digMiss + 1 }
      s.when (n == 16) fun t => t.raise 0xA008 178 g 0 0 (w.k % 2 ^ 32)

/-- Chunks of `n` bytes. -/
def chunks (n : Nat) (bs : List Byte) : List (List Byte) := (List.range (bs.length / n)).map fun i => (bs.drop (n * i)).take n

def digestRx (f : PFrame) (s : State) : State :=
  if s.role = 2 then s.each (chunks 16 f.pay) fun r t => t.digestCheck r else s

def execDigestRx (bs : List Byte) (dt : Nat) (s : State) : Res := fin (pairFrame 6 bs dt digestRx s)

def noticeRx (f : PFrame) (s : State) : State :=
  if s.role = 2 then s.each ((chunks 72 f.pay).filter fun r => recType r == 0x22) fun r t => t.commitRec r else s

def execNoticeRx (bs : List Byte) (dt : Nat) (s : State) : Res := fin (pairFrame 7 bs dt noticeRx s)

/-- One record of a RESYNC frame (R303, R304). A trailing delta's BEGIN gives the run beat of its FREEZE records (R147). -/
def State.rsRecord (s : State) (r : List Byte) : State :=
  if recType r = 0x20 then
    (s.setSync 1 0).setPair fun x => { x with
      rsRx := some (1, true), rsDone := false, rsBytes := beAt r 4 4, rsStart := beAt r 8 8, staged := none, pubWait := none }
  else
    match s.pair.rsRx with
    | none => s
    | some (n, ok) =>
      let s := s.setPair fun x => { x with rsRx := some (n + 1, ok) }
      if recType r = 0x2F then s.setPair fun x => { x with rsDone := ok && beAt r 4 4 == n + 1 }
      else if recType r = 0x15 then s.commitPub r
      else if recType r = 0x10 then s.setPair fun x => { x with rsBeat := beAt r 8 8 }
      else if recType r = 0x14 then s.commitFreeze s.pair.rsBeat r
      else s.commitRec r

def resyncRx (f : PFrame) (s : State) : State :=
  if s.role ≠ 2 ∨ s.bit F.PAIR_STATUS_FOREIGN then s
  else match splitRecs f.pay.length f.pay with
    | none => s.setPair fun x => { x with rsRx := x.rsRx.map fun r => (r.1, false) }
    | some l => s.each l fun r t => t.rsRecord r

def execResyncRx (bs : List Byte) (dt : Nat) (s : State) : Res := fin (pairFrame 8 bs dt resyncRx s)

def execFailingRx (bs : List Byte) (dt : Nat) (s : State) : Res := fin (pairFrame 9 bs dt (fun _ t => t.partnerLost 3) s)

def execSlicesRx (bs : List Byte) (dt : Nat) (s : State) : Res :=
  fin (pairFrame 10 bs dt (fun f t => if t.role = 2 then t.putPfrozen (leAt f.pay 0 32) else t) s)

/-! The interlock (R289, R290, R292). -/

/-- ACT_OUT_N inverts and is read back. -/
def State.toggle (s : State) (readback : Bool) : State :=
  let lvl := !(s.pair.actOut.getD true)
  let ok := readback == lvl
  let s := s.setPair fun x => { x with actOut := some lvl, toggled := x.toggled || ok, rbBad := x.rbBad || !ok }
  if ok then s
  else
    let s := s.rbFault
    if s.role = 4 ∧ s.pHot then s.setPair fun x => { x with hoWant := true }
    else s.raise 0xA007 178 1 0 0 0

/-- The provisional toggle of a PROMOTING device. -/
def provisionalToggle (readback : Bool) (s : State) : State :=
  if s.role ≠ 3 ∨ !s.bt.running then s
  else
    let s := s.toNs (s.cutoffNs + 80)
    if s.pair.inWindow then s.setPair fun x => { x with refrained := true } else s.toggle readback

def execProvisionalToggle (readback : Bool) (s : State) : Res := fin (provisionalToggle readback s)

/-- The gate of R290, which every life-cycle state but BENCH and FIELD keeps closed (R455). -/
def State.gateResult (s : State) : Bool :=
  (s.life == 1 || s.life == 2) && (s.pair.stateAtC == 3 || s.pair.stateAtC == 4 || s.pair.stateAtC == 5) && s.pair.toggled
    && !s.pair.rbBad && !s.pair.inWindow

def egressGateSample (s : State) : State :=
  if !s.bt.running then s
  else
    let s := s.toNs (s.cutoffNs + 230)
    let g := s.gateResult
    (s.putB F.PAIR_STATUS_GATE_OPEN g).setBt fun x => { x with gateOpen := some g }

def execEgressGateSample (s : State) : Res := fin (egressGateSample s)

/-- A transition on ACT_IN_N. -/
def actInTransition (dt : Nat) (s : State) : State :=
  let s := s.elapse dt
  let c := s.cutoffNs
  let inside := s.bt.running && decide (c - 60 ≤ s.nowNs ∧ s.nowNs ≤ c + 230)
  let s := s.setPair fun x => { x with
    actIn := !x.actIn, actInAt := some s.nowNs, quiet := 0, listenMoved := true, inWindow := x.inWindow || inside }
  let s := s.put F.PAIR_STATUS_IL_QUIET 0
  s.when (inside && (s.role == 4 || s.role == 5)) fun t => (t.bump F.PAIR_CNT_SPLIT).raise 0xA00D 178 t.role 0 0 0

def execActInTransition (dt : Nat) (s : State) : Res := fin (actInTransition dt s)

def listenTmo (dt : Nat) (s : State) : State :=
  let s := s.elapse dt
  if s.role ≠ 1 ∨ s.clk < s.pair.listenAt + s.get F.PAIR_HB_CFG_LISTEN_TMO * 100000000 then s
  else if s.pair.listenMoved then
    (s.raise 0xA007 178 3 0 0 0).setPair fun x => { x with listenAt := s.clk, listenMoved := false }
  else s.toRole 5

def execListenTmo (dt : Nat) (s : State) : Res := fin (listenTmo dt s)

/-! The standby at work (R305, R306). -/

/-- The stall number to probe: one that answered wrong in an earlier beat, else the next idle one in turn. -/
def State.probeStall (s : State) : Option Nat :=
  match s.pair.probeBad.find? fun x => decide (x.2 < s.beat) with
  | some x => some x.1
  | none =>
    let l := s.idleStalls
    match l.find? fun n => decide (s.pair.probeNext ≤ n) && s.pair.probeBad.all fun x => x.1 != n with
    | some n => some n
    | none => l.find? fun n => s.pair.probeBad.all fun x => x.1 != n

/-- A probe item ends on the stall whose turn it is; probes run in every quality in which edges occur (R33, R305). -/
def probeDone (ok : Bool) (dt : Nat) (s : State) : State :=
  let s := s.elapse dt
  if s.role ≠ 2 ∨ !s.bit F.BEAT_CTRL_EN ∨ s.bt.deadline ∨ s.get F.PAIR_PROBE_CFG ≤ s.pair.probesDone then s
  else match s.probeStall with
    | none => s
    | some n =>
      let again := s.pair.probeBad.any fun x => x.1 == n
      let s := (s.bump F.PAIR_CNT_PROBES).setPair fun x => { x with
        probesDone := x.probesDone + 1, probeNext := n + 1, probeBad := x.probeBad.filter fun y => y.1 != n }
      if ok then s
      else
        let s := (s.bump F.PAIR_CNT_PROBE_FAIL).setPair fun x => { x with probeFail := true }
        if again then
          let s := s.raise 0xA00B 178 n 0 0 0
          match s.stallPhys n with
          | some k => s.stallFail k
          | none => s
        else s.setPair fun x => { x with probeBad := x.probeBad ++ [(n, s.beat)] }

def execProbeDone (ok : Bool) (dt : Nat) (s : State) : Res := fin (probeDone ok dt s)

/-- The driver test drives ACT_OUT_N to the other level, and back. -/
def State.testDrive (s : State) (readback : Bool) (on : Bool) : State :=
  let lvl := !(s.pair.actOut.getD true)
  let s := s.setPair fun x => { x with actOut := some lvl, testing := on }
  if readback == lvl then s else s.rbFault.raise 0xA007 178 1 0 0 0

def driverTest (readback : Bool) (s : State) : State :=
  if s.role ≠ 2 ∨ s.pair.testing then s
  else
    let e := edgeNs s.rate s.beat
    (s.toNs (e + (edgeNs s.rate s.bt.next - e - s.sealNs) / 2)).testDrive readback true

def execDriverTest (readback : Bool) (s : State) : Res := fin (driverTest readback s)

/-- 1.0 µs after it began, in every state that it may have reached meanwhile. -/
def execDriverTestEnd (readback : Bool) (s : State) : Res :=
  fin (if s.pair.testing then (s.elapse 1000).testDrive readback false else s)

/-! The beat: delta, cut-off, edge. -/

/-- Every beat's delta at its close (R257, R258, R302, R304): copied in ACTIVE, and in SOLO as the sync point; kept for the
resync pass otherwise. -/
def State.copyDelta (s : State) (b size : Nat) (oversize : Bool) (freezes : List OutRec) : State :=
  let body := s.deltaBody b freezes
  let s := s.setSeal fun x => { x with endSent := false, ack := none, oversize := oversize }
  let sp : Bool := match s.pair.resync with
    | some x => s.role == 5 && x.ended
    | none => false
  if s.role = 4 ∨ sp then
    let ho := s.role == 4 && (s.bit F.PAIR_CTRL_HANDOVER || s.pair.hoWant)
    let l := s.deltaRecs b (b2n ho + 2 * b2n sp) size oversize body
    let up := s.bit F.PAIR_STATUS_LINK_UP
    let sent := l.flatten.length
    let s := s.sendAll 3 b (packRecs l [])
    let s := s.when oversize fun t => t.soloBy (b + 1)
    let s := s.setSeal fun x => { x with endSent := up }
    s.setPair fun x => { x with endAt := s.clk + sent / 50, hoSent := ho && !oversize, hoOk := false,
                                resync := x.resync.map fun r => if sp then { r with offered := true } else r }
  else
    s.setPair fun x => { x with resync := x.resync.map fun r =>
      { r with trail := r.trail ++ recBegin 0 s.tq size b x.sig :: body ++ [recEnd false (body.length + 2) b (recBegin 0 s.tq size b x.sig :: body)] } }

/-- Roles change at the cut-off (R300, R304). -/
def State.cutoffRole (s : State) : State :=
  let synced : Bool := match s.pair.resync with
    | some x => x.offered && s.role == 5
    | none => false
  if synced then
    (if s.sealSt.ack = some 0 then (s.toRole 4).setPair fun x => { x with resync := none, soloAt := none } else s.startResync)
  else if s.role = 4 ∧ s.pair.soloAt.any (fun n => n ≤ s.beat) then (s.toRole 5).setPair fun x => { x with soloAt := none }
  else s

/-- The emit decision of R259 with the marks that it leaves. A device in STANDBY marks STANDBY; one in OFF, LISTEN or FAILED
decides to withhold without a mark of its own, so that its beat is WITHHELD as in the pseudocode of R29 (DESIGN CHOICE,
assumption log 129). -/
def State.decide' (s : State) : State × Bool :=
  if s.role = 2 then (s.setRes fun r => { r with standby := true }, false)
  else if s.role = 1 ∨ s.role = 6 ∨ s.role = 0 then (s, false)
  else
    let sealed' := fun (t : State) => t.setRes fun r => { r with isSealed := true }
    if s.role = 5 ∨ s.role = 3 then (sealed' (s.setRes fun r => { r with unpaired := true }), !(s.role == 3 && s.pair.promoLate))
    else if s.sealSt.oversize ∨ !s.sealSt.endSent then (sealed' (s.setRes fun r => { r with uncopied := true }), false)
    else match s.sealSt.ack with
      | some 0 => (sealed' s, true)
      | some _ => (sealed' (s.setRes fun r => { r with uncopied := true }), false)
      | none => (sealed' (s.setRes fun r => { r with ackLate := true }), false)

/-- The cut-off: roles, decision, toggle (R259, R289). A device that hands over cold at this edge toggles no more. -/
def ackCutoff (readback : Bool) (s : State) : State :=
  if !s.bt.running ∨ s.bt.decision.isSome then s
  else
    let s := (s.toNs s.cutoffNs).cutoffRole
    let (s, d) := s.decide'
    let s := (s.setBt fun x => { x with decision := some d }).setPair fun x => { x with stateAtC := s.role }
    if (s.role = 4 ∨ s.role = 5) ∧ s.pair.coldAt ≠ some s.bt.next then s.toggle readback else s

/-- The digests of the slabs closed at the edge of `b` go to the partner (R295). -/
def State.sendDigests (s : State) (b : Nat) : State :=
  if (s.role = 4 ∨ s.role = 5) ∧ s.pair.pState = some 2 ∧ s.pair.lost.isNone then
    let recs := (s.cutSlabs b).map fun x =>
      beBytes 2 x.1 ++ beBytes 2 0 ++ beBytes 4 (x.2 % 2 ^ 32) ++ (beBytes 8 (s.yLe (slabAddr (s.group x.1).e x.2 + 56) 8))
    if recs.isEmpty then s else s.sendAll 6 b (packRecs recs [])
  else s

/-- The health word (R307); `degraded` says whether corrected FEC codewords exceeded their bound. -/
def State.healthWord (s : State) (tq0 : Nat) (degraded : Bool) : Nat :=
  s.role * 2 ^ 28 + s.sync * 2 ^ 26 + b2n s.pair.probeFail * 2 ^ 25 + b2n s.pair.mtestErr * 2 ^ 24 + b2n (timeValid tq0) * 2 ^ 23
    + tq0 % 8 * 2 ^ 20 + min s.pair.digMiss 15 * 2 ^ 16 + min s.nSvc 1024 * 2 ^ 5 + b2n degraded * 2 ^ 4
    + b2n (s.bit F.PAIR_STATUS_SKEW_BAD) * 8 + b2n (s.bit F.PAIR_STATUS_IL_RB_FAULT || s.bit F.PAIR_STATUS_IL_QUIET) * 4
    + b2n (s.bit F.PAIR_STATUS_FOREIGN) * 2 + 1

/-- The old active device's side of a handover at the edge of `b` (R308, R309). -/
def State.hoOut (s : State) (b : Nat) : State :=
  if s.pair.hoSent then
    let s' := s.setPair fun x => { x with hoSent := false, hoOk := false, hoWant := false }
    let s' := s'.put F.PAIR_CTRL_HANDOVER 0
    if s.pair.hoOk ∧ s.role = 4 then
      let cold := s.bit F.PAIR_STATUS_GRID
      (((s'.toRole 2).setSync (if cold then 0 else 2) 0).bump F.PAIR_CNT_HANDOVER).raise 0xA004 178 0 0 0 0
    else s'.flag F.PAIR_STATUS_HO_REFUSED
  else if s.pair.coldAt = some b ∧ (s.role = 4 ∨ s.role = 5) then
    let s := (s.setPair fun x => { x with coldAt := none }).put F.PAIR_CTRL_HANDOVER_COLD 0
    (((s.toRole 2).setSync 0 0).bump F.PAIR_CNT_HANDOVER).raise 0xA004 178 1 0 0 0
  else s

/-- The standby's side: the staged delta is committed and, for a handover, the role taken. Across grids the commit waits
for an edge at least 0.5 µs after the acknowledgement. -/
def State.hoIn (s : State) (b : Nat) : State :=
  let grid := s.bit F.PAIR_STATUS_GRID
  if s.pair.hoRx ∧ s.role = 2 then
    if grid ∧ s.clk < s.pair.hoAckAt + 500 then s
    else
      let s := s.commitStaged.commitPubs.setPair fun x => { x with hoRx := false }
      (((s.toRole (if grid then 5 else 4)).bump F.PAIR_CNT_HANDOVER).raise 0xA004 178 0 0 0 0).freezeLost
  else
    let s := s.commitStaged
    if s.pair.coldAt = some b ∧ s.role = 2 then
      let s := (s.setPair fun x => { x with coldAt := none }).commitPubs
      (((s.toRole 5).allLost.bump F.PAIR_CNT_HANDOVER).raise 0xA004 178 1 0 0 0).freezeLost
    else s

/-- A PROMOTING device at the edge (R298). -/
def State.promoEdge (s : State) : State :=
  if s.role ≠ 3 then s
  else if s.pair.refrained then ((s.raise 0xA00D 178 3 0 0 0).toRole 2).setSync 3 0
  else if s.pair.toggled ∨ s.pair.rbBad then (s.toRole 5).freezeLost
  else s

/-- The edge of beat `b` for the pair, which ends run beat `r` with quality `tq0`: the outcome to the partner, handovers,
IL_QUIET (R297), the health word. -/
def State.pairEdge (s : State) (b r : Nat) (emitted : Bool) (tq0 : Nat) (degraded : Bool) : State :=
  if s.role = 0 then s.setPair fun x => { x with toggled := false, rbBad := false, inWindow := false, refrained := false }
  else
    let s := s.when (s.role == 4 && s.bt.running) fun t => t.pairSend 5 0 r (beBytes 1 (if emitted then 1 else 2) ++ beBytes 7 0)
    let s := (s.promoEdge.hoOut b)
    let s := s.hoIn b
    let q := s.pair.quiet + 1
    let s := s.setPair fun x => { x with quiet := q }
    let quiet := decide (4 ≤ q) && (s.pair.pState == some 4 || s.pair.pState == some 5) && !s.bit F.PAIR_STATUS_IL_QUIET
    let s := s.when quiet fun t => (t.flag F.PAIR_STATUS_IL_QUIET).raise 0xA007 178 2 0 0 0
    let s := s.put F.PAIR_HEALTH (s.healthWord tq0 degraded)
    let s := s.setPair fun x => { x with
      toggled := false, rbBad := false, inWindow := false, refrained := false, promoLate := false, probeFail := false, mtestErr := false, digMiss := 0,
      probesDone := 0, resync := x.resync.map fun y => { y with inBeat := 0 } }
    s.when (s.bit F.PAIR_CFG_AUTO_RS || s.pair.rsWant) resyncRequest

end Sys2Proof.Machine
end

