-- ==== Sys2Proof/Machine/VaultKeys.lean ====
section
/-! DEFINITION. What the vault's commands, jobs and slice commands share (chapter 13): derived keys (R390), persistent slots
(R391 to R393), key blobs (R395 to R398), the admission of keys to the key cache (R399 to R401), DRBG requests (R413) and
holds on power requests (R414 to R416). -/

namespace Sys2Proof.Machine

/-! Derived keys (R390). -/

def ascii (t : String) : List Byte := t.toList.map fun c => BitVec.ofNat 8 c.toNat

/-- CHIP_UID, byte 0 from VAULT_UID0 [7:0]. -/
def State.uid (s : State) : List Byte := s.getBytes F.VAULT_UIDn 4

/-- The KDF in counter mode with one block. -/
def kdf (key : List Byte) (label : String) (ctx : List Byte) : List Byte :=
  Config.hmacSha256 key (beBytes 4 1 ++ ascii label ++ [0] ++ ctx ++ beBytes 4 256)

def State.derived (s : State) (label : String) (ctx : List Byte) : List Byte := kdf (s.vault.root.getD []) label ctx
def State.kDev (s : State) : List Byte := s.derived "DL-WRAP-DEV" s.uid
def State.kSlc (s : State) (n tenant : Nat) : List Byte := s.derived "DL-WRAP-SLC" (leBytes 1 n ++ leBytes 8 tenant)
def State.kSlot (s : State) : List Byte := s.derived "DL-SLOT-WRAP" s.uid
def State.kChk (s : State) : List Byte := s.derived "DL-SLOT-CHK" s.uid
def State.kFp (s : State) : List Byte := s.derived "DL-FPRINT" s.uid
def kMw (slotKey : List Byte) : List Byte := kdf slotKey "DL-MIG-WRAP" []

/-- The fingerprint of key material (R400). -/
def State.fingerprint (s : State) (mat : List Byte) : List Byte := (Config.hmacSha256 s.kFp mat).take 8

/-- KEY_LEN of a key type, 0 for none (R395). -/
def keyLenOf (k : Nat) : Nat :=
  if k = 4 ∨ k = 5 then 16
  else if (1 ≤ k ∧ k ≤ 7) ∨ k = 0x10 ∨ k = 0x11 ∨ k = 0x20 ∨ k = 0x22 ∨ k = 0x23 then 32
  else if k = 0x21 then 48
  else if k = 0x28 then 1152
  else 0

/-! Persistent slots. Fields of a record. -/

def srState (r : List Byte) : Nat := leAt r 2 1
def srType (r : List Byte) : Nat := leAt r 3 1
def srKeyId (r : List Byte) : Nat := leAt r 4 4
def srKtype (r : List Byte) : Nat := leAt r 8 1
def srMob (r : List Byte) : Nat := leAt r 9 1
def srOrigin (r : List Byte) : Nat := leAt r 10 1
def srOwner (r : List Byte) : Nat := leAt r 12 2
def srCount (r : List Byte) : Nat := leAt r 16 8

def State.slot (s : State) (n : Nat) : SlotSt := Table.at ⟨[], false⟩ n s.vault.slots
def SlotSt.valid (x : SlotSt) : Bool := !x.bad && srState x.rec' == 1

/-- The slot changes; VAULT_SLOT_SUM follows. -/
def State.setSlot (s : State) (n : Nat) (x : SlotSt) : State :=
  let s := s.setVault fun v => { v with slots := Table.put ⟨[], false⟩ n x v.slots }
  (s.put F.VAULT_SLOT_SUM_VALID (s.vault.slots.filter fun e => e.2.valid).length).put F.VAULT_SLOT_SUM_BAD
    (s.vault.slots.filter fun e => e.2.bad).length

/-- CHECK of a record verifies. -/
def State.slotCheck (s : State) (r : List Byte) : Bool :=
  r.length == 128 && Config.hmacSha256 s.kChk (r.take 96) == r.drop 96

/-- The key material of a record. -/
def State.slotKey (s : State) (r : List Byte) : Option (List Byte) :=
  Config.kwpUnwrap s.kSlot ((r.drop 32).take (keyLenOf (srKtype r) + 8))

/-- Where copy A (0) or B (1) of a slot stands in the image flash. -/
def slotCopy (n c : Nat) : Nat := 0x0A000000 + c * 0x800000 + 128 * n

def State.copyBytes (s : State) (n c : Nat) : List Byte := Memory.bytes 0xFF s.flash (slotCopy n c) 128
def State.writeCopy (s : State) (n c : Nat) (r : List Byte) : State :=
  (s.setFlash (Memory.store 0xFF s.flash (slotCopy n c) r)).bump F.IDENT_ERASE_KEY

def State.slotBad (s : State) (n : Nat) : State :=
  ((s.setSlot n ⟨[], true⟩).flag F.VAULT_STATUS_SLOT_BAD).raise 0xC004 180 n 0 0 0

/-- The chosen copy is taken. -/
def State.takeSlot (s : State) (n : Nat) (r : List Byte) : State :=
  if srState r = 1 ∧ (s.slotKey r).isNone then s.slotBad n else s.setSlot n ⟨r, false⟩

/-- Copy `c` is rewritten from the chosen one. -/
def State.repairCopy (s : State) (n c : Nat) (r : List Byte) : State :=
  ((s.writeCopy n c r).bump F.VAULT_CNT_SLOT_REPAIR).raise 0xC005 180 n c 0 0

/-- A slot is loaded (R392). Without the flash it is EMPTY (R419); without the root key it is UNUSABLE (R389). -/
def State.loadSlot (s : State) (n : Nat) : State :=
  if s.vault.root.isNone then s.setSlot n ⟨[], true⟩
  else if !s.flashOk then s.setSlot n ⟨[], false⟩
  else
    let a := s.copyBytes n 0
    let b := s.copyBytes n 1
    match s.slotCheck a, s.slotCheck b with
    | false, false => s.slotBad n
    | true, false => (s.repairCopy n 1 a).takeSlot n a
    | false, true => (s.repairCopy n 0 b).takeSlot n b
    | true, true =>
      if srCount a = srCount b then s.takeSlot n a
      else if srCount b < srCount a then (s.repairCopy n 1 a).takeSlot n a
      else (s.repairCopy n 0 b).takeSlot n b

/-- A use of slot `n` (R393): the code that refuses it, 0 for none. -/
def State.useSlot (s : State) (n : Nat) : State × Nat :=
  if s.vault.root.isNone then (s, 5)
  else
    let s := if (s.slot n).valid && !s.slotCheck (s.slot n).rec' then s.loadSlot n else s
    let x := s.slot n
    (s, if x.bad then 18 else if x.valid then 0 else 17)

/-! Key blobs (R395). -/

def kbKind (b : List Byte) : Nat := leAt b 2 1
def kbMob (b : List Byte) : Nat := leAt b 3 1
def kbRef (b : List Byte) : Nat := leAt b 4 4
def kbTenant (b : List Byte) : Nat := leAt b 8 8
def kbKeyId (b : List Byte) : Nat := leAt b 16 4
def kbKtype (b : List Byte) : Nat := leAt b 20 1
def kbUsage (b : List Byte) : Nat := leAt b 21 1
def kbOrigin (b : List Byte) : Nat := leAt b 22 1
def kbPlatform (b : List Byte) : Bool := bitOf (leAt b 23 1) 0
def kbNotBefore (b : List Byte) : Nat := leAt b 24 6
def kbNotAfter (b : List Byte) : Nat := leAt b 30 6
def kbCount (b : List Byte) : Nat := leAt b 36 4
def kbKeyLen (b : List Byte) : Nat := leAt b 40 2
def kbWrapLen (b : List Byte) : Nat := leAt b 42 2
def kbHeader (b : List Byte) : List Byte := b.take 64

def wrapLenOf (len : Nat) : Nat := 8 + 8 * ((32 + len + 7) / 8)

/-- Order 1 of R399. -/
def kbOk (b : List Byte) : Bool :=
  let len := keyLenOf (kbKtype b)
  leAt b 0 2 == 1 && decide (kbKind b ≤ 2) && decide (kbMob b ≤ 2) && len != 0 && kbKeyLen b == len && kbWrapLen b == wrapLenOf len
    && decide (64 + wrapLenOf len ≤ b.length) && decide (kbOrigin b ≤ 2) && decide (leAt b 23 1 < 2) && leAt b 44 20 == 0
    && (kbKind b != 0 || kbRef b == 0) && (kbKind b != 1 || decide (kbRef b < 256)) && (kbKind b == 1 || kbTenant b == 0)

/-- What a new blob's header says. -/
structure BlobInfo where
  kind : Nat
  mob : Nat
  ref : Nat
  tenant : Nat
  keyId : Nat
  ktype : Nat
  usage : Nat
  origin : Nat
  platform : Bool
  notBefore : Nat
  notAfter : Nat
  count : Nat
  deriving DecidableEq, Repr

def BlobInfo.header (i : BlobInfo) : List Byte :=
  leBytes 2 1 ++ leBytes 1 i.kind ++ leBytes 1 i.mob ++ leBytes 4 i.ref ++ leBytes 8 i.tenant ++ leBytes 4 i.keyId
    ++ leBytes 1 i.ktype ++ leBytes 1 i.usage ++ leBytes 1 i.origin ++ leBytes 1 (b2n i.platform) ++ leBytes 6 i.notBefore
    ++ leBytes 6 i.notAfter ++ leBytes 4 i.count ++ leBytes 2 (keyLenOf i.ktype) ++ leBytes 2 (wrapLenOf (keyLenOf i.ktype))
    ++ leBytes 20 0

/-- The blob of key material under a wrapping key. -/
def BlobInfo.blob (i : BlobInfo) (wrapKey mat : List Byte) : List Byte :=
  i.header ++ Config.kwpWrap wrapKey (Config.sha256 i.header ++ mat)

/-- TENANT_ID of a slice's binding. -/
def State.tenant (s : State) (n : Nat) : Nat := s.get (sl F.SLICE_TENANT n)

/-- The VALID slot that a WRAP_REF names. -/
def State.slotById (s : State) (id : Nat) : Option (Nat × List Byte) :=
  (s.vault.slots.find? fun e => e.2.valid && srKeyId e.2.rec' == id).map fun e => (e.1, e.2.rec')

/-- The wrapping key of R396 with the TYPE of its slot (0 without one) and its OWNER. -/
def State.wrapKey (s : State) (kind ref tenant : Nat) : Option (List Byte × Nat × Nat) :=
  if kind = 0 then some (s.kDev, 0, 0)
  else if kind = 1 then some (s.kSlc (ref % 256) tenant, 0, 0)
  else if kind = 2 then
    (match s.slotById ref with
     | none => none
     | some (_, r) =>
       match s.slotKey r with
       | none => none
       | some m => if srType r = 2 then some (m, 2, srOwner r) else if srType r = 3 then some (kMw m, 3, srOwner r) else none)
  else none

/-- MOBILITY permits the kind, given the TYPE of the wrapping slot (R397). -/
def mobOk (mob kind typ : Nat) : Bool := decide (kind ≤ 1) || (typ == 3 && decide (1 ≤ mob)) || (typ == 2 && decide (2 ≤ mob))

/-- Who names a blob: the platform, a slice, or a RESTORE of a slice. -/
inductive BlobBy where
  | platform
  | slice (n : Nat)
  | restore (n : Nat)
  deriving DecidableEq, Repr

/-- Order 2 of R399: the wrapping key may be used by whoever names the blob. -/
def wrapAdmitted (w : BlobBy) (kind typ owner : Nat) : Bool :=
  match w with
  | .platform => typ != 3
  | .slice n => kind == 1 || (kind == 2 && typ == 2 && (owner == n || owner == 0xFFFE))
  | .restore _ => true

/-- Orders 1 to 4 of R399, then MOBILITY (R397; assumption log 90): the key material, or the first failing code. `n` is the slice that the
blob is for. -/
def State.openBlob (s : State) (w : BlobBy) (n : Nat) (b : List Byte) : Nat ⊕ List Byte :=
  if s.vault.root.isNone then .inl 5
  else if !kbOk b then .inl 7
  else match s.wrapKey (kbKind b) (kbRef b) (kbTenant b) with
    | none => .inl 9
    | some (k, typ, owner) =>
      if !wrapAdmitted w (kbKind b) typ owner then .inl 9
      else if kbKind b = 1 ∧ (kbRef b ≠ n ∨ kbTenant b ≠ s.tenant n) then .inl 10
      else match Config.kwpUnwrap k ((b.drop 64).take (kbWrapLen b)) with
        | none => .inl 8
        | some p =>
          if p.take 32 ≠ Config.sha256 (kbHeader b) ∨ p.length ≠ 32 + kbKeyLen b then .inl 8
          else if !mobOk (kbMob b) (kbKind b) typ then .inl 13
          else .inr (p.drop 32)

/-- USAGE obeys R398. -/
def usageOk (ktype u : Nat) : Bool :=
  decide (u < 16) && (decide (7 < ktype) || !((bitOf u 0 || bitOf u 3) && (bitOf u 1 || bitOf u 2)))

/-- A valid flow or publication names key cache entry `e` (R400). -/
def State.keyNamed (s : State) (e : Nat) : Bool :=
  (s.gate.flows.any fun f => feValid f.2.e && (feKeyCur f.2.e == e || (feNextValid f.2.e && feKeyNext f.2.e == e)
    || (fePrevValid f.2.e && feKeyPrev f.2.e == e)))
    || s.sealSt.pubs.any fun p => puValid p.2 && puKey p.2 == e

/-- Entry `e` is free (R400). -/
def State.keyFree (s : State) (e : Nat) : Bool := (s.keyE e).st != 1 || !s.keyNamed e

/-- Orders 5 to 8 of R399 for a key and entry `e`: the first failing code, 0 for none. -/
def State.keyAdmit (s : State) (e ktype usage : Nat) (fp : List Byte) : Nat :=
  if ktype < 1 ∨ 7 < ktype then 11
  else if !usageOk ktype usage then 12
  else if !s.keyFree e then 14
  else if generating ktype usage && s.gate.keys.any fun k => k.1 != e && k.2.st == 1 && k.2.fp == fp then 15
  else if generating ktype usage && (genCount fp s.vault.gen).isNone && decide (4096 ≤ s.vault.gen.length) then 16
  else 0

/-- The key is written to entry `e` with STATE LOADED; a generating key takes the greatest count known (R400, R401). -/
def State.keyLoad (s : State) (e : Nat) (i : BlobInfo) (mat : List Byte) : State :=
  let s := s.genKeep e
  let fp := s.fingerprint mat
  let known := (s.gate.keys.filter fun k => k.2.fp == fp && k.2.st != 0).foldl (fun m k => max m k.2.count) ((genCount fp s.vault.gen).getD 0)
  let gen := generating i.ktype i.usage
  let count := if gen then max i.count known else i.count
  let s := s.when gen fun t => t.setGen (genPut fp count t.vault.gen)
  s.setKey e fun _ => ⟨i.keyId, i.ktype, 1, i.usage, i.notBefore, i.notAfter, count, mat, i.origin, i.mob, fp, i.platform⟩

/-- What the header of a blob says. -/
def kbInfo (b : List Byte) : BlobInfo :=
  ⟨kbKind b, kbMob b, kbRef b, kbTenant b, kbKeyId b, kbKtype b, kbUsage b, kbOrigin b, kbPlatform b, kbNotBefore b, kbNotAfter b,
   kbCount b⟩

/-- A blob is loaded into entry `e` (R399): the state and the code. -/
def State.loadBlob (s : State) (w : BlobBy) (e : Nat) (b : List Byte) : State × Nat :=
  match s.openBlob w (e / 256) b with
  | .inl c => (s, c)
  | .inr mat =>
    let c := s.keyAdmit e (kbKtype b) (kbUsage b) (s.fingerprint mat)
    if c ≠ 0 then (s, c) else (s.keyLoad e (kbInfo b) mat, 0)

/-- Entry `e` becomes EMPTY. -/
def State.keyEmpty (s : State) (e : Nat) : State := (s.genKeep e).setKey e fun _ => KeyEnt.empty

/-- 0xC006 at a refusal with UNWRAP, once per second per slice; 0xFFFF for the platform. -/
def State.unwrapFailed (s : State) (who : Nat) : State :=
  (s.bump F.VAULT_CNT_UNWRAP).limited 0xC006 who 1 fun k t => t.raise 0xC006 180 who 0 k 0

/-! DRBG requests (R413). -/

def State.drbg (s : State) (i : Nat) : Drbg := Table.at ⟨false, 0, false, 0⟩ i s.vault.drbg
def State.setDrbg (s : State) (i : Nat) (d : Drbg) : State :=
  s.setVault fun v => { v with drbg := Table.put ⟨false, 0, false, 0⟩ i d v.drbg }

def State.noEntropy (s : State) : Bool := s.bit F.VAULT_STATUS_NO_ENTROPY

/-- The number that bits spell, the first at the top. -/
def bitsNat (l : List Bool) : Nat := l.foldl (fun a b => 2 * a + b2n b) 0

/-- `n` conditioned bits are taken for a seed (R408). What is not gathered yet comes from the sources while the seed waits, in raw bits
that no command carries: a free value (assumption log 81). -/
def State.takeSeed (s : State) (n : Nat) : State × Nat :=
  let l := s.vault.pool.take n
  let k := n - l.length
  let t := s.setVault fun v => { v with pool := v.pool.drop n }
  if k = 0 then (t, bitsNat l) else (t.useFree, bitsNat l * 2 ^ k + t.freeVal k)

/-- The instance is instantiated from 768 bits: 512 as entropy input, 256 as nonce. -/
def State.instantiate (s : State) (i : Nat) : State :=
  let (s, v) := s.takeSeed 768
  s.setDrbg i ⟨true, 0, false, v⟩

/-- The instance is reseeded from an entropy input of 512 bits. -/
def State.reseed (s : State) (i : Nat) : State :=
  let (s, v) := s.takeSeed 512
  (s.setDrbg i ⟨true, 0, false, v⟩).bump F.VAULT_CNT_RESEED

/-- A request of instance `i`: false when it is refused with NO_ENTROPY. -/
def State.drbgReq (s : State) (i : Nat) : State × Bool :=
  let d := s.drbg i
  if !d.ready then (s, false)
  else if d.fresh || decide (2 ^ 20 ≤ d.count) then
    if s.noEntropy then (s, false)
    else
      let t := s.reseed i
      (t.setDrbg i { t.drbg i with count := 1 }, true)
  else (s.setDrbg i { d with count := d.count + 1 }, true)

/-- `n` bytes drawn: a free value. -/
def State.drawn (s : State) (n : Nat) : List Byte := leBytes n (s.freeVal (8 * n))

/-! Holds (R414 to R416). -/

def vcFlags (b : List Byte) : Nat := leAt b 37 1

/-- Jobs in service with their engines. -/
def State.pkRuns (s : State) : List (Nat × PkJob × Nat) :=
  s.vault.engines.filterMap fun e => e.2.run.map fun r => (e.1, r.1, r.2)

/-- The vault is to hold domain `d` at ON. -/
def State.wantsHold (s : State) (d : Nat) : Bool :=
  if d = 17 then s.vault.cur.isSome || !s.pkRuns.isEmpty || s.vault.envelope.isSome
  else if d = 19 then
    (match s.vault.cur with
     | none => false
     | some c => bitOf (vcFlags c.block) 7 || (match c.by' with | .slice _ _ _ => true | _ => false))
      || (s.pkRuns.any fun r => r.2.1.slice.isSome)
  else if d = 13 then
    (match s.vault.cur with
     | none => false
     | some c => decide (1 ≤ c.op ∧ c.op ≤ 3))
      || s.sliceList.any fun n => s.get (sl F.SLICE_STATUS_STATE n) == 5
  else false

/-- The hold of domain `d` begins or ends: at its end, a deferred request is reported and proceeds (R415). -/
def State.syncHoldOf (s : State) (d : Nat) : State :=
  let now := s.vaultHeld d
  let want := s.wantsHold d
  let at' := (Table.at none d s.vault.holdAt).getD s.clk
  if want && !now then
    let s := (s.put F.VAULT_HOLD (setBit (s.get F.VAULT_HOLD) (d - 1))).setVault fun v =>
      { v with holdAt := Table.put none d (some s.clk) v.holdAt }
    s.evalDomain d 0
  else if now && !want then
    let ns := s.clk - at'
    let s := (s.put F.VAULT_HOLD (clearBit (s.get F.VAULT_HOLD) (d - 1))).setVault fun v =>
      { v with holdAt := Table.put none d none v.holdAt }
    let s := s.put F.VAULT_HOLD_MAX (max (s.get F.VAULT_HOLD_MAX) (min ns (2 ^ 32 - 1)))
    match (s.dom d).deferred with
    | none => s.evalDomain d 0
    | some (src, _) => ((s.setDom d fun x => { x with deferred := none }).raise 0xC00A 180 d src 0 ns).evalDomain d src
  else s

def State.syncHold (s : State) : State :=
  let s := ((s.syncHoldOf 13).syncHoldOf 17).syncHoldOf 19
  s.putB F.VAULT_STATUS_HOLD (s.get F.VAULT_HOLD != 0)

end Sys2Proof.Machine
end

