-- ==== Sys2Proof/Machine/Slices.lean ====
section
/-! DEFINITION. Slices (chapter 11): fetching and the commands of R349, doorbells, the queues' enable and end (R363), and the
power states of the PCIe function (R341, R365 to R368). Commands that move data complete at DMA_COMMAND_DONE. -/

namespace Sys2Proof.Machine

def winAddr (n o : Nat) : Nat := bar2Base + 0x10000 * n + o
def State.sliceState (s : State) (n : Nat) : Nat := s.get (sl F.SLICE_STATUS_STATE n)

/-- The slice is in FREEZING, FROZEN, SAVING or RESTORING. -/
def State.sliceHeld (s : State) (n : Nat) : Bool := decide (2 ≤ s.sliceState n)

/-! Submission entries (R347). -/

def sqOp (e : List Byte) : Nat := leAt e 0 1
def sqQuiet (e : List Byte) : Bool := bitOf (leAt e 1 1) 0
def sqId (e : List Byte) : Nat := leAt e 2 2
def sqArg (e : List Byte) (i : Nat) : Nat := leAt e (8 + 8 * i) 8
def sqBody (e : List Byte) (n : Nat) : List Byte := (e.drop 32).take n

def sqOps : List Nat :=
  [0x01, 0x02, 0x03, 0x10, 0x11, 0x12, 0x13, 0x14, 0x20, 0x21, 0x30, 0x31, 0x32, 0x40, 0x41, 0x42, 0x50, 0x51, 0x52, 0x53]

/-- A known opcode, and reserved fields zero: FLAGS [7:1] and bytes 4 to 7 (assumption log 91). -/
def sqOk (e : List Byte) : Bool := sqOps.contains (sqOp e) && decide (leAt e 1 1 < 2) && leAt e 4 4 == 0

/-- A command of the slice that takes effect in queue order has not taken effect (R351). -/
def State.cfgBusy (s : State) (n : Nat) : Bool :=
  ((s.slice n).inProg.any fun c => decide (0x10 ≤ c.op ∧ c.op ≤ 0x42))
    || (s.groom.writes.any fun w => w.2.2.1 == n)
    || (s.gate.changes.any fun c => match c.by' with
        | .slice k _ _ => k == n
        | _ => false)

/-- Complete a command's entry with a status. -/
def State.sqDone (s : State) (n : Nat) (e : List Byte) (status : Nat) (payload : List Byte) : State :=
  s.cmdDone n (sqId e) (sqQuiet e) status payload

/-- Entries at the head that no command takes are answered BAD_OP. -/
def State.skipBad (s : State) (n : Nat) : Nat → State
  | 0 => s
  | k + 1 =>
    match (s.slice n).fetched with
    | [] => s
    | e :: rest =>
      if sqOk e ∨ s.cfgBusy n then s
      else ((s.setSlice n fun x => { x with fetched := rest }).sqDone n e 1 []).skipBad n k

def State.skip (s : State) (n : Nat) : State := s.skipBad n (s.slice n).fetched.length

/-! Queues (R350, R361 to R363). -/

/-- The queues of a slice end (R363): no further fetch. -/
def State.endQueues (s : State) (n : Nat) : State :=
  (s.put (sl F.SLICE_CTRL_EN n) 0).put (sl F.SLICE_STATUS_RUNNING n) 0

/-- A DMA fault of a queue: 0 SQ, 1 CQ, 2 data ring, 3 event ring (R363, R369). -/
def State.queueFault (s : State) (n q : Nat) : State :=
  let s := (s.hostAccess 0x492 n 0 (if q = 0 then 0 else 1) false).1
  ((s.endQueues n).flag (sl F.SLICE_STATUS_DMA_FAULT n)).raiseSlice 0x0106 n q 0 0

/-- The command bucket refills at CMD_RATE per ms, to 64 (R350), in 10^-6 of a command. -/
def State.refill (s : State) (n : Nat) : State :=
  s.setSlice n fun x => { x with
    bucket := min 64000000 (x.bucket + (s.clk - x.bucketAt) * s.get (sl F.SLICE_RATE_CMD_RATE n)), bucketAt := s.clk }

/-- The next entry is fetched; `e` is what the DMA read, none for a fault. A fetch that the bucket holds counts its ms once. -/
def commandFetch (n : Nat) (e : Option (List Byte)) (s : State) : State :=
  let s := s.refill n
  let size := qSize (s.get (sl F.SLICE_SQ_SIZE n))
  let head := s.get (sl F.SLICE_SQ_HEAD n)
  if !s.sliceOpen n || head % size == s.get (sl F.SLICE_SQ_TAIL n) % size then s
  else if (s.slice n).bucket < 1000000 then
    let ms := s.clk / 1000000
    if (s.slice n).heldMs = some ms then s
    else (s.bump (sl F.SLICE_CNT_RATE_HOLD n)).setSlice n fun x => { x with heldMs := some ms }
  else match e with
    | none => s.queueFault n 0
    | some e =>
      let e := (e ++ List.replicate (128 - e.length) 0).take 128
      let s := ((s.put (sl F.SLICE_SQ_HEAD n) ((head + 1) % size)).bump (sl F.SLICE_CNT_CMD n)).addTo (sl F.SLICE_CNT_DMA_BYTES n) 128
      (s.setSlice n fun x => { x with bucket := x.bucket - 1000000, fetched := x.fetched ++ [e] }).skip n

def execCommandFetch (n : Fin 256) (e : Option (List Byte)) (dt : Nat) (s : State) : Res := fin (commandFetch n e (s.elapse dt))

/-- A write of SLICE_SQ_TAIL. -/
def execSqTailDoorbell (m : Master) (n : Fin 256) (d : Nat) (s : State) : Res :=
  fin (s.regWrite m (winAddr n 0x1000) fun t => t.put (sl F.SLICE_SQ_TAIL n) d)

/-- A write of SLICE_CQ_HEAD: the vector is raised when it leaves the queue non-empty (R353), and staged entries follow. -/
def cqHead (n d : Nat) (s : State) : State :=
  let s := s.put (sl F.SLICE_CQ_HEAD n) d
  let size := qSize (s.get (sl F.SLICE_CQ_SIZE n))
  (s.when (s.get (sl F.SLICE_CQ_TAIL n) % size != d % 2 ^ 32 % size) fun t => t.raiseVector n).flushCq n
def execCqHeadDoorbell (m : Master) (n : Fin 256) (d : Nat) (s : State) : Res :=
  fin (s.regWrite m (winAddr n 0x1004) (cqHead n d))

def evrHead (n d : Nat) (s : State) : State :=
  let s := s.put (sl F.SLICE_EVR_HEAD n) d
  let size := qSize (s.get (sl F.SLICE_EVR_SIZE n))
  (s.when (s.get (sl F.SLICE_EVR_TAIL n) % size != d % 2 ^ 32 % size) fun t => t.raiseVector n).flushEv n
def execEvrHeadDoorbell (m : Master) (n : Fin 256) (d : Nat) (s : State) : Res :=
  fin (s.regWrite m (winAddr n 0x100C) (evrHead n d))

def execDrHeadDoorbell (m : Master) (n : Fin 256) (d : Nat) (s : State) : Res :=
  fin (s.regWrite m (winAddr n 0x1008) fun t => t.put (sl F.SLICE_DR_HEAD n) d)

/-- Staged entries are delivered, or a queue write faults (R361, R363). -/
def stagedDelivery (n : Nat) (fault : Option Nat) (s : State) : State :=
  match fault with
  | none => s.flushSlice n
  | some q => if s.sliceOpen n then s.queueFault n (q + 1) else s
def execStagedDelivery (n : Fin 256) (fault : Option (Fin 3)) (dt : Nat) (s : State) : Res :=
  fin (stagedDelivery n (fault.map (·.val)) (s.elapse dt))

/-- What EN = 1 asks of a slice's window (R346). -/
def State.windowOk (s : State) (n : Nat) : Bool :=
  let inR := fun (f : Fld) (a b : Nat) => decide (a ≤ s.get (sl f n) ∧ s.get (sl f n) ≤ b)
  s.sliceState n != 0 && inR F.SLICE_SQ_SIZE 4 12 && inR F.SLICE_CQ_SIZE 4 14 && inR F.SLICE_DR_SIZE 16 24 && inR F.SLICE_EVR_SIZE 4 12
    && [F.SLICE_SQ_BASE, F.SLICE_CQ_BASE, F.SLICE_DR_BASE, F.SLICE_EVR_BASE].all fun f => s.get (sl f n) % 4096 == 0

/-- A write of SLICE_CTRL (R346, R363). -/
def sliceCtrlWrite (n d : Nat) (s : State) : State :=
  let s := s.putB (sl F.SLICE_CTRL_WAKE_EN n) (bitOf d 1)
  if !bitOf d 0 then s.endQueues n
  else if s.bit (sl F.SLICE_CTRL_EN n) then s
  else if !s.windowOk n then s.flag (sl F.SLICE_STATUS_CFG_ERR n)
  else
    let s := (((s.freshLimits fun e => e.code == 0x0101 && e.key == n).flag (sl F.SLICE_CTRL_EN n)).flag (sl F.SLICE_STATUS_RUNNING n)).put (sl F.SLICE_STATUS_CFG_ERR n) 0
    let s := ((s.put (sl F.SLICE_SQ_HEAD n) 0).put (sl F.SLICE_CQ_TAIL n) 0).put (sl F.SLICE_DR_TAIL n) 0
    ((s.put (sl F.SLICE_EVR_TAIL n) 0).setSlice n fun x => { x with cqPhase := true, evPhase := true }).flushSlice n
def execSliceEnable (m : Master) (n : Fin 256) (d : Nat) (s : State) : Res := fin (s.regWrite m (winAddr n 0) (sliceCtrlWrite n d))

/-! Commands (R349). -/

/-- The slice's oldest fetched entry is started, when it holds the opcode and no earlier command stands before it (R351). -/
def sliceCmd (op n dt : Nat) (g : List Byte → State → State) (s : State) : State :=
  let s := (s.elapse dt).skip n
  match (s.slice n).fetched with
  | [] => s
  | e :: rest =>
    if sqOp e ≠ op ∨ s.cfgBusy n then s
    else (g e (s.setSlice n fun x => { x with fetched := rest })).skip n

/-- SUBMIT (R212, R246): the item is accepted, and held for a frozen slice, or refused with a result record (R212;
assumption log 92). -/
def submit (n : Nat) (e : List Byte) (s : State) : State :=
  let d := sqBody e 64
  let c := s.descRefusal true false d
  let c := if s.role = 1 ∨ s.role = 2 ∨ s.role = 6 then 1 else if dSlice d ≠ n ∧ (c = 0 ∨ 2 < c) then 2 else c
  let i := s.newItem s.beat d none
  let s := s.setGroom fun x => { x with nextSeq := x.nextSeq + 1 }
  if c ≠ 0 then
    let s := s.finishItem { i with d := setLe d 3 1 n } 7 c 0
    s.when (c == 7) fun t => ((t.bump F.GROOM_CNT_STALE).statAdd n 11 1).staleEvent (dFlow d) (dEpoch d)
  else (s.setGroom fun x => { x with ready := x.ready ++ [i] }).sweepOpen
def execSubmit (n : Fin 256) (dt : Nat) (s : State) : Res := fin (sliceCmd 0x01 n dt (submit n) s)

/-- MAC_JOB (R99): the job waits for idle engine cycles (R101). -/
def execMacJob (n : Fin 256) (dt : Nat) (s : State) : Res :=
  fin (sliceCmd 0x02 n dt (fun e t =>
    (t.setGate fun x => { x with jobs := x.jobs ++ [⟨n, sqId e, sqQuiet e, sqBody e 64, t.clk, false⟩] }).serveJobs) s)

/-- The number of a slice's runtime flow `i`. -/
def rtFlow (n i : Nat) : Nat := 65536 + 256 * n + i
/-- The first runtime item entry of a slice. -/
def rtItem (n : Nat) : Nat := 32768 + 128 * n

/-- FLOW_INSTALL (R349): NOT_OWNER for another slice's number or keys, INVALID for the other rules; the code of the rule
broken is a free value (assumption log 93). -/
def flowInstall (n : Nat) (e : List Byte) (s : State) : State :=
  let f := rtFlow n (sqArg e 0 % 256)
  let fe := feKeepHw (s.flow f).e (sqBody e 64)
  let own := feSlice fe == n && feKeyCur fe / 256 == n && (!feNextValid fe || feKeyNext fe / 256 == n)
  let g := feGroup fe
  let grp := g == 0xFFFF || (decide (g < 4096) && geValid (s.group g).e && flowFits fe (s.group g).e)
  if feValid fe && !own then s.sqDone n e 2 []
  else if !s.feAccept f fe || (feValid fe && !grp) then s.useFree.sqDone n e 4 (leBytes 1 (s.freeVal 8))
  else s.askChange f (.install fe) (.slice n (sqId e) (sqQuiet e))
def execFlowInstall (n : Fin 256) (dt : Nat) (s : State) : Res := fin (sliceCmd 0x10 n dt (flowInstall n) s)

def execFlowRemove (n : Fin 256) (dt : Nat) (s : State) : Res :=
  fin (sliceCmd 0x11 n dt (fun e t => t.askChange (rtFlow n (sqArg e 0 % 256)) .invalidate (.slice n (sqId e) (sqQuiet e))) s)

/-- A flow that the slice owns. -/
def State.ownsFlow (s : State) (n f : Nat) : Bool := feValid (s.flow f).e && feSlice (s.flow f).e == n

def flowSetNext (n : Nat) (e : List Byte) (s : State) : State :=
  let f := sqArg e 0 % 131072
  if s.ownsFlow n f then s.askChange f (.setNext (256 * n + sqArg e 1 % 256) true) (.slice n (sqId e) (sqQuiet e)) else s.sqDone n e 2 []
def execFlowSetNext (n : Fin 256) (dt : Nat) (s : State) : Res := fin (sliceCmd 0x12 n dt (flowSetNext n) s)

/-- FLOW_STATS: the ten counters of READ_STATS (R104). -/
def flowStats (n : Nat) (e : List Byte) (s : State) : State :=
  let f := sqArg e 0 % 131072
  if s.ownsFlow n f then s.sqDone n e 0 ((s.flow f).stats.flatMap (leBytes 4)) else s.sqDone n e 2 []
def execFlowStats (n : Fin 256) (dt : Nat) (s : State) : Res := fin (sliceCmd 0x13 n dt (flowStats n) s)

def execReplayReset (n : Fin 256) (dt : Nat) (s : State) : Res :=
  fin (sliceCmd 0x14 n dt (fun e t => t.askChange (rtFlow n (sqArg e 0 % 256)) .resetReplay (.slice n (sqId e) (sqQuiet e))) s)

/-- ITEM_WRITE: refused with the code of R212, otherwise written at the next edge (R210, R351). -/
def itemWrite (n : Nat) (e : List Byte) (s : State) : State :=
  let d := sqBody e 64
  let c := if dValid d then s.descRefusal false true d else 0
  if dValid d && dSlice d != n then s.sqDone n e 2 []
  else if c ≠ 0 then (s.bump F.GROOM_CNT_REFUSED).sqDone n e 4 (leBytes 1 c)
  else s.setGroom fun x => { x with writes := x.writes ++ [(rtItem n + sqArg e 0 % 128, d, n, sqId e, sqQuiet e)] }
def execItemWrite (n : Fin 256) (dt : Nat) (s : State) : Res := fin (sliceCmd 0x20 n dt (itemWrite n) s)

/-- ITEM_INVALIDATE clears VALID at the next edge. -/
def itemInvalidate (n : Nat) (e : List Byte) (s : State) : State :=
  let i := rtItem n + sqArg e 0 % 128
  let d := s.itemEntry i
  s.setGroom fun x => { x with writes := x.writes ++ [(i, setLe d 0 1 (clearBit (itFlags d) 0), n, sqId e, sqQuiet e)] }
def execItemInvalidate (n : Fin 256) (dt : Nat) (s : State) : Res := fin (sliceCmd 0x21 n dt (itemInvalidate n) s)

/-- A command that has started and completes later. -/
def State.startCmd (s : State) (n : Nat) (e : List Byte) : State :=
  s.setSlice n fun x => { x with
    inProg := x.inProg ++ [⟨sqOp e, sqId e, sqQuiet e, sqArg e 0, sqArg e 1, sqArg e 2 % 2 ^ 32, [], s.clk⟩] }

/-- The next vault command is taken in service, round-robin among the yardmaster and the slices (R403): the first waiting
source after the last one served. -/
def vcSource (c : VCmd) : Nat :=
  match c.by' with
  | .slice n _ _ => n
  | _ => 256
def State.vaultReady (s : State) : Bool := !s.bit F.VAULT_STATUS_INIT_BUSY && s.domState 17 == 0 && !s.domWaking 17
def State.vaultKick (s : State) : State :=
  match s.vault.cur with
  | none => s
  | some c => if c.startAt.isNone && s.vaultReady then s.setVault fun v => { v with cur := some { c with startAt := some s.clk } } else s
def State.vaultNext (s : State) : State :=
  if s.vault.cur.isSome then s
  else
    let dist := fun (c : VCmd) => (vcSource c + 257 - s.vault.last - 1) % 257
    let best := s.vault.queue.foldl (fun (b : Option VCmd) c =>
      match b with
      | none => some c
      | some x => if dist c < dist x then some c else some x) none
    match best with
    | none => s
    | some c =>
      (s.setVault fun v => { v with queue := v.queue.erase c, cur := some c, last := vcSource c }).syncHold.vaultKick

/-- KEY_LOAD (R399): the blob goes to the vault, whose code completes the command. -/
def keyLoadCmd (n : Nat) (e : List Byte) (s : State) : State :=
  let block := leBytes 1 1 ++ leBytes 1 0 ++ leBytes 2 (256 * n + sqArg e 0 % 256) ++ leBytes 4 0 ++ leBytes 8 (sqArg e 1)
    ++ leBytes 4 (sqArg e 2 % 2 ^ 32) ++ leBytes 44 0
  ((s.startCmd n e).setVault fun v => { v with queue := v.queue ++ [⟨.slice n (sqId e) (sqQuiet e), 1, block, none⟩] }).vaultNext
def execKeyLoad (n : Fin 256) (dt : Nat) (s : State) : Res := fin (sliceCmd 0x30 n dt (keyLoadCmd n) s)

/-- KEY_RETIRE; an EMPTY entry stays so (assumption log 94). -/
def keyRetireOf (n : Nat) (e : List Byte) (s : State) : State :=
  let k := 256 * n + sqArg e 0 % 256
  (s.when ((s.keyE k).st != 0) fun t => (t.genKeep k).setKey k fun x => { x with st := 3 }).sqDone n e 0 []
def execKeyRetire (n : Fin 256) (dt : Nat) (s : State) : Res := fin (sliceCmd 0x31 n dt (keyRetireOf n) s)

def execKeyMeta (n : Fin 256) (dt : Nat) (s : State) : Res :=
  fin (sliceCmd 0x32 n dt (fun e t => t.sqDone n e 0 (t.keyE (256 * n + sqArg e 0 % 256)).bytes) s)

/-- HIST_READ, HIST_WRITE and PROGRAM_LOAD are started when their range is right, and the writes only in RUNNING. -/
def histCmd (n : Nat) (e : List Byte) (s : State) : State :=
  let ofs := sqArg e 0
  let len := sqArg e 2 % 2 ^ 32
  if ofs % 256 ≠ 0 ∨ len % 256 ≠ 0 ∨ 0x1000000 < len ∨ histSize < ofs + len then s.sqDone n e 1 []
  else if sqOp e ≠ 0x40 ∧ s.sliceHeld n then s.sqDone n e 3 []
  else s.startCmd n e
def execHistRead (n : Fin 256) (dt : Nat) (s : State) : Res := fin (sliceCmd 0x40 n dt (histCmd n) s)
def execHistWrite (n : Fin 256) (dt : Nat) (s : State) : Res := fin (sliceCmd 0x41 n dt (histCmd n) s)
def execProgramLoad (n : Fin 256) (dt : Nat) (s : State) : Res := fin (sliceCmd 0x42 n dt (histCmd n) s)

def loftFreezeOf (n : Nat) (e : List Byte) (s : State) : State :=
  match s.freezeRequest 2 (some n) (sqArg e 0 % 2 ^ 32) (sqArg e 0 / 2 ^ 32) (sqArg e 1 % 65536) s.nowNs s.beat with
  | (t, some i) => t.sqDone n e 0 (leBytes 1 i)
  | (t, none) => t.sqDone n e 9 (leBytes 1 1)
def execLoftFreeze (n : Fin 256) (dt : Nat) (s : State) : Res := fin (sliceCmd 0x50 n dt (loftFreezeOf n) s)

/-- A freeze slot that another slice or the platform owns. -/
def State.slotForeign (s : State) (n i : Nat) : Bool :=
  let f := s.frz i
  f.st != 0 && (bitOf f.flags 3 || f.slice != n)

def loftExportOf (n : Nat) (e : List Byte) (s : State) : State :=
  let i := sqArg e 0 % 16
  if s.slotForeign n i then s.sqDone n e 2 []
  else s.expRequest ⟨i, 1, n, sqArg e 1, leAt e 32 4, sqArg e 2, leAt e 36 8, some (sqId e, sqQuiet e), s.clk⟩
def execLoftExport (n : Fin 256) (dt : Nat) (s : State) : Res := fin (sliceCmd 0x51 n dt (loftExportOf n) s)

def loftReleaseOf (n : Nat) (e : List Byte) (s : State) : State :=
  let i := sqArg e 0 % 16
  if s.slotForeign n i then s.sqDone n e 2 []
  else match s.frzRelease i with
    | (t, true) => t.sqDone n e 0 []
    | (t, false) => t.sqDone n e 9 (leBytes 1 2)
def execLoftRelease (n : Fin 256) (dt : Nat) (s : State) : Res := fin (sliceCmd 0x52 n dt (loftReleaseOf n) s)

def loftSlotOf (n : Nat) (e : List Byte) (s : State) : State :=
  let i := sqArg e 0 % 16
  if s.slotForeign n i then s.sqDone n e 2 [] else s.sqDone n e 0 (s.frz i).bytes
def execLoftSlot (n : Fin 256) (dt : Nat) (s : State) : Res := fin (sliceCmd 0x53 n dt (loftSlotOf n) s)

/-! Transfers of history. -/

/-- A started command of the slice ends. -/
def State.endCmd (s : State) (n : Nat) (c : InProg) (status : Nat) (payload : List Byte) : State :=
  ((s.setSlice n fun x => { x with inProg := x.inProg.erase c }).cmdDone n c.cmdId c.quiet status payload).skip n

/-- Granules of a history write that the guard grants, checked with the colour that it writes (R373; assumption log 95). -/
def State.histGranted (s : State) (n ofs len : Nat) : Nat :=
  ((List.range (len / 256)).find? fun i =>
    (s.guardCheck (s.dmaSet n) n (histBase + ofs + 256 * i) 1 (s.histCol n) false false).cause != 0).getD (len / 256)

/-- HIST_READ: the granted bytes go to the host; `k` is how many the host took; `ce` and `ue` are the errors of the reads
(R159). -/
def histRead (n : Nat) (c : InProg) (k ce : Nat) (ue : List Nat) (s : State) : State :=
  let (s, g, all) := s.dmaAccess 0x492 (some n) 0 (histBase + c.a0) c.a2
  let base := n * histSize + c.a0
  let ue := ue.filter fun i => decide (256 * i < g)
  let bytes := (s.blankHist base ue).readTarget (.hist base) (min g k)
  let s := (s.histErrors base ce ue).sliceDma n c.a1 bytes
  let s := if k < g then (s.hostAccess 0x492 n c.a1 1 false).1 else s
  s.endCmd n c (if all && decide (g ≤ k) then 0 else 6) []

/-- HIST_WRITE and PROGRAM_LOAD: whole granules of the bytes read are stored and coloured. A program load that is whole
waits for the invalidation at the next edge. -/
def histWrite (n : Nat) (c : InProg) (data : List Byte) (s : State) : State :=
  let want := c.a2
  let got := min want data.length / 256 * 256
  let grant := 256 * s.histGranted n c.a0 got
  let place := Target.hist (n * histSize + c.a0)
  let s := ((s.writeTarget place (data.take grant)).setTags place grant (s.histCol n)).addTo (sl F.SLICE_CNT_DMA_BYTES n) grant
  let s := if grant < got then
      (s.refuse ⟨0x492, some n, false, true, none, 0, 1, histBase + c.a0 + grant⟩
        (s.guardCheck (s.dmaSet n) n (histBase + c.a0 + grant) 1 (s.histCol n) false false) (s.histCol n) none).1
    else if got < want then (s.hostAccess 0x492 n c.a1 0 false).1
    else s
  if grant < want then s.endCmd n c 6 []
  else if c.op = 0x42 then
    (s.setPool fun p => { p with invalidate := true }).setSlice n fun x => { x with
      inProg := x.inProg.map fun y => if y = c then { y with a2 := 2 ^ 32 } else y }
  else s.endCmd n c 0 []

/-- The slice's transfer ends: `data` is what the host sent, or as many bytes as it took. -/
def dmaCommandDone (n : Nat) (data : List Byte) (ce : Nat) (ue : List Nat) (s : State) : State :=
  match (s.slice n).inProg.find? fun c => decide (0x40 ≤ c.op ∧ c.op ≤ 0x42) && decide (c.a2 < 2 ^ 32) with
  | none => s
  | some c => if c.op = 0x40 then histRead n c data.length ce ue s else histWrite n c data s
def execDmaCommandDone (n : Fin 256) (data : List Byte) (dt : Nat) (s : State) (ce : Nat := 0) (ue : List Nat := []) : Res :=
  fin (dmaCommandDone n data ce ue (s.elapse dt))

/-- At an edge: program loads whose invalidation is made complete, and runtime item entries are written (R173, R210). -/
def State.commandEdge (s : State) : State :=
  let s := s.each s.sliceList fun n t =>
    t.each ((t.slice n).inProg.filter fun c => c.op == 0x42 && decide (2 ^ 32 ≤ c.a2)) fun c u => u.endCmd n c 0 []
  let l := s.groom.writes
  let s := s.setGroom fun x => { x with writes := [] }
  s.each l fun w t =>
    ((t.setGroom fun x => { x with items := Table.put [] w.1 w.2.1 x.items }).cmdDone w.2.2.1 w.2.2.2.1 w.2.2.2.2 0 []).skip w.2.2.1

/-! Computed registers (R352, SLICE_USE). -/

def State.cfgCrc (s : State) (n : Nat) : Nat :=
  let hw := fun (e : List Byte) => setLe (setLe (setLe (feSetFlag 6 false (feSetFlag 2 false e)) 44 2 0) 50 2 0) 54 2 0
  crc32c (((List.range 256).flatMap fun i => feBytes (hw (feBytes (s.flow (rtFlow n i)).e)))
    ++ ((List.range 128).flatMap fun i => s.itemEntry (rtItem n + i))
    ++ ((List.range 256).flatMap fun i => let k := s.keyE (256 * n + i)
        leBytes 4 k.keyId ++ leBytes 1 k.alg ++ leBytes 1 k.st ++ leBytes 1 k.usage))

def State.sliceUse (s : State) (n : Nat) : State :=
  let keys := (s.gate.keys.filter fun k => k.1 / 256 == n && k.2.st != 0).length
  let flows := (s.gate.flows.filter fun f => decide (65536 ≤ f.1) && (f.1 - 65536) / 256 == n && feValid f.2.e).length
  let items := (s.groom.items.filter fun i => decide (32768 ≤ i.1) && (i.1 - 32768) / 128 == n && dValid i.2).length
  (((s.put (sl F.SLICE_USE_HELD n) (s.submitted n)).put (sl F.SLICE_USE_ITEMS n) items).put (sl F.SLICE_USE_KEYS n) (min keys 255)).put
    (sl F.SLICE_USE_FLOWS n) (min flows 255)

/-! Power states of the function (R341, R365 to R368). -/


/-- The host interface is reset (R341): every queue ends, and the MSI-X table with it. -/
def State.hostReset (s : State) : State :=
  (s.each (List.range 256) fun n t => t.when (t.bit (sl F.SLICE_CTRL_EN n)) fun u => u.endQueues n).setHost fun x =>
    { x with msix := [], pba := [] }

/-- The link may train: PERST_N is high and PE_REFCLK present. PD19 is brought ON and WAKE_N released. -/
def State.startTraining (s : State) : State :=
  if s.host.fn == .d3cold && s.host.perstN && s.host.peRefclk then
    (s.setHost fun x => { x with fn := .training, wakeN := true }).wakeDomain 19
  else s

def execPerstAssert (dt : Nat) (s : State) : Res :=
  fin (((s.elapse dt).hostReset.setHost fun x => { x with perstN := false, fn := .d3cold }).evalDomain 19 2)

def execPerstDeassert (dt : Nat) (s : State) : Res :=
  fin ((s.elapse dt).setHost fun x => { x with perstN := true }).startTraining

def execPeRefclkChange (present : Bool) (dt : Nat) (s : State) : Res :=
  fin ((s.elapse dt).setHost fun x => { x with peRefclk := present }).startTraining

/-- The function enters D0, and what is staged is delivered. -/
def State.enterD0 (s : State) : State :=
  let s := (s.setHost fun x => { x with fn := .d0 }).evalDomain 19 2
  s.each s.sliceList fun n t => t.flushSlice n

def execPcieLinkUp (dt : Nat) (s : State) : Res :=
  let s := s.elapse dt
  fin (if s.host.fn == .training && s.host.peRefclk && s.domState 19 == 0 && !s.domWaking 19 then s.enterD0 else s)

def execFunctionLevelReset (dt : Nat) (s : State) : Res := fin (s.elapse dt).hostReset
def execHotReset (dt : Nat) (s : State) : Res := fin (s.elapse dt).hostReset

def execD3hotEntry (dt : Nat) (s : State) : Res :=
  let s := s.elapse dt
  fin (if s.host.fn == .d0 then (s.setHost fun x => { x with fn := .d3hot }).evalDomain 19 2 else s)

def execD0Entry (dt : Nat) (s : State) : Res :=
  let s := s.elapse dt
  fin (if s.host.fn == .d3hot then s.enterD0 else s)

/-- The LTR message follows the value at the end of every command (R364); this command lets its time pass. -/
def execLtrSend (dt : Nat) (s : State) : Res := fin (s.elapse dt)

end Sys2Proof.Machine
end

