-- ==== Sys2Proof/Machine/Migrate.lean ====
section
/-! DEFINITION. Freeze, thaw, save and restore of a slice (R343, R354 to R360), the clearing of R344, and what an edge does to
slices. -/

namespace Sys2Proof.Machine

/-! States (R343). -/

/-- Domains whose tolerance holds WORK_TOL are evaluated again (R364). -/
def State.tolAgain (s : State) : State := ((s.evalDomain 15 1).evalDomain 16 1).evalDomain 17 1

/-- STATE changes; the mask of R296 and the holds follow. -/
def State.toSlice (s : State) (n v : Nat) : State := ((s.put (sl F.SLICE_STATUS_STATE n) v).sendSlices false).tolAgain.syncHold

/-- FREEZE: FREEZING, in effect at the next edge (R354). -/
def State.freezeSlice (s : State) (n : Nat) : State :=
  if s.sliceState n = 1 then (s.toSlice n 2).setSlice n fun x => { x with freezeIn := some s.bt.next } else s

/-- THAW: RUNNING, its items eligible from the next edge. -/
def State.thawSlice (s : State) (n : Nat) : State :=
  if s.sliceState n = 3 then (s.toSlice n 1).setSlice n fun x => { x with thawIn := some s.bt.next } else s

/-- A write of SLICE_MIG_CMD. -/
def migIn (n : Nat) (g : State → State) (t : State) : State := if t.bit (sl F.SLICE_MIG_CMD_BUSY n) then t else g t
def migCmd (m : Master) (n : Nat) (g : State → State) (s : State) : State := s.regWrite m (winAddr n 0x64) (migIn n g)

def execFreeze (m : Master) (n : Fin 256) (s : State) : Res := fin (migCmd m n (fun t => t.freezeSlice n) s)
def execThaw (m : Master) (n : Fin 256) (s : State) : Res := fin (migCmd m n (fun t => t.thawSlice n) s)

/-! The migration key (R356, R420). -/

/-- KEY_ID and material of the VALID MIGRATION slot that VAULT_CFG names. -/
def State.migKey (s : State) : Option (Nat × List Byte) :=
  let n := s.get F.VAULT_CFG
  let x := s.slot n
  if s.vault.root.isNone ∨ 512 ≤ n ∨ !x.valid ∨ srType x.rec' ≠ 3 then none
  else (s.slotKey x.rec').map fun k => (srKeyId x.rec', k)

/-- SAVE or RESTORE ends with ERR, its event, and the bytes moved. -/
def State.migEnd (s : State) (n : Nat) (code err vcode last moved : Nat) : State :=
  let s := s.setSlice n fun x => { x with inProg := x.inProg.filter fun c => decide (c.op < 0x100) }
  let s := ((s.put (sl F.SLICE_MIG_CMD_BUSY n) 0).put (sl F.SLICE_MIG_CMD_ERR n) err).put (sl F.SLICE_MIG_DONE n) moved
  let s := s.when (decide (4 ≤ s.sliceState n)) fun t => t.toSlice n 3
  s.raiseSlice code n err vcode last

/-- SAVE is accepted, or refused at once (R357, R360). -/
def saveCmd (n : Nat) (s : State) : State :=
  if s.sliceState n ≠ 3 ∨ !s.runsItems then s.migEnd n 0x0103 1 0 0 0
  else if s.migKey.isNone then s.migEnd n 0x0103 9 0 0 0
  else
    let s := ((s.toSlice n 4).flag (sl F.SLICE_MIG_CMD_BUSY n)).put (sl F.SLICE_MIG_CMD_ERR n) 0
    s.setSlice n fun x => { x with inProg := x.inProg ++ [⟨0x103, 0, false, s.role, 0, 0, [], s.clk⟩] }
def execSave (m : Master) (n : Fin 256) (s : State) : Res := fin (migCmd m n (saveCmd n) s)

/-! The blob (R356). -/

/-- Flows of the slice, ascending. -/
def State.sliceFlows (s : State) (n : Nat) : List Nat :=
  (s.gate.flows.filter fun f => feValid f.2.e && feSlice f.2.e == n).map (·.1)

def State.secHistory (s : State) (n : Nat) : List Byte :=
  Memory.bytes 0 s.loft.hist (n * histSize) histSize
    ++ (List.range 262144).flatMap fun g => leBytes 1 (TagMap.get (n * histSize / 256 + g) s.loft.tags)

def State.secState (s : State) (n : Nat) : List Byte :=
  ((s.sliceFlows n).filter fun f => (s.flowRec f).pageValid).flatMap fun f =>
    let r := s.flowRec f
    leBytes 4 f ++ leBytes 4 r.epoch ++ leBytes 4 (64 * r.len) ++ leBytes 4 0 ++ s.readTarget (s.posTarget r.pos r.ofs) (64 * r.len)

/-- The wrapped key of an entry: none for MOBILITY DEVICE (R397). -/
def KeyEnt.migBlob (k : KeyEnt) (id : Nat) (mkey : List Byte) : List Byte :=
  if k.mobility = 0 then []
  else (BlobInfo.mk 2 k.mobility id 0 k.keyId k.alg k.usage k.origin k.platform k.notBefore k.notAfter k.count).blob (kMw mkey)
    k.material

def State.secKeys (s : State) (n id : Nat) (mkey : List Byte) : List Byte :=
  (s.gate.keys.filter fun k => k.1 / 256 == n && k.2.st != 0).flatMap fun k =>
    let b := k.2.migBlob id mkey
    leBytes 1 (k.1 % 256) ++ leBytes 3 0 ++ leBytes 4 b.length ++ k.2.bytes ++ b

def State.secItems (s : State) (n : Nat) : List Byte := (List.range 128).flatMap fun i => s.itemEntry (rtItem n + i)

/-- Submitted items of the slice, in order of acceptance. -/
def State.heldItems (s : State) (n : Nat) : List Item := s.groom.ready.filter fun i => i.entry.isNone && itSlice i == n

def State.secHeld (s : State) (n : Nat) : List Byte :=
  let l := ((s.heldItems n).take 64).flatMap fun i => (i.d ++ List.replicate (64 - i.d.length) 0).take 64 ++ leBytes 1 i.carried ++ leBytes 7 0
  l ++ List.replicate (4608 - l.length) 0

def State.secFlows (s : State) (n : Nat) : List Byte :=
  (List.range 256).flatMap fun i => let x := s.flow (rtFlow n i)
    feBytes x.e ++ x.rep.bytes

/-- The blob of slice `n` under a migration key. -/
def State.migBlob (s : State) (n id : Nat) (mkey : List Byte) : List Byte :=
  let secs := [(6, s.secHistory n), (4, s.secState n), (5, s.secKeys n id mkey), (2, s.secItems n), (3, s.secHeld n), (1, s.secFlows n)]
  let table := (secs.foldl (fun (a : List Byte × Nat) x =>
    (a.1 ++ leBytes 1 x.1 ++ leBytes 3 0 ++ leBytes 4 x.2.length ++ leBytes 8 a.2, a.2 + x.2.length)) ([], 256)).1
  let data := secs.flatMap (·.2)
  let sig := Table.at (leBytes 32 0) n s.host.sliceSigs
  let hdr := leBytes 2 1 ++ leBytes 1 n ++ leBytes 1 1 ++ leBytes 2 s.deviceId ++ leBytes 2 6 ++ leBytes 8 (s.tenant n)
    ++ leBytes 8 (s.slice n).freezeBeat ++ leBytes 4 (s.get F.DEVID) ++ leBytes 4 s.rate ++ leBytes 8 (256 + data.length + 32)
    ++ sig ++ leBytes 4 id ++ leBytes 52 0 ++ table ++ leBytes 32 0
  hdr ++ data ++ Config.hmacSha256 mkey (hdr ++ data)

/-- The blob is complete or refused; `fault` is how many bytes were written before a DMA fault (R357, R360); `ce` and `ue` are
the errors of the reads of history (R159). -/
def saveDone (n : Nat) (fault : Option Nat) (ce : Nat) (ue : List Nat) (s : State) : State :=
  if s.sliceState n ≠ 4 then s
  else
    let same := ((s.slice n).inProg.find? fun c => c.op == 0x103).map (·.a0) == some s.role
    match s.migKey with
    | none => s.migEnd n 0x0103 9 0 0 0
    | some (id, key) =>
      let ue := ue.filter fun i => decide (i < 262144)
      let s := s.histErrors (n * histSize) ce ue
      let b := (s.blankHist (n * histSize) ue).migBlob n id key
      let room := s.get (sl F.SLICE_MIG_LEN n)
      let out := fun k => s.sliceDma n (s.get (sl F.SLICE_MIG_ADDR n)) (b.take k)
      if !same then s.migEnd n 0x0103 1 0 0 0
      else match fault with
        | some k =>
          let k := min k (min room b.length)
          ((out k).hostAccess 0x492 n (s.get (sl F.SLICE_MIG_ADDR n)) 1 false).1.migEnd n 0x0103 7 0 k k
        | none =>
          if room < b.length then (out room).migEnd n 0x0103 8 0 room room
          else ((out b.length).flag (sl F.SLICE_STATUS_SAVED n)).migEnd n 0x0103 0 0 b.length b.length
def execSaveDone (n : Fin 256) (fault : Option Nat) (dt : Nat) (s : State) (ce : Nat := 0) (ue : List Nat := []) : Res :=
  fin (saveDone n fault ce ue (s.elapse dt))

/-! RESTORE (R358 to R360). -/

def restoreCmd (n : Nat) (s : State) : State :=
  if s.sliceState n ≠ 3 ∨ (s.role ≠ 4 ∧ s.role ≠ 5) then s.migEnd n 0x0104 1 0 0 0
  else ((s.toSlice n 5).flag (sl F.SLICE_MIG_CMD_BUSY n)).put (sl F.SLICE_MIG_CMD_ERR n) 0
def execRestore (m : Master) (n : Fin 256) (s : State) : Res := fin (migCmd m n (restoreCmd n) s)

/-- The sections of a blob by its table, when the table is in order and gapless, and TOTAL agrees. -/
def migSections (b : List Byte) : Option (List (List Byte)) :=
  let ent := fun i => (leAt b (128 + 16 * i) 1, leAt b (132 + 16 * i) 4, leAt b (136 + 16 * i) 8)
  let ok := ((List.range 6).foldl (fun (a : Bool × Nat) i =>
    (a.1 && (ent i).1 == [6, 4, 5, 2, 3, 1].getD i 0 && (ent i).2.2 == a.2, a.2 + (ent i).2.1)) (true, 256))
  let lens := (List.range 6).map fun i => (ent i).2.1
  if ok.1 ∧ leAt b 6 2 = 6 ∧ leAt b 32 8 = ok.2 + 32 ∧ b.length = ok.2 + 32 ∧ lens.getD 0 0 = histSize + 262144 ∧ lens.getD 3 0 = 8192
      ∧ lens.getD 4 0 = 4608 ∧ lens.getD 5 0 = 24576 then
    some ((List.range 6).map fun i => (b.drop (ent i).2.2).take (ent i).2.1)
  else none

/-- The pages of a STATE section: flow, epoch and bytes. -/
def migPages : Nat → List Byte → Option (List (Nat × Nat × List Byte))
  | 0, _ => some []
  | k + 1, b =>
    if b.isEmpty then some []
    else
      let n := leAt b 8 4
      if b.length < 16 + n then none
      else (migPages k (b.drop (16 + n))).map fun l => (leAt b 0 4, leAt b 4 4, (b.drop 16).take n) :: l

/-- The keys of a KEYS section: entry, metadata and blob. -/
def migKeys : Nat → List Byte → Option (List (Nat × List Byte × List Byte))
  | 0, _ => some []
  | k + 1, b =>
    if b.isEmpty then some []
    else
      let n := leAt b 4 4
      if b.length < 32 + n then none
      else (migKeys k (b.drop (32 + n))).map fun l => (leAt b 0 1, (b.drop 8).take 24, (b.drop 32).take n) :: l

/-- The keys opened: their entries with metadata, headers and material, or the vault's code. -/
def State.openKeys (s : State) (n : Nat) : List (Nat × List Byte × List Byte) → Nat ⊕ List (Nat × Nat × BlobInfo × List Byte)
  | [] => .inr []
  | (e, meta', b) :: rest =>
    if b.isEmpty then s.openKeys n rest
    else match s.openBlob (.restore n) n b with
      | .inl c => .inl c
      | .inr mat =>
        let i := kbInfo b
        let dup := generating i.ktype i.usage && s.gate.keys.any fun k => k.1 / 256 != n && k.2.st == 1 && k.2.fp == s.fingerprint mat
        if i.ktype < 1 ∨ 7 < i.ktype then .inl 11
        else if !usageOk i.ktype i.usage then .inl 12
        else if dup then .inl 15
        else match s.openKeys n rest with
          | .inl c => .inl c
          | .inr l => .inr ((e, leAt meta' 5 1, { i with count := leAt meta' 20 4 }, mat) :: l)

def replayOf (b : List Byte) : Replay := ⟨leAt b 0 8, leAt b 8 8, timeAt b 16, leAt b 26 1 == 1⟩

/-- The first cause that refuses a blob (R360), with the vault's code; 0 for none. -/
def State.blobRefusal (s : State) (n : Nat) (b : List Byte) : Nat × Nat :=
  let sig := Table.at (leBytes 32 0) n s.host.sliceSigs
  if s.get (sl F.SLICE_MIG_LEN n) < leAt b 32 8 then (8, 0)
  else match migSections b with
    | none => (8, 0)
    | some secs =>
      match migPages (secs.getD 1 []).length (secs.getD 1 []), migKeys (secs.getD 2 []).length (secs.getD 2 []), s.migKey with
      | some _, some ks, some (id, key) =>
        if leAt b 0 2 ≠ 1 ∨ leAt b 3 1 ≠ 1 then (6, 0)
        else if leAt b 72 4 ≠ id then (9, 0)
        else if Config.hmacSha256 key (b.take (b.length - 32)) ≠ b.drop (b.length - 32) then (2, 0)
        else if leAt b 2 1 ≠ n then (4, 0)
        else if leAt b 8 8 ≠ s.tenant n then (3, 0)
        else if (b.drop 40).take 32 ≠ sig ∨ leAt b 28 4 ≠ s.rate then (5, 0)
        else match s.openKeys n ks with
          | .inl c => (10, c)
          | .inr _ => (0, 0)
      | some _, some _, none => (9, 0)
      | _, _, _ => (8, 0)

/-- Runtime flows with their replay states. -/
def State.restoreFlows (s : State) (n : Nat) (sec : List Byte) : State :=
  s.each (List.range 256) fun i t =>
    let f := rtFlow n i
    let e := (sec.drop (96 * i)).take 64
    let t := t.when (feValid (t.flow f).e) fun u => u.memberRemove f
    t.setFlow f fun _ => if e.all (· == 0) then FlowEnt.empty
      else { FlowEnt.empty with e := e, rep := replayOf ((sec.drop (96 * i + 64)).take 32) }

/-- Held items replace those of the slice. -/
def State.restoreHeld (s : State) (n : Nat) (sec : List Byte) : State :=
  let s := s.setGroom fun x => { x with ready := x.ready.filter fun i => !(i.entry.isNone && itSlice i == n) }
  s.each (List.range 64) fun i t =>
    let r := (sec.drop (72 * i)).take 72
    if dValid r then
      let it := { t.newItem t.beat (r.take 64) none with carried := leAt r 64 1 }
      t.setGroom fun x => { x with nextSeq := x.nextSeq + 1, ready := x.ready ++ [it] }
    else t

/-- Every key entry of the slice is replaced. -/
def State.restoreKeys (s : State) (n : Nat) (l : List (Nat × Nat × BlobInfo × List Byte)) : State :=
  let s := s.each ((s.gate.keys.filter fun k => k.1 / 256 == n).map (·.1)) fun e t => t.keyEmpty e
  s.each l fun x t => (t.keyLoad (256 * n + x.1) x.2.2.1 x.2.2.2).setKey (256 * n + x.1) fun k => { k with st := x.2.1 }

/-- History and its tags. -/
def State.restoreHistory (s : State) (n : Nat) (sec : List Byte) : State :=
  let base := n * histSize
  let s := s.setLoft fun x => { x with hist := Memory.store 0 (Memory.clear x.hist base histSize) base (sec.take histSize) }
  let s := s.setTags (.hist base) histSize 0
  s.each ((List.range 262144).zip (sec.drop histSize)) fun x t =>
    if x.2 = 0 then t else t.setTags (.hist (base + 256 * x.1)) 256 x.2.toNat

/-- State pages, and the epochs of every flow of the slice: above both placements (R358). -/
def State.restorePages (s : State) (n : Nat) (l : List (Nat × Nat × List Byte)) : State :=
  let s := s.each l fun x t =>
    let r := t.flowRec x.1
    if r.pageValid ∧ 64 * r.len = x.2.2.length then t.writeTarget (t.posTarget r.pos r.ofs) x.2.2 else t
  s.each (s.sliceFlows n) fun f t =>
    let old := ((l.find? fun x => x.1 == f).map (·.2.1)).getD 0
    t.setFlowRec f fun r => { r with epoch := (max old r.epoch + 1) % 2 ^ 32 }

/-- The blob has been read (`ok`), and is applied or refused. An ACTIVE device becomes SOLO and resyncs (R359). -/
def restoreDone (n : Nat) (b : List Byte) (ok : Bool) (s : State) : State :=
  let src := leAt b 4 2
  if s.sliceState n ≠ 5 then s
  else if s.role ≠ 4 ∧ s.role ≠ 5 then s.migEnd n 0x0104 1 0 src 0
  else if !ok then (s.hostAccess 0x492 n (s.get (sl F.SLICE_MIG_ADDR n)) 0 false).1.migEnd n 0x0104 7 0 0 b.length
  else
    let s := s.addTo (sl F.SLICE_CNT_DMA_BYTES n) b.length
    let (err, code) := s.blobRefusal n b
    if err ≠ 0 then s.migEnd n 0x0104 err code src b.length
    else
      let secs := (migSections b).getD []
      let sec := fun i => secs.getD i []
      let keys := match s.openKeys n ((migKeys (sec 2).length (sec 2)).getD []) with
        | .inl _ => []
        | .inr l => l
      let s := (s.restoreHistory n (sec 0)).restoreFlows n (sec 5)
      let s := s.restorePages n ((migPages (sec 1).length (sec 1)).getD [])
      let s := s.restoreKeys n keys
      let s := s.each (List.range 128) fun i t =>
        let d := ((sec 3).drop (64 * i)).take 64
        t.setGroom fun x => { x with items := Table.put [] (rtItem n + i) (if d.all (· == 0) then [] else d) x.items }
      let s := (s.restoreHeld n (sec 4)).flag (sl F.SLICE_STATUS_RESTORED n)
      let s := (s.soloBy s.beat).when (s.bit F.PAIR_CFG_MODE) fun t => t.setPair fun x => { x with resync := none, rsWant := true }
      s.migEnd n 0x0104 0 0 src b.length
def execRestoreDone (n : Fin 256) (b : List Byte) (ok : Bool) (dt : Nat) (s : State) : Res := fin (restoreDone n b ok (s.elapse dt))

/-! Clearing (R344). -/

/-- The content of a slice goes. -/
def State.clearSlice (s : State) (n : Nat) : State :=
  let owned := s.sliceFlows n
  let s := s.each (List.range 256) fun i t =>
    t.when (feValid (t.flow (rtFlow n i)).e) fun u => u.askChange (rtFlow n i) .invalidate .hw
  let s := s.setGroom fun x => { x with
    items := x.items.filter fun e => !decide (rtItem n ≤ e.1 ∧ e.1 < rtItem n + 128)
    writes := x.writes.filter fun w => w.2.2.1 != n
    ready := x.ready.filter fun i => !(i.entry.isNone && itSlice i == n) }
  let s := s.each ((s.gate.keys.filter fun k => k.1 / 256 == n).map (·.1)) fun e t => t.keyEmpty e
  let s := (s.setLoft fun x => { x with hist := Memory.clear x.hist (n * histSize) histSize }).setTags (.hist (n * histSize)) histSize 0
  let s := s.each owned fun f t =>
    let r := t.flowRec f
    match t.posTarget r.pos r.ofs with
    | .shedMem p o => if r.pageValid then t.setShed p fun x => { x with mem := Memory.clear x.mem o (64 * r.len) } else t
    | _ => t
  if s.noEntropy then s else s.instantiate n

/-- The clearing starts for a bind (with its values) or an unbind. -/
def State.startClear' (s : State) (n : Nat) (b : Option (Nat × Nat × Nat × Nat)) : State :=
  (s.flag (sl F.SLICE_STATUS_INIT_BUSY n)).setSlice n fun x => { x with clearing := some b }

/-- A binding takes its registers (R343); an UNBOUND slice has none. -/
def State.setBinding (s : State) (n pasid tenant cmd dma : Nat) : State :=
  let s := (s.put (sl F.SLICE_ID_PASID n) pasid).put (sl F.SLICE_TENANT n) tenant
  ((s.put (sl F.SLICE_RATE_CMD_RATE n) cmd).put (sl F.SLICE_RATE_DMA_RATE n) dma).setSlice n fun x =>
    { x with bucket := 64000000, bucketAt := s.clk }

/-- The clearing completes: the bind leaves the slice FROZEN, the unbind UNBOUND; event 0x0107. -/
def sliceClearDone (n : Nat) (s : State) : State :=
  match (s.slice n).clearing with
  | none => s
  | some b =>
    let s := ((s.clearSlice n).put (sl F.SLICE_STATUS_INIT_BUSY n) 0).setSlice n fun x => { x with clearing := none }
    let (s, st) := match b with
      | some (p, t, c, d) => (((s.setBinding n p t c d).toSlice n 3).flag (F.GROOM_SLICE_CFGn_FROZEN.idx n), 3)
      | none =>
        let s := ((s.endQueues n).setBinding n 0 0 0 0).toSlice n 0
        ((s.put (F.GROOM_SLICE_CFGn_FROZEN.idx n) 0).setSlice n fun x => { x with freezeIn := none, thawIn := none, fetched := [] }, 0)
    s.raiseSlice 0x0107 n st 0 0
def execSliceClearDone (n : Fin 256) (dt : Nat) (s : State) : Res := fin (sliceClearDone n (s.elapse dt))

/-! The edge of a beat. -/

/-- Thaws and freezes take effect, SLICE_LTR is taken (R354, R364), and commands that wait for the edge complete. -/
def State.sliceEdge (s : State) (b : Nat) : State :=
  let s := s.each s.sliceList fun n t =>
    let t := t.when (t.slice n).thawIn.isSome fun u =>
      (u.put (F.GROOM_SLICE_CFGn_FROZEN.idx n) 0).setSlice n fun x => { x with thawIn := none }
    t.when (t.slice n).freezeIn.isSome fun u =>
      (u.flag (F.GROOM_SLICE_CFGn_FROZEN.idx n)).setSlice n fun x => { x with freezeIn := none, freezeBeat := b, freezeAt := u.clk }
  let ltr := fun (n : Nat) => s.get (sl F.SLICE_LTR_HOST_TOL n) * 65536 + s.get (sl F.SLICE_LTR_WORK_TOL n)
  let new := (List.range 256).filter fun n => ltr n != (s.slice n).ltrNow
  let s := s.each new fun n t => t.setSlice n fun x => { x with ltrNow := ltr n }
  (s.when (!new.isEmpty) State.tolAgain).commandEdge

end Sys2Proof.Machine
end

