-- ==== Sys2Proof/Machine/Vault.lean ====
section
/-! DEFINITION. Vault commands (R402 to R405, R623), noise sources and their health tests (R406 to R412), DRBG reseeds (R413),
and raw noise (R409). A command is issued by its register write, waits, and ends at VAULT_CMD_DONE. -/

namespace Sys2Proof.Machine

/-! The command block (R402). -/

def vcKind (b : List Byte) : Nat := leAt b 1 1
def vcEntry (b : List Byte) : Nat := leAt b 2 2
def vcSlot (b : List Byte) : Nat := leAt b 4 2
def vcKtype (b : List Byte) : Nat := leAt b 6 1
def vcUsage (b : List Byte) : Nat := leAt b 7 1
def vcSrcLen (b : List Byte) : Nat := leAt b 16 4
def vcRef (b : List Byte) : Nat := leAt b 20 4
def vcDst (b : List Byte) : Nat := leAt b 24 8
def vcKeyId (b : List Byte) : Nat := leAt b 32 4
def vcMob (b : List Byte) : Nat := leAt b 36 1
def vcTarget (b : List Byte) : Nat := vcFlags b % 4
def vcHost (b : List Byte) : Bool := bitOf (vcFlags b) 7
def vcNotBefore (b : List Byte) : Nat := leAt b 38 6
def vcNotAfter (b : List Byte) : Nat := leAt b 44 6

/-- The block is in order for its opcode: the BAD_CMD of R404. -/
def vcOk (op : Nat) (b : List Byte) : Bool :=
  decide (1 ≤ op ∧ op ≤ 0x0B) && leAt b 0 1 == op && bitsOf (vcFlags b) 2 5 == 0 && leAt b 50 14 == 0
    && (if op = 5 then decide (vcTarget b < 3) else vcTarget b == 0)
    && (if op = 2 ∨ op = 3 ∨ op = 4 then decide (vcKind b ≤ 2 ∧ vcMob b ≤ 2) && (vcKind b != 1 || decide (vcRef b < 256)) else true)
    && (if op = 2 then keyLenOf (vcKtype b) != 0 && vcSrcLen b == keyLenOf (vcKtype b) && !vcHost b
        else if op = 3 then keyLenOf (vcKtype b) != 0
        else if op = 5 then decide (32 ≤ vcSrcLen b) && (vcTarget b != 2 || decide (vcSlot b < 512))
        else if op = 6 ∨ op = 7 ∨ op = 8 then decide (vcSlot b < 512) && (op = 8 || decide (vcMob b ≤ 2))
        else if op = 9 then decide (1 ≤ vcSrcLen b ∧ vcSrcLen b ≤ 4096)
        else if op = 0x0A then decide (vcEntry b ≤ 257)
        else true)

/-- The life-cycle state permits the command (R454). -/
def State.vcMay (s : State) (op : Nat) (b : List Byte) : Bool :=
  if 1 ≤ op ∧ op ≤ 4 then s.mayVault .keyLoads
  else if op = 5 then s.mayVault .slot0Use && (vcTarget b != 2 || vcSlot b == 0 || s.mayVault .otherSlots)
  else if op = 6 ∨ op = 7 then (if vcSlot b = 0 then s.mayVault .slot0Write else s.mayVault .otherSlots)
  else if op = 0x0B then s.mayVault .slot0Use
  else true

/-- The general refusals of R404, in this order (assumption log 96): 0 for none. -/
def State.vcRefusal (s : State) (c : VCmd) : Nat :=
  if s.bit F.VAULT_STATUS_KAT_FAIL then 6
  else if !s.bit F.VAULT_CTRL ∧ c.op ≠ 8 ∧ c.op ≠ 9 ∧ c.op ≠ 0x0B then 2
  else if !s.vcMay c.op c.block then 3
  else if !vcOk c.op c.block then 1
  else if (c.op = 6 ∨ c.op = 7) ∧ c.by' ≠ .dc then 4
  else if s.vault.root.isNone ∧ c.op ≠ 8 ∧ c.op ≠ 9 ∧ c.op ≠ 0x0A then 5
  else 0

/-- A refusal for which the spec names no code: a free value among the codes other than OK (assumption log 97). -/
def State.freeCode (s : State) : State × Nat := (s.useFree, 1 + s.freeVal 16 % 22)

/-- Output bytes go to DST (`ok`), otherwise DMA_FAULT. -/
def State.vcOut (s : State) (c : VCmd) (ok : Bool) (bs : List Byte) : State × Nat :=
  if ok then (s.emit (.dmaWrite none (vcDst c.block) bs), 0) else (s, 21)

/-! The commands: each answers the state and its code. -/

def State.runLoad (s : State) (c : VCmd) (src : Option (List Byte)) : State × Nat :=
  match src with
  | none => (s, 21)
  | some b =>
    let w := match c.by' with
      | .slice n _ _ => BlobBy.slice n
      | _ => BlobBy.platform
    s.loadBlob w (vcEntry c.block) (b.take (vcSrcLen c.block))

/-- LOAD_PLAIN and GENERATE from their second check on (R623): the key enters the cache and its blob goes out. -/
def State.makeKey (s : State) (c : VCmd) (mat : List Byte) (origin : Nat) (ok : Bool) : State × Nat :=
  let b := c.block
  let e := vcEntry b
  let tenant := if vcKind b = 1 then s.tenant (vcRef b % 256) else 0
  match s.wrapKey (vcKind b) (vcRef b) tenant with
  | none => (s, 9)
  | some (k, typ, _) =>
    if vcKind b = 1 ∧ vcRef b % 256 ≠ e / 256 then (s, 10)
    else if !mobOk (vcMob b) (vcKind b) typ then (s, 13)
    else
      let code := s.keyAdmit e (vcKtype b) (vcUsage b) (s.fingerprint mat)
      if code ≠ 0 then (s, code)
      else
        let i : BlobInfo := ⟨vcKind b, vcMob b, if vcKind b = 0 then 0 else vcRef b, tenant, vcKeyId b, vcKtype b, vcUsage b, origin,
          vcKind b == 0, vcNotBefore b, vcNotAfter b, 0⟩
        let (s, code) := s.vcOut c ok (i.blob k mat)
        if code ≠ 0 then (s, code) else (s.keyLoad e i mat, 0)

/-- GENERATE draws its key from the vault DRBG. -/
def State.runGenerate (s : State) (c : VCmd) (ok : Bool) : State × Nat :=
  let (s, got) := s.drbgReq 256
  if got then s.useFree.makeKey c (s.drawn (keyLenOf (vcKtype c.block))) 0 ok else (s, 20)

/-- WRAP_OUT (R397): MOBILITY becomes the lower of the two. An EMPTY entry is out of its range (assumption log 97). -/
def State.runWrapOut (s : State) (c : VCmd) (ok : Bool) : State × Nat :=
  let b := c.block
  let k := s.keyE (vcEntry b)
  let tenant := if vcKind b = 1 then s.tenant (vcRef b % 256) else 0
  let mob := min (vcMob b) k.mobility
  if k.st = 0 then (s, 1)
  else match s.wrapKey (vcKind b) (vcRef b) tenant with
    | none => (s, 9)
    | some (w, typ, _) =>
      if vcKind b = 1 ∧ vcRef b % 256 ≠ vcEntry b / 256 then (s, 10)
      else if !mobOk mob (vcKind b) typ then (s, 13)
      else
        let i : BlobInfo := ⟨vcKind b, mob, if vcKind b = 0 then 0 else vcRef b, tenant, k.keyId, k.alg, k.usage, k.origin, k.platform,
          k.notBefore, k.notAfter, k.count⟩
        s.vcOut c ok (i.blob w k.material)

/-! Attestation (R405). -/

/-- What a statement says of its key. -/
structure Subject where
  kind : Nat
  index : Nat
  slice : Nat
  tenant : Nat
  info : BlobInfo
  fp : List Byte
  deriving DecidableEq, Repr

/-- The FINGERPRINT of a key (R405). -/
def keyPrint (ktype : Nat) (mat : List Byte) : List Byte :=
  if ktype < 0x20 then Config.hmacSha256 mat (ascii "DL-FP") ++ leBytes 16 0 else Config.sha384 (Config.publicForm ktype mat)

/-- The subject of a cache entry. -/
def State.entrySubject (s : State) (e : Nat) : Option Subject :=
  let k := s.keyE e
  if k.st = 0 then none
  else some ⟨0, e, e / 256, if k.platform then 0 else s.tenant (e / 256),
    ⟨0, k.mobility, 0, 0, k.keyId, k.alg, k.usage, k.origin, k.platform, k.notBefore, k.notAfter, k.count⟩, keyPrint k.alg k.material⟩

/-- The subject of an opened key-pair blob. -/
def blobSubject (b mat : List Byte) : Subject :=
  ⟨1, 0, if kbKind b = 1 then kbRef b % 256 else 0, if kbPlatform b then 0 else kbTenant b, kbInfo b, keyPrint (kbKtype b) mat⟩

/-- The statement's 264 bytes, signed under slot 0's key with the random values of a draw. -/
def State.statement (s : State) (x : Subject) (nonce key : List Byte) (draw : Nat) : List Byte :=
  let body := leBytes 2 1 ++ leBytes 2 s.deviceId ++ leBytes 4 (s.get F.DEVID) ++ s.uid ++ leBytes 1 1 ++ leBytes 1 s.life
    ++ leBytes 1 x.kind ++ leBytes 1 x.info.ktype ++ leBytes 1 x.info.origin ++ leBytes 1 x.info.mob ++ leBytes 1 x.info.usage
    ++ leBytes 1 (b2n x.info.platform) ++ leBytes 2 x.index ++ leBytes 1 x.slice ++ leBytes 1 0 ++ leBytes 4 x.info.keyId
    ++ leBytes 8 x.tenant ++ leBytes 6 x.info.notBefore ++ leBytes 6 x.info.notAfter ++ leBytes 4 0 ++ (x.fp ++ leBytes 48 0).take 48
    ++ (nonce ++ leBytes 32 0).take 32 ++ timeBytes s.nowNs ++ leBytes 6 0 ++ leBytes 8 s.beat
  body ++ Config.pkSignature 2 true key (Config.sha384 body) draw

/-- The statement over a subject: slot 0 is used, the vault DRBG reseeded first; the bytes, or the code that refuses it. -/
def State.attest (s : State) (x : Subject) (nonce : List Byte) : State × (Nat ⊕ List Byte) :=
  let (s, code) := s.useSlot 0
  if code ≠ 0 then (s, .inl code)
  else match s.slotKey (s.slot 0).rec' with
    | none => (s, .inl 18)
    | some key =>
      let (s, got) := (s.setDrbg 256 { s.drbg 256 with fresh := true }).drbgReq 256
      if !got then (s, .inl 20) else (s.useFree, .inr (s.statement x nonce key (s.freeVal 512)))

/-- The subject that ATTEST names, or the code. -/
def State.attestSubject (s : State) (b src : List Byte) : State × (Nat ⊕ Subject) :=
  if vcTarget b = 0 then
    (s, match s.entrySubject (vcEntry b) with
      | none => .inl 1
      | some x => .inr x)
  else if vcTarget b = 1 then
    let kb := src.drop 32
    (s, match s.openBlob .platform (kbRef kb % 256) kb with
      | .inl c => .inl c
      | .inr mat => if kbKtype kb < 0x20 then .inl 11 else .inr (blobSubject kb mat))
  else
    let (s, code) := s.useSlot (vcSlot b)
    if code ≠ 0 then (s, .inl code)
    else
      let r := (s.slot (vcSlot b)).rec'
      match s.slotKey r with
      | none => (s, .inl 18)
      | some mat => (s, .inr ⟨2, vcSlot b, 0, 0,
          ⟨0, srMob r, 0, 0, srKeyId r, srKtype r, 0, srOrigin r, false, 0, 0, 0⟩, keyPrint (srKtype r) mat⟩)

def State.runAttest (s : State) (c : VCmd) (src : Option (List Byte)) (ok : Bool) : State × Nat :=
  match src with
  | none => (s, 21)
  | some d =>
    match s.attestSubject c.block d with
    | (s, .inl code) => (s, code)
    | (s, .inr x) =>
      match s.attest x (d.take 32) with
      | (s, .inl code) => (s, code)
      | (s, .inr bs) => s.vcOut c ok bs

/-! Slots (R394). -/

/-- TYPE of a new slot and its OWNER: KTYPE 0x10 serves two types and the command block names neither, so the choice and a
TRANSPORT slot's OWNER are free values (assumption log 98). -/
def State.slotType (s : State) (n ktype : Nat) : State × Nat × Nat :=
  if n = 0 then (s, 1, 0xFFFF)
  else if ktype = 0x10 then
    let t := 2 + s.freeVal 1
    let s := s.useFree
    if t = 2 then (s.useFree, 2, s.freeVal 16) else (s, 3, 0xFFFF)
  else if ktype = 0x11 then (s, 5, 0xFFFF)
  else (s, 4, 0xFFFF)

/-- The slot is written: its record in SRAM, then copy A and copy B; event 0xC00C. -/
def State.writeSlot (s : State) (n ktype keyId mob origin : Nat) (mat : List Byte) : State × Nat :=
  if !s.flashOk then s.freeCode
  else
    let (s, typ, owner) := s.slotType n ktype
    let w := Config.kwpWrap s.kSlot mat
    let r := leBytes 2 n ++ leBytes 1 1 ++ leBytes 1 typ ++ leBytes 4 keyId ++ leBytes 1 ktype ++ leBytes 1 mob ++ leBytes 1 origin
      ++ leBytes 1 0 ++ leBytes 2 owner ++ leBytes 2 0 ++ leBytes 8 (srCount (s.slot n).rec' + 1) ++ leBytes 6 (s.nowNs / 1000000000)
      ++ leBytes 2 0 ++ (w ++ leBytes 56 0).take 56 ++ leBytes 8 0
    let r := r ++ Config.hmacSha256 s.kChk r
    (((((s.writeCopy n 0 r).writeCopy n 1 r).setSlot n ⟨r, false⟩).raise 0xC00C 180 n typ 0 keyId), 0)

/-- What a slot may hold: its key type, and its KEY_ID unique among VALID slots. -/
def State.slotAdmit (s : State) (n ktype keyId : Nat) : Nat :=
  if !([0x10, 0x11, 0x20, 0x21, 0x22].contains ktype) || (n == 0 && ktype != 0x21) then 11
  else if s.vault.slots.any fun e => e.1 != n && e.2.valid && srKeyId e.2.rec' == keyId then 19
  else 0

def State.runSlotGen (s : State) (c : VCmd) : State × Nat :=
  let b := c.block
  let code := s.slotAdmit (vcSlot b) (vcKtype b) (vcKeyId b)
  if code ≠ 0 then (s, code)
  else
    let (s, got) := s.drbgReq 256
    if !got then (s, 20)
    else
      let mat := if vcKtype b < 0x20 then s.drawn 32 else Config.drawnKey (vcKtype b) (s.freeVal 512)
      s.useFree.writeSlot (vcSlot b) (vcKtype b) (vcKeyId b) (if vcSlot b = 0 then 0 else vcMob b) 0 mat

def State.runSlotImport (s : State) (c : VCmd) (src : Option (List Byte)) : State × Nat :=
  match src with
  | none => (s, 21)
  | some kb =>
    let kb := kb.take (vcSrcLen c.block)
    match s.openBlob .platform (kbRef kb % 256) kb with
    | .inl code => (s, code)
    | .inr mat =>
      let n := vcSlot c.block
      let code := if n = 0 then 11 else s.slotAdmit n (kbKtype kb) (kbKeyId kb)
      if code ≠ 0 then (s, code) else s.writeSlot n (kbKtype kb) (kbKeyId kb) (kbMob kb) 1 mat

/-- SLOT_META: bytes 0 to 31 of the record, then the load state: 0 EMPTY, 1 VALID, 2 UNUSABLE (assumption log 99). -/
def State.runSlotMeta (s : State) (c : VCmd) : State × Nat :=
  let x := s.slot (vcSlot c.block)
  let st := if x.bad then 2 else if x.valid then 1 else 0
  (s.putBytes F.VAULT_CMD_OUTn 16 ((x.rec' ++ leBytes 32 0).take 32 ++ leBytes 32 st), 0)

def State.runRngRead (s : State) (c : VCmd) (ok : Bool) : State × Nat :=
  let (s, got) := s.drbgReq 256
  if got then s.useFree.vcOut c ok (s.drawn (vcSrcLen c.block)) else (s, 20)

/-- RESEED: prediction resistance for the instance's next request. -/
def State.runReseed (s : State) (c : VCmd) : State × Nat :=
  let i := vcEntry c.block
  let t := s.reseed i
  (t.setDrbg i { t.drbg i with fresh := true }, 0)

/-- CERT_READ: the certificate when its digest matches OTP; the spec names no code for a mismatch. -/
def State.runCertRead (s : State) (c : VCmd) (ok : Bool) : State × Nat :=
  let (s, code) := s.useSlot 0
  if code ≠ 0 then (s, code)
  else
    let len := leNat (Memory.bytes 0xFF s.flash 0x0AF00000 4)
    let cert := Memory.bytes 0xFF s.flash 0x0AF00004 (min len 0x100000)
    if Config.sha384 cert = s.vault.otpCert then s.vcOut c ok cert else s.freeCode

/-- The command's effect and code; `src` is what was read at SRC, none for a fault, and `ok` that DST takes the output. -/
def State.vaultRun (s : State) (c : VCmd) (src : Option (List Byte)) (ok : Bool) : State × Nat :=
  let code := s.vcRefusal c
  if code ≠ 0 then (s, code)
  else match c.op with
    | 1 => s.runLoad c src
    | 2 => match src with
      | none => (s, 21)
      | some m => s.makeKey c ((m ++ leBytes (vcSrcLen c.block) 0).take (vcSrcLen c.block)) 2 ok
    | 3 => s.runGenerate c ok
    | 4 => s.runWrapOut c ok
    | 5 => s.runAttest c src ok
    | 6 => s.runSlotGen c
    | 7 => s.runSlotImport c src
    | 8 => s.runSlotMeta c
    | 9 => s.runRngRead c ok
    | 10 => s.runReseed c
    | _ => s.runCertRead c ok

/-! Issue and end (R402, R403). -/

/-- The counters of a command's end. -/
def State.vaultCount (s : State) (code who : Nat) : State :=
  let s := s.bump F.VAULT_CNT_CMDS
  let s := s.when (code != 0) fun t => (t.bump F.VAULT_CNT_REFUSED).flag F.VAULT_STATUS_CMD_ERR
  s.when (code == 8) fun t => t.unwrapFailed who

/-- The command in service ends with a code: whoever waits is told, its holds end, and the next one is taken. -/
def State.vaultEnd (s : State) (c : VCmd) (code : Nat) : State :=
  let s := s.setVault fun v => { v with cur := none }
  let s := match c.by' with
    | .slice n id q =>
      let s := s.vaultCount code n
      (match (s.slice n).inProg.find? fun (x : InProg) => x.op == 0x30 && x.cmdId == id with
       | none => s
       | some x => s.endCmd n { x with quiet := q } (if code = 0 then 0 else 8) (if code = 0 then [] else leBytes 2 code))
    | _ => (((s.vaultCount code 0xFFFF).put F.VAULT_CMD_RES code).put F.VAULT_CMD_BUSY 0).setDone 452
  s.syncHold.vaultNext

/-- A write of VAULT_CMD: the command waits its turn. A write while BUSY has no effect. -/
def vaultIssue (op : Nat) (s : State) : State :=
  if s.bit F.VAULT_CMD_BUSY then s
  else
    let s := s.flag F.VAULT_CMD_BUSY
    (s.setVault fun v => { v with queue := v.queue ++ [⟨.ym, op, s.getBytes F.VAULT_CMD_DATAn 16, none⟩] }).vaultNext

def vaultCmd (op : Nat) (m : Master) (s : State) : Res := fin (s.regWrite m 0xC00030 (vaultIssue op))

def execVaultLoad (m : Master) (s : State) : Res := vaultCmd 0x01 m s
def execLoadPlain (m : Master) (s : State) : Res := vaultCmd 0x02 m s
def execGenerate (m : Master) (s : State) : Res := vaultCmd 0x03 m s
def execWrapOut (m : Master) (s : State) : Res := vaultCmd 0x04 m s
def execAttest (m : Master) (s : State) : Res := vaultCmd 0x05 m s
def execSlotGen (m : Master) (s : State) : Res := vaultCmd 0x06 m s
def execSlotImport (m : Master) (s : State) : Res := vaultCmd 0x07 m s
def execSlotMeta (m : Master) (s : State) : Res := vaultCmd 0x08 m s
def execRngRead (m : Master) (s : State) : Res := vaultCmd 0x09 m s
def execReseed (m : Master) (s : State) : Res := vaultCmd 0x0A m s
def execCertRead (m : Master) (s : State) : Res := vaultCmd 0x0B m s

/-- The command in service ends; a RESEED without a source waits (R412). -/
def vaultCmdDone (src : Option (List Byte)) (ok : Bool) (s : State) : State :=
  match s.vault.cur with
  | none => s
  | some c =>
    if c.startAt.isNone || (c.op == 0x0A && s.noEntropy && s.vcRefusal c == 0) then s
    else
      let (s, code) := s.vaultRun c src ok
      s.vaultEnd c code
def execVaultCmdDone (src : Option (List Byte)) (ok : Bool) (dt : Nat) (s : State) : Res := fin (vaultCmdDone src ok (s.elapse dt))

/-- The bound of a command in ns (R403). -/
def vaultBound (op : Nat) : Nat :=
  if op = 1 then 8000
  else if op = 3 then 12000
  else if op = 5 then 1000000
  else if op = 6 ∨ op = 7 then 20000000
  else if op = 8 then 2000
  else if op = 0x0A then 100000
  else if op = 0x0B then 50000
  else 10000

/-! Noise (R406 to R412). -/

def State.noise (s : State) (i : Nat) : Noise := Table.at Noise.init i s.vault.noise
def State.setNoise (s : State) (i : Nat) (g : Noise → Noise) : State :=
  s.setVault fun v => { v with noise := Table.modify Noise.init i g v.noise }

/-- The device has a partner or a yard (R411). -/
def State.pairedOrYard (s : State) : Bool := s.bit F.PAIR_CFG_MODE || s.bit F.TUDEL_CTRL

def State.inUse (s : State) (i : Nat) : Bool := bitOf (s.get F.VAULT_RNG_STATUS_IN_USE) i
def State.startup (s : State) (i : Nat) : Bool := bitOf (s.get F.VAULT_RNG_STATUS_STARTUP) i

/-- NO_ENTROPY follows IN_USE (R412). -/
def State.syncEntropy (s : State) : State :=
  if s.get F.VAULT_RNG_STATUS_IN_USE ≠ 0 then s.put F.VAULT_STATUS_NO_ENTROPY 0
  else if s.noEntropy then s
  else (s.flag F.VAULT_STATUS_NO_ENTROPY).raise 0xC009 180 0 0 0 0

/-- Source `n` or the next one in use after it. -/
def State.nextUsed (s : State) (n : Nat) : Nat :=
  (((List.range 4).map fun j => (n + j) % 4).find? fun i => s.inUse i).getD n

/-- Conditioned bits are gathered in rotation (R408): 32 from the source whose turn it is, once it has them, at most `k` times. -/
def State.gather : Nat → State → State
  | 0, s => s
  | k + 1, s =>
    let i := s.nextUsed s.vault.turn
    let g := (s.noise i).got
    if !s.inUse i ∨ g.length < 32 then s
    else ((s.setNoise i fun x => { x with got := x.got.drop 32 }).setVault fun v =>
      { v with turn := (i + 1) % 4, pool := v.pool ++ g.take 32 }).gather k

/-- What is left to gather is gathered. -/
def State.gatherAll (s : State) : State := s.gather (((List.range 4).map fun i => (s.noise i).got.length / 32).sum)

/-- Source `i` fails a test: 0 repetition, 1 proportion (R410, R411). What it has conditioned from the failing run or window, and not
yet been gathered, is discarded; a source out of use keeps none. -/
def State.noiseFail (s : State) (i test : Nat) : State :=
  let up := s.startup i
  let s := s.bump ((if test = 0 then F.VAULT_CNT_RCTn else F.VAULT_CNT_APTn).idx i)
  let s := s.put F.VAULT_RNG_STATUS_FAILED (setBit (s.get F.VAULT_RNG_STATUS_FAILED) i)
  let s := (s.raise 0xC007 180 i (if up then 2 else test) 0 0).put F.VAULT_RNG_STATUS_POLICY (b2n s.pairedOrYard)
  let s := s.put F.VAULT_RNG_STATUS_STARTUP (clearBit (s.get F.VAULT_RNG_STATUS_STARTUP) i)
  let s := s.setNoise i fun x => { x with
    cond := if test = 1 then [] else x.cond.drop (x.run / 16 + 1)
    got := if test = 1 then x.got else x.got.take (x.got.length - (x.run / 16 + 1 - x.cond.length))
    last := none, run := 0, pos := 0, cnt := 0 }
  if s.pairedOrYard then
    let s := s.when (s.inUse i) fun t =>
      (t.put F.VAULT_RNG_STATUS_IN_USE (clearBit (t.get F.VAULT_RNG_STATUS_IN_USE) i)).raise 0xC008 180 i 0 0 0
    (s.setNoise i fun x => { x with removedAt := some s.clk, cond := [], got := [] }).syncEntropy.gatherAll
  else (s.put F.VAULT_RNG_STATUS_IN_USE (setBit (s.get F.VAULT_RNG_STATUS_IN_USE) i)).syncEntropy

/-- A window of 1,024 bits without a failure: a source in its start-up test is admitted. -/
def State.noisePass (s : State) (i : Nat) : State :=
  if !s.startup i then s
  else
    let back := (s.noise i).removedAt.isSome
    let s := s.put F.VAULT_RNG_STATUS_STARTUP (clearBit (s.get F.VAULT_RNG_STATUS_STARTUP) i)
    let s := (s.put F.VAULT_RNG_STATUS_IN_USE (setBit (s.get F.VAULT_RNG_STATUS_IN_USE) i)).setNoise i fun x => { x with removedAt := none }
    (s.when back fun t => t.raise 0xC008 180 i 1 0 0).syncEntropy

/-- One raw bit: the shift register and its conditioned bit (R407), then both tests (R410). The bits of a window without a failure can
be gathered, those of a start-up test not (assumption log 81). -/
def State.rawBit (s : State) (i : Nat) (r : Bool) : State :=
  let s := s.setNoise i fun x =>
    let fb := xor (xor (xor (bitOf x.sreg 31) (bitOf x.sreg 21)) (xor (bitOf x.sreg 1) (bitOf x.sreg 0))) r
    let start := x.pos = 0
    let same := x.last == some r
    { x with
      sreg := (x.sreg * 2) % 2 ^ 32 + b2n fb
      sub := (x.sub + 1) % 16
      cond := if (x.sub + 1) % 16 = 0 then fb :: x.cond else x.cond
      last := some r
      run := if same then x.run + 1 else 1
      first := if start then r else x.first
      cnt := if start then 1 else if r = x.first then x.cnt + 1 else x.cnt
      pos := x.pos + 1 }
  let x := s.noise i
  if x.run ≥ s.get F.VAULT_RNG_CFG_RCT_CUT then s.noiseFail i 0
  else if x.cnt ≥ s.get F.VAULT_RNG_CFG_APT_CUT then s.noiseFail i 1
  else if x.pos = 1024 then
    ((s.setNoise i fun y => { y with
      pos := 0, cnt := 0, cond := [], got := if s.inUse i then y.got ++ y.cond.reverse else y.got }).noisePass i).gatherAll
  else s

def execNoiseHealthTest (i : Fin 4) (bits : List Bool) (dt : Nat) (s : State) : Res :=
  fin ((s.elapse dt).each bits fun r t => t.rawBit i r)

/-- After RETEST seconds a removed source runs its start-up test. -/
def rngRetest (i : Nat) (s : State) : State :=
  match (s.noise i).removedAt with
  | none => s
  | some t =>
    if s.startup i ∨ s.inUse i ∨ s.clk < t + s.get F.VAULT_RNG_CFG_RETEST * 1000000000 then s
    else (s.put F.VAULT_RNG_STATUS_STARTUP (setBit (s.get F.VAULT_RNG_STATUS_STARTUP) i)).setNoise i fun x =>
      { x with last := none, run := 0, pos := 0, cnt := 0 }
def execRngRetest (i : Fin 4) (dt : Nat) (s : State) : Res := fin (rngRetest i (s.elapse dt))

/-- The background reseed (R413). -/
def drbgReseed (i : Nat) (s : State) : State :=
  let d := s.drbg i
  if d.ready && decide (2 ^ 20 - 65536 ≤ d.count) && !s.noEntropy then s.reseed i else s
def execDrbgReseed (i : Fin 258) (dt : Nat) (s : State) : Res := fin (drbgReseed i (s.elapse dt))

/-- A read of VAULT_RNG_RAW: `bits` are the raw bits of the source that VAULT_RNG_RAWSEL selects (R409). -/
def execRngRawRead (m : Master) (bits : Word) (s : State) : Res :=
  fin (s.regReadLatch m 0xC0010C fun t => t.ret (if t.may .rawNoise then bits.toNat else 0))

end Sys2Proof.Machine
end

