-- ==== Sys2Proof/Machine/Pk.lean ====
section
/-! DEFINITION. Public-key jobs (R422 to R435), the bound of commands and jobs (R416), and the vault's enable and start
sequence (R388, R389, R404, R418, R419). -/

namespace Sys2Proof.Machine

/-! The descriptor (R425). -/

def pjOp (d : List Byte) : Nat := leAt d 0 1
def pjAlg (d : List Byte) : Nat := leAt d 1 1
def pjPre (d : List Byte) : Bool := bitOf (leAt d 2 1) 0
def pjSlot (d : List Byte) : Bool := bitOf (leAt d 2 1) 1
def pjKeyLen (d : List Byte) : Nat := leAt d 4 4
def pjInLen (d : List Byte) : Nat := leAt d 24 4
def pjPeerLen (d : List Byte) : Nat := leAt d 28 4
def pjOut (d : List Byte) : Nat := leAt d 48 8
def pjOutLen (d : List Byte) : Nat := leAt d 56 4
def pjKeyId (d : List Byte) : Nat := leAt d 60 4
def pjUsage (d : List Byte) : Nat := leAt d 64 1
def pjMob (d : List Byte) : Nat := leAt d 65 1
def pjAtt (d : List Byte) : Nat := leAt d 66 1
def pjEntry (d : List Byte) : Nat := leAt d 68 2

/-- The key type of an algorithm (R423), and the lengths of R424. -/
def algKtype (a : Nat) : Nat :=
  if a = 1 ∨ a = 5 then 0x20 else if a = 2 ∨ a = 6 then 0x21 else if a = 3 then 0x22 else if a = 4 then 0x23
  else if a = 7 ∨ a = 8 then 0x28 else 0
def pubLen (k : Nat) : Nat := if k = 0x20 then 65 else if k = 0x21 then 97 else if k = 0x28 then 388 else 32
def sigLen (a : Nat) : Nat := if a = 2 then 96 else if a = 7 ∨ a = 8 then 384 else 64
def digestLen (a : Nat) : Nat := if a = 1 then 32 else 48
def secretLen (a : Nat) : Nat := if a = 6 then 48 else 32
def up8 (n : Nat) : Nat := (n + 7) / 8 * 8

/-- The operation exists for the algorithm. -/
def opAlgOk (op alg : Nat) : Bool :=
  if op = 1 ∨ op = 2 then [1, 2, 3, 7, 8].contains alg
  else if op = 3 then decide (1 ≤ alg ∧ alg ≤ 6)
  else if op = 4 then decide (4 ≤ alg ∧ alg ≤ 6)
  else alg == 0

/-- BAD_JOB of R428. -/
def PkJob.ok (j : PkJob) : Bool :=
  let d := j.desc
  decide (1 ≤ pjOp d ∧ pjOp d ≤ 6) && opAlgOk (pjOp d) (pjAlg d) && decide (leAt d 2 1 < 4) && leAt d 3 1 == 0 && leAt d 67 1 == 0
    && leAt d 82 6 == 0 && (!pjPre d || [1, 2, 7, 8].contains (pjAlg d)) && !(pjSlot d && j.slice.isSome)
    && decide (pjAtt d < 2) && decide (pjMob d ≤ 2) && pjOut d % 8 == 0 && decide (pjEntry d < 256)

/-- Bytes that the job writes to OUT. -/
def pkOutSize (d : List Byte) : Nat :=
  match pjOp d with
  | 1 => sigLen (pjAlg d)
  | 3 => up8 (pubLen (algKtype (pjAlg d))) + 64 + wrapLenOf (keyLenOf (algKtype (pjAlg d)))
  | 4 => secretLen (pjAlg d)
  | 5 => 264
  | 6 => pjOutLen d
  | _ => 0

/-- LENGTH of R428. -/
def pkLenOk (d : List Byte) : Bool :=
  decide (pjInLen d ≤ 1048576) && decide (pkOutSize d ≤ pjOutLen d)
    && (if pjPre d then pjInLen d == digestLen (pjAlg d) else true)
    && (if pjOp d = 5 then pjInLen d == 32 else if pjOp d = 6 then decide (1 ≤ pjOutLen d ∧ pjOutLen d ≤ 4096) else true)

/-- The bound of a job in ns (R429): each further 4 KiB of IN adds 1 µs. -/
def pkBound (d : List Byte) : Nat :=
  let a := pjAlg d
  let base := match pjOp d with
    | 1 => if a = 1 then 250000 else if a = 2 then 600000 else if a = 3 then 150000 else 3000000
    | 2 => if a = 1 then 250000 else if a = 2 then 700000 else if a = 3 then 300000 else 200000
    | 3 => if a = 1 ∨ a = 5 then 400000 else if a = 2 ∨ a = 6 then 1000000 else if a = 3 then 300000 else 250000
    | 4 => if a = 6 then 500000 else 200000
    | 5 => 1000000
    | _ => 20000
  base + ceilDiv (pjInLen d - 1256) 4096 * 1000

/-- The result of R428. -/
def pkResult (d : List Byte) (st engine detail out ns : Nat) : List Byte :=
  leBytes 1 st ++ leBytes 1 (pjOp d) ++ leBytes 1 engine ++ leBytes 1 0 ++ leBytes 2 detail ++ leBytes 2 0 ++ leBytes 4 out
    ++ leBytes 4 ns ++ (d.drop 88).take 8 ++ leBytes 24 0

/-! Queues and engines (R422, R430). -/

def State.eng (s : State) (e : Nat) : PkEng := Table.at PkEng.idle e s.vault.engines
def State.setEng (s : State) (e : Nat) (g : PkEng → PkEng) : State :=
  s.setVault fun v => { v with engines := Table.modify PkEng.idle e g v.engines }

def State.engOk (s : State) (e : Nat) : Bool := bitOf (s.get F.VAULT_PK_STATUS_ENG_OK) e

/-- A result is delivered: to the slice's queue, or to VAULT_PK_OUT. -/
def State.pkTell (s : State) (j : PkJob) (st engine detail out ns : Nat) : State :=
  let r := pkResult j.desc st engine detail out ns
  let who := j.slice.getD 0xFFFF
  let s := s.bump F.VAULT_CNT_PK_JOBS
  let s := s.when (st == 1) fun t => t.bump F.VAULT_CNT_PK_VFAIL
  let s := s.when (st == 7 || st == 8) fun t =>
    (t.bump F.VAULT_CNT_PK_TMO).limited 0xC012 who 1 fun k u => u.raise 0xC012 181 who st k 0
  match j.slice with
  | some n => s.cqPush n ⟨4, j.cmdId, 0, 48, 0, r, []⟩
  | none => (((s.putBytes F.VAULT_PK_OUTn 12 r).put F.VAULT_PK_CMD_BUSY 0).put F.VAULT_PK_CMD_STATUS st).setDone 453

/-- Jobs end unstarted. -/
def State.pkDrop (s : State) (l : List PkJob) (st : Nat) : State :=
  s.each l fun j t => (t.setVault fun v => { v with jobs := v.jobs.erase j }).pkTell j st 0xFF 0 0 0

/-- The precedence engine: the highest-numbered in service. -/
def State.precEngine (s : State) : Option Nat := (List.range 8).reverse.find? s.engOk

def pkSource (j : PkJob) : Nat := j.slice.getD 256

/-- A queue may start a job: a slice within VAULT_PK_CFG.INFLIGHT. -/
def State.pkMay (s : State) (j : PkJob) : Bool :=
  match j.slice with
  | none => true
  | some n => decide ((s.pkRuns.filter fun r => r.2.1.slice == some n).length < s.get F.VAULT_PK_CFG_INFLIGHT)

/-- The oldest job of the next queue in round-robin order. -/
def State.pkPick (s : State) : Option PkJob :=
  let dist := fun (j : PkJob) => (pkSource j + 257 - s.vault.pkLast - 1) % 257
  (s.vault.jobs.filter s.pkMay).foldl (fun (b : Option PkJob) j =>
    match b with
    | none => some j
    | some x => if dist j < dist x then some j else some x) none

/-- The next start: engine and job. A waiting platform job first takes the precedence engine. -/
def State.pkNext (s : State) : Option (Nat × PkJob) :=
  let idle := (List.range 8).filter fun e => s.engOk e && (s.eng e).run.isNone
  let plat := s.vault.jobs.find? fun j => j.slice.isNone
  match s.precEngine, plat with
  | some p, some j => if idle.contains p then some (p, j) else
      (match idle.head?, s.pkPick with
       | some e, some k => some (e, k)
       | _, _ => none)
  | _, _ =>
    match idle.head?, s.pkPick with
    | some e, some k => some (e, k)
    | _, _ => none

def State.pkBusy (s : State) : State :=
  s.put F.VAULT_PK_STATUS_BUSY ((s.pkRuns.map (·.1)).foldl setBit 0)

/-- Engines start waiting jobs, while the vault is enabled and PD17 is ON; a waiting job asks for PD17 (assumption log 100). -/
def State.pkGo (s : State) : Nat → State
  | 0 => s
  | k + 1 =>
    match s.pkNext with
    | none => s
    | some (e, j) =>
      let s := (s.setVault fun v => { v with jobs := v.jobs.erase j, pkLast := pkSource j }).setEng e fun x => { x with run := some (j, s.clk) }
      s.pkBusy.pkGo k

def State.pkStart (s : State) : State :=
  if !s.bit F.VAULT_CTRL ∨ s.vault.jobs.isEmpty then s
  else if !s.vaultReady then (if s.bit F.VAULT_STATUS_INIT_BUSY then s else s.wakeDomain 17)
  else (s.pkGo s.vault.jobs.length).syncHold

/-- A job is accepted: it waits, or ends at once where the life-cycle state forbids it or no engine is in service. -/
def State.pkAccept (s : State) (j : PkJob) : State :=
  if !s.mayVault .pkJobs then s.pkTell j 13 0xFF 0 0 0
  else if s.get F.VAULT_PK_STATUS_ENG_OK = 0 then s.pkTell j 12 0xFF 0 0 0
  else (s.setVault fun v => { v with jobs := v.jobs ++ [j] }).pkStart

/-- PK_JOB of a slice (R349), and GO of the platform (R446). -/
def execPkJob (n : Fin 256) (dt : Nat) (s : State) : Res :=
  fin (sliceCmd 0x03 n dt (fun e t => t.pkAccept ⟨some n, sqId e, sqBody e 96, t.clk⟩) s)

def pkCmdWrite (d : Nat) (s : State) : State :=
  if !bitOf d 0 ∨ s.bit F.VAULT_PK_CMD_BUSY then s
  else (s.flag F.VAULT_PK_CMD_BUSY).pkAccept ⟨none, 0, s.getBytes F.VAULT_PK_DESCn 24, s.clk⟩
def execPkCmdGo (m : Master) (d : Nat) (s : State) : Res := fin (s.regWrite m 0xC00408 (pkCmdWrite d))

/-- A check of R432 failed on engine `e` (R433, R434). -/
def State.sigFault (s : State) (e op who : Nat) : State :=
  let x := s.eng e
  let s := (s.bump F.VAULT_CNT_PK_SIGFAULT).raise 0xC010 181 e op 0 who
  let again := match x.fault with
    | none => false
    | some k => decide (x.jobs - k < 65536)
  let s := s.setEng e fun y => { y with fault := some x.jobs }
  if again then
    let s := (s.put F.VAULT_PK_STATUS_ENG_OK (clearBit (s.get F.VAULT_PK_STATUS_ENG_OK) e)).raise 0xC011 181 e 0 0 0
    if s.get F.VAULT_PK_STATUS_ENG_OK = 0 then s.pkDrop s.vault.jobs 12 else s
  else s

/-- The job on engine `e` ends: its output is written when it ends OK, its engine wiped, and the next jobs start. -/
def State.pkEnd (s : State) (e st detail : Nat) (out : List Byte) : State :=
  match (s.eng e).run with
  | none => s
  | some (j, t0) =>
    let s := s.setEng e fun x => { x with run := none, jobs := x.jobs + 1 }
    let out := if st = 0 then out else []
    let s := match j.slice with
      | some n => s.sliceDma n (pjOut j.desc) out
      | none => if out.isEmpty then s else s.emit (.dmaWrite none (pjOut j.desc) out)
    let s := s.when (st == 5) fun t => t.sigFault e (pjOp j.desc) (j.slice.getD 0xFFFF)
    let s := s.when (st == 3 && detail == 8) fun t => t.unwrapFailed (j.slice.getD 0xFFFF)
    (s.pkTell j st e detail out.length (min (s.clk - t0) (2 ^ 32 - 1))).pkBusy.syncHold.pkStart

/-! The operations (R426). -/

/-- The job of operation `op` on engine `e` ends as `g` says, after the checks that every job meets; `ok` says that no DMA access
of the job was refused. -/
def pkRun (op e : Nat) (ok : Bool) (g : PkJob → State → State × Nat × Nat × List Byte) (s : State) : State :=
  match (s.eng e).run with
  | none => s
  | some (j, _) =>
    if pjOp j.desc ≠ op then s
    else if !j.ok then s.pkEnd e 2 0 []
    else if !pkLenOk j.desc then s.pkEnd e 11 0 []
    else if s.bit F.VAULT_STATUS_KAT_FAIL then s.pkEnd e 3 6 []
    else if !ok then (match j.slice with
      | some n => (s.hostAccess 0x493 n (pjOut j.desc) 0 false).1.pkEnd e 6 0 []
      | none => s.pkEnd e 6 0 [])
    else
      let (s, st, detail, out) := g j s
      s.pkEnd e st detail out

/-- A descriptor with no known operation ends BAD_JOB with whichever operation's command finds it on its engine. -/
def pkUnknown (e : Nat) (s : State) : State :=
  match (s.eng e).run with
  | none => s
  | some (j, _) => if pjOp j.desc < 1 ∨ 6 < pjOp j.desc then s.pkEnd e 2 0 [] else s

def pkOp (op e : Nat) (ok : Bool) (dt : Nat) (g : PkJob → State → State × Nat × Nat × List Byte) (s : State) : Res :=
  fin (pkRun op e ok g (pkUnknown e (s.elapse dt)))

/-- The private key that a job names (R427), or status and detail. -/
def State.pkKey (s : State) (j : PkJob) (blob : List Byte) (bit : Nat) : State × ((Nat × Nat) ⊕ List Byte) :=
  let kt := algKtype (pjAlg j.desc)
  if pjSlot j.desc then
    let n := pjKeyLen j.desc % 512
    if n = 0 then (s, .inl (3, 11))
    else
      let (s, code) := s.useSlot n
      let r := (s.slot n).rec'
      if code ≠ 0 then (s, .inl (3, code))
      else if srKtype r ≠ kt ∨ srType r ≠ 4 then (s, .inl (3, 11))
      else if bit ≠ 0 then (s, .inl (4, 0))
      else (s, match s.slotKey r with
        | none => .inl (3, 18)
        | some m => .inr m)
  else
    let b := blob.take (pjKeyLen j.desc)
    let res := match j.slice with
      | some n => s.openBlob (.slice n) n b
      | none => s.openBlob .platform (kbRef b % 256) b
    (s, match res with
      | .inl c => .inl (3, c)
      | .inr m =>
        if kbKtype b ≠ kt then .inl (3, 11)
        else if !usageOk kt (kbUsage b) then .inl (3, 12)
        else if kt = 0x28 ∧ !Config.rsaKeyOk m then .inl (3, 8)
        else if !bitOf (kbUsage b) bit then .inl (4, 0)
        else .inr m)

/-- The DRBG instance of a job (R427). -/
def PkJob.inst (j : PkJob) : Nat := j.slice.getD 256

/-- PEER is valid (R427). -/
def peerOk (d peer : List Byte) : Bool :=
  pjPeerLen d == pubLen (algKtype (pjAlg d)) && peer.length == pubLen (algKtype (pjAlg d)) && Config.peerValid (pjAlg d) peer

/-- SIGN; `good` says that the signature verified before release (R432). -/
def pkSign (blob msg : List Byte) (good : Bool) (j : PkJob) (s : State) : State × Nat × Nat × List Byte :=
  match s.pkKey j blob 0 with
  | (s, .inl (st, c)) => (s, st, c, [])
  | (s, .inr key) =>
    let (s, got) := s.drbgReq j.inst
    if !got then (s, 9, 0, [])
    else if !good then (s.useFree, 5, 0, [])
    else (s.useFree, 0, 0, Config.pkSignature (pjAlg j.desc) (pjPre j.desc) key (msg.take (pjInLen j.desc)) (s.freeVal 512))
def execPkSign (e : Fin 8) (blob msg : List Byte) (ok good : Bool) (dt : Nat) (s : State) : Res := pkOp 1 e ok dt (pkSign blob msg good) s

def pkVerify (peer msg sig : List Byte) (j : PkJob) (s : State) : State × Nat × Nat × List Byte :=
  if !peerOk j.desc peer then (s, 10, 0, [])
  else (s, if Config.pkVerifies (pjAlg j.desc) (pjPre j.desc) peer (msg.take (pjInLen j.desc)) (sig.take (sigLen (pjAlg j.desc))) then 0 else 1,
    0, [])
def execPkVerify (e : Fin 8) (peer msg sig : List Byte) (ok : Bool) (dt : Nat) (s : State) : Res := pkOp 2 e ok dt (pkVerify peer msg sig) s

/-- KEYGEN: the public form, then the blob of the private key: kind SLICE for a slice, DEVICE for the platform (R427). -/
def pkKeygen (good : Bool) (j : PkJob) (s : State) : State × Nat × Nat × List Byte :=
  let d := j.desc
  let kt := algKtype (pjAlg d)
  if s.vault.root.isNone then (s, 3, 5, [])
  else if !usageOk kt (pjUsage d) then (s, 3, 12, [])
  else
    let (s, got) := s.drbgReq j.inst
    if !got then (s, 9, 0, [])
    else if !good then (s.useFree, 5, 0, [])
    else
      let mat := Config.drawnKey kt (s.freeVal 512)
      let n := j.slice.getD 0
      let own := j.slice.isSome
      let i : BlobInfo := ⟨b2n own, pjMob d, if own then n else 0, if own then s.tenant n else 0, pjKeyId d, kt, pjUsage d, 0, !own,
        leAt d 70 6, leAt d 76 6, 0⟩
      let pub := Config.publicForm kt mat
      let blob := i.blob (if own then s.kSlc n (s.tenant n) else s.kDev) mat
      (s.useFree, 0, 0, pub ++ List.replicate (up8 pub.length - pub.length) 0 ++ blob)
def execPkKeygen (e : Fin 8) (ok good : Bool) (dt : Nat) (s : State) : Res := pkOp 3 e ok dt (pkKeygen good) s

def pkDerive (blob peer : List Byte) (good : Bool) (j : PkJob) (s : State) : State × Nat × Nat × List Byte :=
  match s.pkKey j blob 1 with
  | (s, .inl (st, c)) => (s, st, c, [])
  | (s, .inr key) =>
    let secret := Config.sharedSecret (pjAlg j.desc) key peer
    if !peerOk j.desc peer ∨ (pjAlg j.desc = 4 ∧ secret.all (· == 0)) then (s, 10, 0, [])
    else
      let (s, got) := s.drbgReq j.inst
      if !got then (s, 9, 0, []) else if !good then (s, 5, 0, []) else (s, 0, 0, secret)
def execPkDerive (e : Fin 8) (blob peer : List Byte) (ok good : Bool) (dt : Nat) (s : State) : Res := pkOp 4 e ok dt (pkDerive blob peer good) s

/-- The subject of an ATTEST job: an entry of the slice, or a key-pair blob. -/
def State.pkSubject (s : State) (j : PkJob) (blob : List Byte) : Nat ⊕ Subject :=
  let n := j.slice.getD 0
  if pjAtt j.desc = 0 then
    (match s.entrySubject (256 * n + pjEntry j.desc) with
     | none => .inl 1
     | some x => .inr x)
  else
    let b := blob.take (pjKeyLen j.desc)
    match (match j.slice with
      | some n => s.openBlob (.slice n) n b
      | none => s.openBlob .platform (kbRef b % 256) b) with
    | .inl c => .inl c
    | .inr mat => if kbKtype b < 0x20 then .inl 11 else .inr (blobSubject b mat)

def pkAttest (blob nonce : List Byte) (good : Bool) (j : PkJob) (s : State) : State × Nat × Nat × List Byte :=
  match s.pkSubject j blob with
  | .inl c => (s, 3, c, [])
  | .inr x =>
    if !good then (s, 5, 0, [])
    else match s.attest x nonce with
      | (s, .inl c) => if c = 20 then (s, 9, 0, []) else (s, 3, c, [])
      | (s, .inr bs) => (s, 0, 0, bs)
def execPkAttest (e : Fin 8) (blob nonce : List Byte) (ok good : Bool) (dt : Nat) (s : State) : Res :=
  pkOp 5 e ok dt (pkAttest blob nonce good) s

def pkRandom (j : PkJob) (s : State) : State × Nat × Nat × List Byte :=
  let (s, got) := s.drbgReq j.inst
  if got then (s.useFree, 0, 0, s.drawn (pjOutLen j.desc)) else (s, 9, 0, [])
def execPkRandom (e : Fin 8) (ok : Bool) (dt : Nat) (s : State) : Res := pkOp 6 e ok dt pkRandom s

/-- The `i`-th waiting job was not started within TMO ms. -/
def pkJobTimeout (i : Nat) (s : State) : State :=
  match s.vault.jobs[i]? with
  | none => s
  | some j => if s.clk - j.at' < s.get F.VAULT_PK_CFG_TMO * 1000000 then s else s.pkDrop [j] 7
def execPkJobTimeout (i dt : Nat) (s : State) : Res := fin (pkJobTimeout i (s.elapse dt))

/-! Bounds (R416). -/

/-- The command (none) or the job of engine `e` has outlasted its bound: HOLD_TIMEOUT. -/
def holdBound (e : Option Nat) (s : State) : State :=
  match e with
  | none =>
    (match s.vault.cur with
     | none => s
     | some c =>
       match c.startAt with
       | none => s
       | some t =>
         if s.clk - t < vaultBound c.op then s
         else (((s.bump F.VAULT_CNT_HOLD_TMO).raise 0xC00B 180 17 c.op 0 0).vaultEnd c 22))
  | some e =>
    match (s.eng e).run with
    | none => s
    | some (j, t) =>
      if s.clk - t < pkBound j.desc then s
      else ((s.bump F.VAULT_CNT_HOLD_TMO).raise 0xC00B 180 17 (pjOp j.desc) 0 0).pkEnd e 8 0 []
def execHoldBoundExpiry (e : Option (Fin 8)) (dt : Nat) (s : State) : Res := fin (holdBound (e.map (·.val)) (s.elapse dt))

/-! Enable and start (R404, R418, R419). -/

/-- What EN = 1 asks. -/
def State.vaultOk (s : State) : Bool :=
  let inR := fun (x a b : Nat) => decide (a ≤ x ∧ x ≤ b)
  let m := s.get F.VAULT_CFG
  (m == 0x3FF || (decide (m < 512) && (s.slot m).valid && srType (s.slot m).rec' == 3))
    && inR (s.get F.VAULT_RNG_CFG_APT_CUT) 513 1024 && inR (s.get F.VAULT_RNG_CFG_RCT_CUT) 2 255 && inR (s.get F.VAULT_RNG_CFG_RETEST) 1 255
    && inR (s.get F.VAULT_PK_CFG_INFLIGHT) 1 4 && inR (s.get F.VAULT_PK_CFG_TMO) 1 1000 && inR (s.get F.VAULT_DC_CFG) 10 3600

def vaultCtrlWrite (d : Nat) (s : State) : State :=
  if !bitOf d 0 then (s.put F.VAULT_CTRL 0).put F.VAULT_STATUS_RUNNING 0
  else if s.bit F.VAULT_CTRL then s
  else if !s.vaultOk then s.flag F.VAULT_STATUS_CFG_ERR
  else ((((s.freshLimits (rateBlock 0xC)).flag F.VAULT_CTRL).put F.VAULT_STATUS_CFG_ERR 0).putB F.VAULT_STATUS_RUNNING (!s.bit F.VAULT_STATUS_INIT_BUSY)).pkStart
def execVaultEnable (m : Master) (d : Nat) (s : State) : Res := fin (s.regWrite m 0xC00000 (vaultCtrlWrite d))

/-- The vault's start sequence begins (R418). -/
def State.vaultBegin (s : State) : State :=
  let s := (s.flag F.VAULT_STATUS_INIT_BUSY).put F.VAULT_STATUS_RUNNING 0
  let s := (s.put F.VAULT_RNG_STATUS_IN_USE 0).put F.VAULT_RNG_STATUS_STARTUP 0xF
  let s := s.put F.VAULT_DC_OPEN 0
  s.setVault fun v => { v with root := none, noise := [], turn := 0, pool := [], drbg := [], chals := [] }

/-- The bytewise majority of the three copies, and how many bits of it the copies disagree in (R388). -/
def rootVote (l : List (List Byte)) : List Byte × Nat :=
  let c := fun i => (l.getD i [] ++ leBytes 32 0).take 32
  let n := fun i => leNat (c i)
  let v := vote3 (n 0) (n 1) (n 2)
  (leBytes 32 v, popCount 256 ((n 0 ^^^ v) ||| (n 1 ^^^ v) ||| (n 2 ^^^ v)))

/-- The root key is read and checked (R388, R389). -/
def State.rootRead (s : State) : State :=
  let (root, bits) := rootVote s.vault.otpRoot
  let s := (s.addTo F.VAULT_CNT_ROOT_VOTE bits).when (bits != 0) fun t => t.raise 0xC002 180 bits 0 0 0
  if (Config.hmacSha256 root (ascii "DL-ROOT-KCV")).take 4 = leBytes 4 s.vault.otpKcv then
    (s.put F.VAULT_STATUS_ROOT_FAIL 0).setVault fun v => { v with root := some root }
  else ((s.flag F.VAULT_STATUS_ROOT_FAIL).raise 0xC001 180 0 0 0 0).setVault fun v => { v with root := none }

/-- The start sequence ends: `kat` is the step whose test failed, `bad` the sources whose start-up test failed with the test
(false repetition). -/
def vaultStartDone (kat : Option Nat) (bad : List (Nat × Bool)) (s : State) : State :=
  if !s.bit F.VAULT_STATUS_INIT_BUSY then s
  else
    let s := s.rootRead
    let s := match kat with
      | none => s.put F.VAULT_STATUS_KAT_FAIL 0
      | some k => (s.flag F.VAULT_STATUS_KAT_FAIL).raise 0xC003 180 k 0 0 0
    let s := s.each bad fun x t => t.when (decide (x.1 < 4)) fun u => u.noiseFail x.1 (b2n x.2)
    let s := s.each (List.range 4) fun i t => t.noisePass i
    let s := s.put F.VAULT_RNG_STATUS_POLICY (b2n s.pairedOrYard)
    let s := if s.noEntropy then s else s.each (List.range 258) fun i t => t.instantiate i
    let nonce := s.freeVal 32
    let s := s.useFree.setGate fun x => { x with macFixed := nonce }
    let s := if s.vault.root.isSome && !s.flashOk then
        ((s.setVault fun v => { v with slots := [] }).setSlot 0 ⟨[], false⟩).raise 0xC004 180 0xFFFF 0 0 0
      else s.each (List.range 512) fun n t => t.loadSlot n
    let s := ((s.put F.VAULT_STATUS_INIT_BUSY 0).putB F.VAULT_STATUS_RUNNING (s.bit F.VAULT_CTRL)).setVault fun v =>
      { v with timerAt := some s.clk }
    s.vaultKick.vaultNext.pkStart
def execVaultStartDone (kat : Option Nat) (bad : List (Fin 4 × Bool)) (dt : Nat) (s : State) : Res :=
  fin (vaultStartDone kat (bad.map fun x => (x.1.val, x.2)) (s.elapse dt))

end Sys2Proof.Machine
end

