-- ==== Sys2Proof/Machine/Image.lean ====
section
/-! DEFINITION. The Zorjo image in flash (R531 to R539), its checks (R542), and the boot record (R528 to R530). -/

namespace Sys2Proof.Machine

def State.setBoot (s : State) (g : BootSt → BootSt) : State := { s with boot := g s.boot }
def State.setOtp (s : State) (g : OtpSt → OtpSt) : State := { s with otp := g s.otp }

def State.flashBytes (s : State) (a n : Nat) : List Byte := Memory.bytes 0xFF s.flash a n

/-! The header (R531). -/

def slotBase (slot : Nat) : Nat := slot * 0x5000000
def slotSize : Nat := 0x5000000
def State.header (s : State) (slot : Nat) : List Byte := s.flashBytes (slotBase slot) 512

def hLen (h : List Byte) : Nat := leAt h 8 4
def hSections (h : List Byte) : Nat := leAt h 12 2
def hCompat (h : List Byte) : Nat := leAt h 14 1
def hSvn (h : List Byte) : Nat := leAt h 15 1
def hDevice (h : List Byte) : Nat := leAt h 16 2
def hStrap (h : List Byte) : Nat := leAt h 18 1
def hLifeMask (h : List Byte) : Nat := leAt h 19 1
def hFloor (h : List Byte) : Nat := leAt h 20 1
def hAuto (h : List Byte) : Bool := bitOf (leAt h 21 1) 0
def hConfirm (h : List Byte) : Nat := leAt h 22 2
def hPairSig (h : List Byte) : List Byte := (h.drop 64).take 48
def hUid (h : List Byte) : List Byte := (h.drop 112).take 16

/-- A section: its type, offset and length. -/
structure Section where
  typ : Nat
  ofs : Nat
  len : Nat
  deriving DecidableEq, Repr

def hSection (h : List Byte) (i : Nat) : Section :=
  ⟨leAt h (128 + 12 * i) 1, leAt h (132 + 12 * i) 4, leAt h (136 + 12 * i) 4⟩
def sections (h : List Byte) : List Section := (List.range (min (hSections h) 32)).map (hSection h)
def sectionOf (h : List Byte) (typ : Nat) : Option Section := (sections h).find? fun (x : Section) => x.typ == typ

def sectionTypes : List Nat := [1, 2, 3, 4, 5, 6, 7, 8, 9, 10, 11, 12, 15]
def zeros (bs : List Byte) : Bool := bs.all (· == 0)

/-- The first failing check of a list, by its byte offset. -/
def firstBad (l : List (Nat × Bool)) : Option Nat := (l.find? fun (x : Nat × Bool) => !x.2).map (·.1)

/-- The header's own rules (R531). -/
def headerBad (h : List Byte) : Option Nat :=
  firstBad [(0, h.take 4 == [0x5A, 0x52, 0x4A, 0x31]), (4, leAt h 4 2 == 1), (6, leAt h 6 2 == 512),
    (8, decide (4096 ≤ hLen h ∧ hLen h ≤ 83886080)), (12, decide (4 ≤ hSections h ∧ hSections h ≤ 32)), (15, decide (hSvn h ≤ 64)),
    (18, hStrap h == 0 || hStrap h == 1 || hStrap h == 0xFF), (19, hLifeMask h &&& 0xE == hLifeMask h),
    (20, decide (hFloor h ≤ hSvn h)), (21, decide (leAt h 21 1 < 2)), (22, decide (1 ≤ hConfirm h))]

/-- The section table's rules (R532): `prev` is the last type and `fin` the end of the last section. -/
def tableBad (h : List Byte) : Nat → Nat → List Nat → Option Nat
  | _, _, [] => none
  | prev, stop, i :: rest =>
    let o := 128 + 12 * i
    let x := hSection h i
    if i < hSections h then
      if !(sectionTypes.contains x.typ && decide (prev < x.typ)) then some o
      else if !zeros ((h.drop (o + 1)).take 3) then some (o + 1)
      else if x.ofs % 64 ≠ 0 ∨ x.ofs < stop ∨ hLen h < x.ofs + x.len then some (o + 4)
      else if x.typ = 15 ∧ (i + 1 ≠ hSections h ∨ x.ofs + x.len ≠ hLen h) then some (o + 8)
      else tableBad h x.typ (x.ofs + x.len) rest
    else if !zeros ((h.drop o).take 12) then some o
    else tableBad h prev stop rest

/-- Every image has FIRMWARE, DEVICE, BEAT and CUSTODIANS. -/
def missingBad (h : List Byte) : Option Nat :=
  if [1, 2, 3, 12].all fun t => (sectionOf h t).isSome then none else some 128

/-! Firmware (R537). -/

def fwCodeLen (f : List Byte) : Nat := leAt f 12 4
def fwSvn (f : List Byte) : Nat := leAt f 8 1
def fwFloor (f : List Byte) : Nat := leAt f 9 1
def State.sectionBytes (s : State) (slot : Nat) (x : Section) : List Byte := s.flashBytes (slotBase slot + x.ofs) x.len
def State.firmware (s : State) (slot : Nat) : List Byte :=
  match sectionOf (s.header slot) 1 with
  | none => []
  | some x => s.sectionBytes slot x

def fwBad (f : List Byte) : Option Nat :=
  firstBad [(0, decide (256 ≤ f.length)), (0, f.take 4 == [0x5A, 0x46, 0x57, 0x31]), (8, decide (fwSvn f ≤ 32)), (9, decide (fwFloor f ≤ fwSvn f)),
    (10, zeros ((f.drop 10).take 2)), (12, fwCodeLen f % 4 == 0 && decide (fwCodeLen f ≤ 6291456) && f.length == 256 + fwCodeLen f),
    (20, zeros ((f.drop 20).take 12)), (129, zeros ((f.drop 129).take 31))]

def State.fwSigned (s : State) (f : List Byte) : Bool :=
  let key := (f.drop 32).take 97
  Config.sha384 key == s.otp.fwKey
    && Config.pkVerifies 2 true key (Config.sha384 (f.take (160 + fwCodeLen f))) (f.drop (160 + fwCodeLen f))

/-! Records (R534). -/

/-- A record: RTYPE, TABLE code, OFFSET or INDEX, and VALUE or DATA, with its place in the section. -/
structure ImgRec where
  typ : Nat
  table : Nat
  index : Nat
  data : List Byte
  at' : Nat
  deriving DecidableEq, Repr

/-- The records of a section's bytes, and the place of the first framing error. -/
def records : Nat → Nat → List Byte → List ImgRec × Option Nat
  | 0, _, _ => ([], none)
  | k + 1, o, bs =>
    if bs.isEmpty then ([], none)
    else
      let t := leAt bs 0 1
      let len := leAt bs 2 2
      if bs.length < 8 ∨ bs.length < len ∨ len % 4 ≠ 0 ∨ !((t = 1 ∧ len = 12 ∧ leAt bs 1 1 = 0) ∨ (t = 2 ∧ 8 ≤ len)) then ([], some o)
      else
        let (l, e) := records k (o + len) (bs.drop len)
        (⟨t, leAt bs 1 1, leAt bs 4 4, (bs.take len).drop 8, o⟩ :: l, e)

def State.sectionRecs (s : State) (slot : Nat) (x : Section) : List ImgRec × Option Nat :=
  let bs := s.sectionBytes slot x
  records bs.length x.ofs bs

/-- Sections that hold records, in order. -/
def recSections (h : List Byte) : List Section := (sections h).filter fun x => x.typ != 1 && x.typ != 15

def State.framingBad (s : State) (slot : Nat) : Option Nat :=
  (recSections (s.header slot)).findSome? fun x =>
    let r := s.sectionRecs slot x
    if r.2.isSome then r.2 else if x.typ = 9 ∧ 16384 < r.1.length then some x.ofs else none

/-- Cause 1 (FORMAT) with the offset at which the image breaks. -/
def State.formatBad (s : State) (slot : Nat) : Option Nat :=
  let h := s.header slot
  match headerBad h with
  | some o => some o
  | none =>
    match tableBad h 0 512 (List.range 32) with
    | some o => some o
    | none =>
      match missingBad h with
      | some o => some o
      | none =>
        match fwBad (s.firmware slot) with
        | some o => some (((sectionOf h 1).map (·.ofs)).getD 0 + o)
        | none => s.framingBad slot

/-! Digests (R538, R539). -/

def digestEnd (h : List Byte) : Nat := ((sectionOf h 15).map (·.ofs)).getD (hLen h)
def State.imageDigest (s : State) (slot : Nat) : List Byte :=
  Config.sha384 (s.flashBytes (slotBase slot) (digestEnd (s.header slot)))

def State.pairSigOf (s : State) (slot : Nat) : List Byte :=
  let h := s.header slot
  Config.sha384 ([3, 5, 6, 7, 8].flatMap fun t =>
    match sectionOf h t with
    | none => []
    | some x => leBytes 1 t ++ leBytes 4 x.len ++ s.sectionBytes slot x)

/-- The first failing cause among 3 to 6 (R542), 0 for none. -/
def State.imageCause (s : State) (slot : Nat) : Nat :=
  let h := s.header slot
  let f := s.firmware slot
  if !s.fwSigned f then 3
  else if hSvn h < s.otp.floor ∨ fwSvn f < s.otp.fwFloor then 4
  else if !bitOf (hLifeMask h) s.life then 5
  else if hCompat h ≠ s.get F.IDENT_COMPAT ∨ (!zeros (hUid h) ∧ hUid h ≠ s.uid) ∨ (hStrap h ≠ 0xFF ∧ hStrap h ≠ b2n s.pair.strapB) then 6
  else 0

/-! The boot record (R528). -/

def recordAt (c : Nat) : Nat := 0xF000000 + c * 0x10000
def rcCount (r : List Byte) : Nat := leAt r 8 8
def rcPreferred (r : List Byte) : Nat := leAt r 16 1 % 2
def rcTrial (r : List Byte) : Bool := bitOf (leAt r 17 1) 0
def rcTries (r : List Byte) : Nat := leAt r 18 1
def rcCust (r : List Byte) : List Byte := (r.drop 256).take 4096
/-- A slot's descriptor and its fields. -/
def rcSlot (r : List Byte) (slot : Nat) : List Byte := (r.drop (24 + 64 * slot)).take 64
def dState (d : List Byte) : Nat := leAt d 0 1
def dSvn (d : List Byte) : Nat := leAt d 1 1
def dDigest (d : List Byte) : List Byte := (d.drop 8).take 48

/-- Bytes of a record replaced from `o`. -/
def splice (r : List Byte) (o : Nat) (bs : List Byte) : List Byte := r.take o ++ bs ++ r.drop (o + bs.length)

/-- A descriptor with STATE and CAUSE. -/
def rcMark (r : List Byte) (slot st cause : Nat) : List Byte :=
  splice (splice r (24 + 64 * slot) (leBytes 1 st)) (26 + 64 * slot) (leBytes 1 cause)

/-- The image in slot `slot` becomes ACCEPTED and preferred, on trial with three tries (R544). -/
def State.rcAccept (s : State) (r : List Byte) (slot : Nat) : List Byte :=
  let h := s.header slot
  let d := leBytes 1 1 ++ leBytes 1 (hSvn h) ++ leBytes 2 0 ++ leBytes 4 (hLen h) ++ s.imageDigest slot ++ leBytes 6 (s.nowNs / 1000000000) ++ leBytes 2 0
  splice (splice r (24 + 64 * slot) d) 16 (leBytes 1 slot ++ leBytes 1 1 ++ leBytes 1 3)

/-- The key pair of slot 0: its private key while it is usable. -/
def State.slot0Key (s : State) : Option (List Byte) :=
  if (s.slot 0).valid then s.slotKey (s.slot 0).rec' else none

/-- The signature of a boot record verifies under slot 0. -/
def State.recordOk (s : State) (r : List Byte) : Bool :=
  match s.slot0Key with
  | none => false
  | some k => r.length == 4448 && leAt r 0 2 == 1
      && Config.pkVerifies 2 true (Config.publicForm 0x21 k) (Config.sha384 (r.take 4352)) (r.drop 4352)

/-- One copy is erased and programmed. -/
def State.programRecord (s : State) (c : Nat) (r : List Byte) : State :=
  (s.setFlash (Memory.store 0xFF (Memory.clear s.flash (recordAt c) 0x10000) (recordAt c) r)).bump F.IDENT_ERASE_BOOT

/-- GLB_IMG_SLOTA and _SLOTB as the record in force gives them. -/
def State.showSlots (s : State) : State :=
  let r := s.boot.record
  let tries := fun i => if rcPreferred r = i ∧ !r.isEmpty then rcTries r else 0
  let s := ((s.put F.GLB_IMG_SLOTA_STATE (dState (rcSlot r 0))).put F.GLB_IMG_SLOTA_SVN (dSvn (rcSlot r 0))).put F.GLB_IMG_SLOTA_TRIES_LEFT (tries 0)
  let s := ((s.put F.GLB_IMG_SLOTB_STATE (dState (rcSlot r 1))).put F.GLB_IMG_SLOTB_SVN (dSvn (rcSlot r 1))).put F.GLB_IMG_SLOTB_TRIES_LEFT (tries 1)
  (s.putB F.GLB_IMG_SLOTA_PREFERRED (!r.isEmpty && rcPreferred r == 0)).putB F.GLB_IMG_SLOTB_PREFERRED (!r.isEmpty && rcPreferred r == 1)

/-- A write of the boot record (R530): WRITE_COUNT rises, slot 0 signs, copy A then copy B; not made without a signature. -/
def State.writeRecord (s : State) (r : List Byte) : State × Bool :=
  match s.slot0Key with
  | none => (s, false)
  | some k =>
    if !s.flashOk then (s, false)
    else
      let r := splice (r.take 4352) 8 (leBytes 8 (rcCount r + 1))
      let r := splice r 152 (Config.sha384 (rcCust r))
      let sig := (Config.pkSignature 2 true k (Config.sha384 r) (s.freeVal 512) ++ leBytes 96 0).take 96
      let s := (s.useFree.programRecord 0 (r ++ sig)).programRecord 1 (r ++ sig)
      ((s.setBoot fun x => { x with record := r ++ sig }).showSlots, true)

/-- A first boot record, for a device that has none (R541, BENCH): empty descriptors. -/
def blankRecord : List Byte := leBytes 2 1 ++ leBytes 4350 0 ++ leBytes 96 0

/-- The boot record in force (R529); exactly one good copy repairs the other (assumption log 101). -/
def State.readRecord (s : State) : State :=
  let a := s.flashBytes (recordAt 0) 4448
  let b := s.flashBytes (recordAt 1) 4448
  let s := match s.recordOk a, s.recordOk b with
    | true, true => s.setBoot fun x => { x with record := if rcCount a < rcCount b then b else a }
    | true, false => (((s.programRecord 1 a).flag F.GLB_BOOT_STATUS_REC_REPAIRED).raise 0x0006 186 1 0 0 0).setBoot fun x => { x with record := a }
    | false, true => (((s.programRecord 0 b).flag F.GLB_BOOT_STATUS_REC_REPAIRED).raise 0x0006 186 0 0 0 0).setBoot fun x => { x with record := b }
    | false, false => (s.raise 0x0007 186 0 0 0 0).setBoot fun x => { x with record := [] }
  s.showSlots

/-! Custodians (R436). -/

/-- The custodian table of 32 entries of 128 bytes. -/
def custTable (bs : List Byte) : Table (List Byte) :=
  (List.range 32).foldl (fun t i =>
    let e := (bs.drop (128 * i)).take 128
    Table.put [] i (if zeros e then [] else e) t) []

/-- The custodian table of an image's CUSTODIANS section (R535). -/
def State.imageCust (s : State) (slot : Nat) : Table (List Byte) :=
  match sectionOf (s.header slot) 12 with
  | none => []
  | some x => (s.sectionRecs slot x).1.foldl (fun t (r : ImgRec) =>
      if r.typ = 2 ∧ r.table = 12 ∧ r.index < 32 then Table.put [] r.index ((r.data ++ leBytes 128 0).take 128) t else t) []
def custBytes (t : Table (List Byte)) : List Byte := (List.range 32).flatMap fun i => (Table.at [] i t ++ leBytes 128 0).take 128

end Sys2Proof.Machine
end

