-- ==== Sys2Proof/Machine/Life.lean ====
section
/-! DEFINITION. Life-cycle transitions and their OTP copies (R448 to R453), debug grants and the TAP (R457 to R462, R592), tamper
sources (R463 to R468) and re-arming (R470). -/

namespace Sys2Proof.Machine

def State.setLife (s : State) (g : LifeSt → LifeSt) : State := { s with lifeSt := g s.lifeSt }

/-! Registers that show OTP and the debug level. -/

/-- The OTP copy value of a state code (R448). -/
def lifeCode (st : Nat) : Nat := 2 ^ (4 * st) - 1

/-- LIFE_STATE.DBG_OPEN and DBG_LEVEL (R454, R457). -/
def State.syncDbg (s : State) : State :=
  let s := s.put F.LIFE_STATE_DBG_OPEN (dbgOpenLevel s.life)
  s.put F.LIFE_STATE_DBG_LEVEL s.dbgLevel

def State.digestOf (s : State) (t : Nat) : Option (List Byte) := Table.find t s.otp.digests

/-- LIFE_COPY01, LIFE_COPY2 and LIFE_DIGESTS as OTP stands. -/
def State.syncOtp (s : State) : State :=
  let c := fun i => s.otp.copies.getD i 0
  let s := ((s.put F.LIFE_COPY01_COPY0 (c 0)).put F.LIFE_COPY01_COPY1 (c 1)).put F.LIFE_COPY2 (c 2)
  let d := fun t => (s.digestOf t).isSome
  let s := ((s.putB F.LIFE_DIGESTS_BENCH (d 1)).putB F.LIFE_DIGESTS_FIELD (d 2)).putB F.LIFE_DIGESTS_RETURN (d 3)
  ((s.putB F.LIFE_DIGESTS_SCRAP (d 4)).putB F.LIFE_DIGESTS_DBG_OWNER (d 5)).putB F.LIFE_DIGESTS_DBG_VENDOR (d 6)

/-! Grants (R460 to R462). -/

/-- The grant in force ends with a cause. -/
def State.endGrant (s : State) (cause : Nat) : State :=
  if s.lifeSt.grant.isNone then s
  else
    let s := s.setLife fun x => { x with grant := none }
    let s := ((s.put F.LIFE_DBG_LEVEL 0).put F.LIFE_DBG_OWNER 0).put F.LIFE_DBG_REMAIN 0
    (s.raise 0xE009 183 cause 0 0 0).syncDbg

/-- Seconds that the grant in force has left. -/
def State.grantLeft (s : State) : Nat :=
  match s.lifeSt.grant with
  | none => 0
  | some (t, dur) => dur - (s.clk - t) / 1000000000

def grantExpiry (s : State) : State :=
  match s.lifeSt.grant with
  | none => s
  | some (t, dur) => if t + dur * 1000000000 ≤ s.clk then s.endGrant 1 else s
def execGrantExpiry (dt : Nat) (s : State) : Res := fin (grantExpiry (s.elapse dt))

/-! Transitions (R450 to R453). -/

/-- The token's digest is the one that OTP holds for the target. -/
def State.tokenOk (s : State) (target : Nat) (token : List Byte) : Bool := s.digestOf target == some (Config.sha384 token)

/-- The transitions of R451 that an envelope carries. -/
def transAllowed (st target : Nat) : Bool :=
  (st == 1 && target == 2) || ((st == 1 || st == 2) && target == 3) || ((st == 1 || st == 2 || st == 3) && target == 4)

/-- The programming of R450 begins; `env` says that an envelope waits for it. -/
def State.startTrans (s : State) (target : Nat) (env : Bool) : State := s.setLife fun x => { x with trans := some (target, env) }

/-- The copies after a programming that fails at copy `k` (none: all written): the failing copy holds any of the new bits. -/
def otpCopies (old : List Nat) (new : Nat) (fail : Option Nat) (v : Nat) : List Nat :=
  (List.range 3).map fun i =>
    let c := old.getD i 0
    match fail with
    | none => c ||| new
    | some k => if i < k then c ||| new else if i = k then c ||| (new &&& v) else c

/-- The programming ends: with all copies written the transition takes effect, with event 0xE001, and ends debug grants. -/
def State.otpDone (s : State) (target : Nat) (fail : Option Nat) : State :=
  let old := s.life
  let v := s.freeVal 16
  let s := s.useFree.setOtp fun o => { o with copies := otpCopies o.copies (lifeCode target) fail v }
  let s := (s.setLife fun x => { x with trans := none }).syncOtp
  if fail.isSome then s
  else
    let s := (s.put F.LIFE_STATE_STATE target).syncDbg
    let s := (s.raise 0xE001 183 target old 0 0).endGrant 4
    s.when (target == 4) fun t => t.setLife fun x => { x with scrapAt := some t.clk }

/-! LIFE_CMD (R451, R472). -/

/-- A life command, while none is in progress: ERR is cleared, and `g` runs. -/
def lifeCmd (g : State → State) (s : State) : State :=
  if s.bit F.LIFE_CMD_BUSY then s else g (s.put F.LIFE_CMD_ERR 0)

/-- TO_BENCH and TO_SCRAP. -/
def toState (target : Nat) (s : State) : State :=
  if s.life ≠ 0 ∨ s.lifeSt.trans.isSome then s.put F.LIFE_CMD_ERR 1
  else if !s.tokenOk target (s.getBytes F.LIFE_CMD_DATAn 8) then s.put F.LIFE_CMD_ERR 2
  else (s.flag F.LIFE_CMD_BUSY).startTrans target false

/-- SET_DIGEST; `ok` says that the OTP write succeeded. -/
def setDigest (ok : Bool) (s : State) : State :=
  let d := s.getBytes F.LIFE_CMD_DATAn 16
  let t := leAt d 0 1
  if !s.may .setDigest then s.put F.LIFE_CMD_ERR 1
  else if t < 2 ∨ 5 < t then s.put F.LIFE_CMD_ERR 4
  else if (s.digestOf t).isSome then s.put F.LIFE_CMD_ERR 3
  else if !ok then s.put F.LIFE_CMD_ERR 5
  else ((s.setOtp fun o => { o with digests := Table.insert t (d.drop 16) o.digests }).syncOtp).raise 0xE00B 183 t 0 0 0

/-- A write of LIFE_CMD with operation `op`. -/
def lifeCmdWrite (op : Nat) (ok : Bool) (s : State) : State :=
  if op = 1 then lifeCmd (toState 1) s
  else if op = 2 then lifeCmd (setDigest ok) s
  else if op = 3 then lifeCmd (fun t => t.endGrant 2) s
  else if op = 4 then lifeCmd (toState 4) s
  else s

def lifeReg (op : Nat) (ok : Bool) (m : Master) (s : State) : Res := fin (s.regWrite m 0x1000020 (lifeCmdWrite op ok))
def execToBench (m : Master) (s : State) : Res := lifeReg 1 true m s
def execSetDigest (m : Master) (ok : Bool) (s : State) : Res := lifeReg 2 ok m s
def execDbgEnd (m : Master) (s : State) : Res := lifeReg 3 true m s
def execToScrap (m : Master) (s : State) : Res := lifeReg 4 true m s

/-! Tamper sources (R463 to R467). -/

/-- MTC, and its bits [47:16]. -/
def State.mtc (s : State) : Nat := s.lifeSt.mtcBase + (s.clk - s.lifeSt.mtcAt) * 32768 / 1000000000
def State.mtcHigh (s : State) : Nat := s.mtc / 65536 % 2 ^ 32

/-- The configuration that source `n` runs with: EN, N, WINDOW and RESP (R472). -/
def State.srcCfg (s : State) (n : Nat) : Nat × Nat × Nat × Nat :=
  let f := fun (x : Fld) => if s.bit F.TAMP_CTRL then s.get (x.idx n) else x.rst
  (f F.TAMP_SRCn_CFG_EN, f F.TAMP_SRCn_CFG_N, f F.TAMP_SRCn_CFG_WINDOW, f F.TAMP_SRCn_CFG_RESP)
def State.srcResp (s : State) (n : Nat) : Nat := (s.srcCfg n).2.2.2

def State.sticky (s : State) (n : Nat) : Bool := bitOf (s.get F.TAMP_STICKY) n

/-- Event 0xE002 of source `n`, logged. -/
def State.tamperEvent (s : State) (n : Nat) (backup : Bool) : State :=
  let s := s.setLife fun x => { x with logged := setBit x.logged n }
  s.raiseEv ⟨0xE002, 183, n, s.get (F.TAMP_RECn_CNT_PARAM.idx n), s.get (F.TAMP_RECn_CNT_COUNT.idx n), s.get (F.TAMP_RECn_LAST.idx n),
    false, backup, []⟩

/-- Source `n` triggers (R466); without main power its event waits for the next power-on (R467). -/
def State.tampTrigger (s : State) (n param : Nat) : State :=
  let first := s.get (F.TAMP_RECn_CNT_COUNT.idx n) == 0
  let s := s.put F.TAMP_STICKY (setBit (s.get F.TAMP_STICKY) n)
  let s := (s.when first fun t => t.put (F.TAMP_RECn_FIRST.idx n) t.mtcHigh).put (F.TAMP_RECn_LAST.idx n) s.mtcHigh
  let s := (s.bump (F.TAMP_RECn_CNT_COUNT.idx n)).put (F.TAMP_RECn_CNT_PARAM.idx n) param
  let s := s.setLife fun x => { x with hist := Table.put [] n [] x.hist }
  let s := s.when s.lifeSt.mainOn fun t => t.tamperEvent n false
  let r := s.srcResp n
  let s := s.when (r == 1 || r == 3) fun t => t.flag F.TAMP_STATUS_ALERT
  if (r = 2 ∨ r = 3) ∧ !s.bit F.TAMP_STATUS_LOCKED then
    let s := (s.flag F.TAMP_STATUS_LOCKED).raise 0xE003 183 n 0 0 0
    s.when (s.life == 2) fun t => t.endGrant 5
  else s

/-- An occurrence of source `n` (R465). -/
def State.occurrence (s : State) (n param : Nat) : State :=
  let (en, cnt, win, _) := s.srcCfg n
  let s := s.put F.TAMP_LIVE (setBit (s.get F.TAMP_LIVE) n)
  if !s.lifeSt.mainOn then (if n < 4 then s.tampTrigger n param else s)
  else if en = 0 then s
  else
    let l := (s.clk :: Table.at [] n s.lifeSt.hist).take 15
    let s := s.setLife fun x => { x with hist := Table.put [] n l x.hist }
    match l[cnt - 1]? with
    | none => s
    | some t => if s.clk ≤ t + win * 1000000 then s.tampTrigger n param else s

/-- Conditions end, and that of `n` begins: sources 25 to 31 are never present. -/
def tamperStep (n : Option Nat) (param : Nat) (ended : List Nat) (s : State) : State :=
  let s := s.each ended fun i t => t.put F.TAMP_LIVE (clearBit (t.get F.TAMP_LIVE) i)
  match n with
  | none => s
  | some i => if 25 ≤ i ∨ bitOf (s.get F.TAMP_LIVE) i then s else s.occurrence i param
def execTamperOccurrence (n : Option (Fin 32)) (param : Nat) (ended : List (Fin 32)) (dt : Nat) (s : State) : Res :=
  fin (tamperStep (n.map (·.val)) (param % 65536) (ended.map (·.val)) (s.elapse dt))

/-- REFCLK_LOW has persisted for 2 µs (R464): every clock but those of AON and BKP stops. -/
def execRefclkLoss (dt : Nat) (s : State) : Res := fin ((s.elapse dt).setLife fun x => { x with refclkLost := true })

/-- Every source's configuration is in range. -/
def State.tampOk (s : State) : Bool :=
  (List.range 32).all fun n => s.get (F.TAMP_SRCn_CFG_N.idx n) != 0
    && decide (1 ≤ s.get (F.TAMP_SRCn_CFG_WINDOW.idx n) ∧ s.get (F.TAMP_SRCn_CFG_WINDOW.idx n) ≤ 60000)

/-- A write of TAMP_CTRL (R472). -/
def tampCtrlWrite (d : Nat) (s : State) : State :=
  if !bitOf d 0 then
    (if s.life = 1 ∨ s.life = 2 ∨ s.life = 3 then s else (s.put F.TAMP_CTRL 0).put F.TAMP_STATUS_RUNNING 0)
  else if s.bit F.TAMP_CTRL then s
  else if !s.tampOk then s.flag F.TAMP_STATUS_CFG_ERR
  else ((s.flag F.TAMP_CTRL).flag F.TAMP_STATUS_RUNNING).put F.TAMP_STATUS_CFG_ERR 0
def execTampEnable (m : Master) (d : Nat) (s : State) : Res := fin (s.regWrite m 0x1000000 (tampCtrlWrite d))

/-! Re-arming (R470). -/

/-- Why a re-arm is refused, 0 for none. -/
def State.rearmDetail (s : State) (mask seen : Nat) : Nat :=
  let l := (List.range 25).filter fun n => bitOf mask n
  if l.any fun n => s.get (F.TAMP_RECn_CNT_COUNT.idx n) != 0 && decide (seen < s.get (F.TAMP_RECn_LAST.idx n)) then 1
  else if l.any fun n => bitOf (s.get F.TAMP_LIVE) n then 2
  else 0

def State.rearm (s : State) (mask seen : Nat) : State :=
  let s := s.each ((List.range 25).filter fun n => bitOf mask n) fun n t =>
    let t := t.put F.TAMP_STICKY (clearBit (t.get F.TAMP_STICKY) n)
    let t := ((t.put (F.TAMP_RECn_FIRST.idx n) 0).put (F.TAMP_RECn_LAST.idx n) 0).put (F.TAMP_RECn_CNT_COUNT.idx n) 0
    let t := (t.put (F.TAMP_RECn_CNT_PARAM.idx n) 0).when (n == 22) fun u => u.put F.TAMP_STATUS_VBAT_LOST 0
    t.setLife fun x => { x with logged := clearBit x.logged n, hist := Table.put [] n [] x.hist }
  let left := (List.range 25).filter s.sticky
  let s := s.when (!left.any fun n => s.srcResp n == 1 || s.srcResp n == 3) fun t => t.put F.TAMP_STATUS_ALERT 0
  let s := s.when (!left.any fun n => decide (2 ≤ s.srcResp n)) fun t => t.put F.TAMP_STATUS_LOCKED 0
  s.raise 0xE004 183 mask seen 0 0

/-! Power-on: the vote and the canary (R449, R467, R468). -/

def canary : Nat := 0xA5C35A3C96E1691E

/-- The voted state: the code that two copies hold. -/
def lifeVote (c : List Nat) : Option Nat :=
  (List.range 5).find? fun st => decide (2 ≤ (c.filter fun v => v == lifeCode st).length)

/-- The life-cycle vote: missing bits are programmed, and a differing copy qualifies source 24 with event 0xE007. -/
def State.voteLife (s : State) : State :=
  let c := s.otp.copies
  let v := lifeVote c
  let differ := match v with
    | none => true
    | some st => c.any fun x => x != lifeCode st
  let s := s.setOtp fun o => { o with
    copies := match v with
      | none => c
      | some st => c.map fun x => if x &&& lifeCode st == x then lifeCode st else x }
  let s := (s.putB F.LIFE_STATE_DISAGREE v.isNone).put F.LIFE_STATE_STATE (v.getD 4)
  let s := s.syncOtp.syncDbg
  s.when differ fun t =>
    (t.tampTrigger 24 0).raise 0xE007 183 (c.getD 0 0 + c.getD 1 0 * 65536) (c.getD 2 0) 0 0

/-- The newest age record in the ledger whose CRC passes (R607). -/
def State.lastAge (s : State) : Option LedgerRec :=
  ((List.range ledgerSlots).reverse.find? fun k =>
    let b := s.slotBytes k
    slotCrcOk b && leAt b 0 2 == 0xF208).map fun k => LedgerRec.ofBytes (s.slotBytes k)

/-- The canary is compared: a mismatch resets the backup domain, and the age counters return from the ledger. -/
def State.checkCanary (s : State) : State :=
  if s.lifeSt.canary = canary then s
  else
    let s := s.resetFields fun _ f => f.cls == .bk
    let s := s.setLife fun x => { x with canary := canary, logged := 0, hist := [], mtcBase := 0, mtcAt := s.clk }
    let s := s.setOtp fun o => { o with era := min 64 (o.era + 1) }
    let s := match s.lastAge with
      | none => s
      | some r => (((s.put F.IDENT_POH_H r.p1).put F.IDENT_AGE_H r.p2).put F.IDENT_ERASE_IMG r.p3).put F.IDENT_ERASE_LDG r.p4 |>.flag F.IDENT_STATUS
    let s := (s.put F.TAMP_ERA s.otp.era).flag F.TAMP_STATUS_VBAT_LOST
    (s.tampTrigger 22 0).raise 0xE005 183 s.otp.era 0 0 0

/-- Triggers that the backup domain recorded are reported. -/
def State.reportBackup (s : State) : State :=
  s.each ((List.range 25).filter fun n => s.sticky n && !bitOf s.lifeSt.logged n) fun n t => t.tamperEvent n true

/-! The TAP (R457 to R461, R592). -/

/-- An instruction code at a level: BYPASS beyond the level in force (R459). -/
def State.tapIr (s : State) (code level : Nat) : State :=
  s.setLife fun x => { x with ir := if level ≤ s.dbgLevel then code else 0xFF }
/-- A boundary-scan instruction that drives `v`, at SCAN. -/
def tapDrive (code v : Nat) (s : State) : State :=
  let s := s.tapIr code 3
  if s.lifeSt.ir = code then s.setLife fun x => { x with bsr := v } else s

/-- IDCODE: 0x1, 0x9612, Hexmeko's manufacturer code and 1. -/
def idcode : Nat := 0x1 * 2 ^ 28 + 0x9612 * 2 ^ 12 + Config.jedecCode % 2 ^ 11 * 2 + 1
def execIdcode (s : State) : Res := fin ((s.tapIr 0x01 0).ret idcode)
def execExtest (v : Nat) (s : State) : Res := fin (tapDrive 0x00 v s)
/-- SAMPLE/PRELOAD: the pins are sampled and the boundary register preloaded. -/
def execSamplePreload (pins v : Nat) (s : State) : Res := fin (((s.tapIr 0x02 0).setLife (fun x => { x with bsr := v })).ret pins)
def execClamp (s : State) : Res := fin (s.tapIr 0x03 3)
def execHighz (s : State) : Res := fin (s.tapIr 0x04 3)
def execExtestPulse (v : Nat) (s : State) : Res := fin (tapDrive 0x05 v s)
def execExtestTrain (v : Nat) (s : State) : Res := fin (tapDrive 0x06 v s)
def execBypass (s : State) : Res := fin (s.tapIr 0xFF 0)
/-- TRST_N low: IEEE 1149.1 selects IDCODE (assumption log 102). -/
def execTapReset (s : State) : Res := fin (s.tapIr 0x01 0)

/-- DBG_CHAL: a fresh challenge of the vault DRBG replaces the open one; it is shifted out. -/
def dbgChal (s : State) : State :=
  let s := s.tapIr 0x20 0
  let (s, got) := s.drbgReq 256
  if !got then (s.setLife (fun x => { x with chal := none })).ret 0
  else
    let c := s.drawn 32
    (s.useFree.setLife (fun x => { x with chal := some c })).ret (leNat c)
def execDbgChal (s : State) : Res := fin (dbgChal s)

/-- The grant block is laid out as R460 gives. -/
def grantForm (b : List Byte) : Bool :=
  b.length == 252 && leAt b 0 2 == 1 && decide (1 ≤ leAt b 2 1 ∧ leAt b 2 1 ≤ 3) && decide (leAt b 3 1 < 2)
    && decide (1 ≤ leAt b 4 4 ∧ leAt b 4 4 ≤ 86400) && zeros ((b.drop 153).take 3)

/-- The first failing condition of R461, 0 for none; the condition that a malformed block fails is a free value
(assumption log 103). -/
def State.grantFail (s : State) (b : List Byte) (chal : Option (List Byte)) : Nat :=
  let key := (b.drop 56).take 97
  if !grantForm b then 1 + s.freeVal 16 % 5
  else if s.digestOf (if leAt b 3 1 = 0 then 6 else 5) ≠ some (Config.sha384 key) ∨ (s.life = 2 ∧ leAt b 3 1 ≠ 1) then 1
  else if (b.drop 8).take 16 ≠ s.uid then 2
  else if chal ≠ some ((b.drop 24).take 32) then 3
  else if dbgMaxLevel s.life < leAt b 2 1 then 4
  else if s.get F.VAULT_PK_STATUS_ENG_OK = 0 ∨ s.bit F.VAULT_STATUS_KAT_FAIL
      ∨ !Config.pkVerifies 2 true key (Config.sha384 (b.take 156)) (b.drop 156) then 5
  else 0

def dbgResp (b : List Byte) (s : State) : State :=
  let s := s.tapIr 0x21 0
  let chal := s.lifeSt.chal
  let c := s.grantFail b chal
  let s := s.useFree.setLife fun x => { x with chal := none }
  if c ≠ 0 then s.raise 0xE00A 183 c 0 0 0
  else
    let s := (s.put F.LIFE_DBG_LEVEL (leAt b 2 1)).put F.LIFE_DBG_OWNER (leAt b 3 1)
    let s := s.setLife fun x => { x with grant := some (s.clk, leAt b 4 4) }
    (s.raise 0xE008 183 (leAt b 2 1) (leAt b 3 1) 0 (leAt b 4 4)).syncDbg
def execDbgResp (b : List Byte) (s : State) : Res := fin (dbgResp b s)

/-- LIFE_STATE and LIFE_DBG as words. -/
def State.lifeStateWord (s : State) : Nat :=
  s.readFields [F.LIFE_STATE_DBG_LEVEL, F.LIFE_STATE_DBG_OPEN, F.LIFE_STATE_DISAGREE, F.LIFE_STATE_STATE] 0
def State.lifeDbgWord (s : State) : Nat :=
  (s.put F.LIFE_DBG_REMAIN s.grantLeft).readFields [F.LIFE_DBG_LEVEL, F.LIFE_DBG_OWNER, F.LIFE_DBG_REMAIN] 0
def execDbgStatus (s : State) : Res := fin ((s.tapIr 0x22 0).ret (s.lifeStateWord + s.lifeDbgWord * 2 ^ 32))

end Sys2Proof.Machine
end

