-- ==== Sys2Proof/Machine/Dual.lean ====
section
/-! DEFINITION. Dual control: custodians (R436), challenges and envelopes (R437 to R441), their operations (R344, R442, R452,
R470, R494, R544), and setting changes on TRIP items (R442 to R444). A SUBMIT leaves an envelope in progress, and the command
of its operation checks it and carries it out. -/

namespace Sys2Proof.Machine

/-! Challenges (R437). -/

/-- Seconds of the vault timer. -/
def State.vaultSecs (s : State) : Nat := (s.clk - s.vault.timerAt.getD s.clk) / 1000000000

def State.setChals (s : State) (l : List (List Byte × Nat)) : State := (s.setVault fun v => { v with chals := l }).put F.VAULT_DC_OPEN l.length

def State.openChals (s : State) : List (List Byte × Nat) :=
  s.vault.chals.filter fun c => decide (s.vaultSecs < c.2 + s.get F.VAULT_DC_CFG)
def State.dropExpired (s : State) : State := s.setChals s.openChals

/-- CHALLENGE: refused with CHAL_FULL, or drawn and shown; the code without entropy is a free value (assumption log 104). -/
def challenge (s : State) : State :=
  let s := s.dropExpired
  if 8 ≤ s.vault.chals.length then (s.put F.VAULT_DC_CMD_CODE 10).setDone 454
  else
    let (s, got) := s.drbgReq 256
    if !got then (s.useFree.put F.VAULT_DC_CMD_CODE (1 + s.freeVal 16 % 12)).setDone 454
    else
      let c := s.drawn 32
      let s := (s.useFree.setChals (s.vault.chals ++ [(c, s.vaultSecs)])).putBytes F.VAULT_DC_CHALn 8 c
      (s.put F.VAULT_DC_CMD_CODE 0).setDone 454

/-- SUBMIT: the envelope's address and length are taken; BUSY refuses a second one, whose OP, not read, is a free value. -/
def submitEnv (s : State) : State :=
  if s.vault.envelope.isSome then
    ((s.put F.VAULT_DC_CMD_CODE 9).bump F.VAULT_CNT_DC_REFUSED).useFree.raise 0xC014 181 (s.freeVal 8) 9 0 0
  else
    let s := (s.flag F.VAULT_DC_CMD_BUSY).setVault fun v => { v with
      envelope := some (s.get F.VAULT_DC_ADDR, s.get F.VAULT_DC_LEN, s.bit F.VAULT_DC_CMD_HOST, s.clk) }
    (s.when (!s.vaultReady && !s.bit F.VAULT_STATUS_INIT_BUSY) fun t => t.wakeDomain 17).syncHold

/-- A write of VAULT_DC_CMD: OP 1 CHALLENGE, 2 SUBMIT, 3 CANCEL. While BUSY, only a SUBMIT is answered (R439, R561). -/
def dcCmdWrite (d : Nat) (s : State) : State :=
  let op := d % 16
  let s := s.putB F.VAULT_DC_CMD_HOST (bitOf d 8)
  if op = 2 then submitEnv s
  else if s.bit F.VAULT_DC_CMD_BUSY then s
  else if op = 1 then challenge s
  else if op = 3 then ((s.setChals []).put F.VAULT_DC_CMD_CODE 0).setDone 454
  else s
def dcReg (op d : Nat) (m : Master) (s : State) : Res := fin (s.regWrite m 0xC00504 (dcCmdWrite (d / 16 * 16 + op)))
def execChallenge (m : Master) (d : Nat) (s : State) : Res := dcReg 1 d m s
def execCancel (m : Master) (d : Nat) (s : State) : Res := dcReg 3 d m s
def execChallengeExpiry (dt : Nat) (s : State) : Res := fin (s.elapse dt).dropExpired

/-! Envelopes (R438). -/

def evOp (e : List Byte) : Nat := leAt e 2 1
def evChals (e : List Byte) : Nat := leAt e 3 1
def evBodyLen (e : List Byte) : Nat := leAt e 4 4
/-- D of R438. -/
def evD (e : List Byte) : Nat := 96 + up8 (evBodyLen e)
def evChal (e : List Byte) (i : Nat) : List Byte := (e.drop (16 + 40 * i)).take 40
def evBody (e : List Byte) : List Byte := (e.drop 96).take (evBodyLen e)
/-- The signature block of a role, and its fields. -/
def evSig (e : List Byte) (role : Nat) : List Byte := (e.drop (evD e + 104 * role)).take 104
def sbIndex (b : List Byte) : Nat := leAt b 1 1
def sbAlg (b : List Byte) : Nat := leAt b 2 1
def sbCust (b : List Byte) : Nat := leAt b 4 4

/-- Length of an operation's BODY, and its bytes that are zero (R440, R442, R452, R470, R494). -/
def bodyLen (op : Nat) : Nat :=
  match op with
  | 1 => 56 | 2 => 64 | 3 => 24 | 4 => 16 | 5 => 80 | 6 => 40 | 7 => 16 | _ => 56
def bodyOk (op : Nat) (b : List Byte) : Bool :=
  let z := fun (o n : Nat) => zeros ((b.drop o).take n)
  b.length == bodyLen op && match op with
  | 1 => decide (leAt b 0 1 < 2) && z 1 7
  | 2 => leAt b 0 1 == 6 || leAt b 0 1 == 7
  | 3 => z 1 3 && decide (leAt b 4 4 < 2 ^ 20) && z 20 4
  | 4 => z 1 7
  | 5 => z 2 6
  | 6 => z 1 7
  | 7 => z 4 4 && z 12 4
  | _ => z 4 4

/-- Step 1 of R439, for an envelope of `len` bytes; `inImage` for one of an ACCEPT section (R441). -/
def evForm (e : List Byte) (len : Nat) (inImage : Bool) : Bool :=
  let z := fun (o n : Nat) => zeros ((e.drop o).take n)
  e.length == len && leAt e 0 2 == 1 && (if inImage then evChals e == 0 else evChals e == 1 || evChals e == 2)
    && decide (evBodyLen e ≤ 1024) && len == evD e + 208 && decide (1 ≤ evOp e ∧ evOp e ≤ 8)
    && z 18 6 && z 58 6 && (evChals e == 2 || z 56 40) && (!inImage || z 16 40) && z (96 + evBodyLen e) (up8 (evBodyLen e) - evBodyLen e)
    && bodyOk (evOp e) (evBody e)
    && [0, 1].all fun r =>
      let b := evSig e r
      leAt b 0 1 == r && leAt b 3 1 == 0 && zeros (b.drop (8 + sigLen (sbAlg b)))

/-- Step 2: the state, and LOCKED, permit the operation (R454, R466). -/
def State.evMay (s : State) (e : List Byte) : Bool :=
  let op := evOp e
  (s.life == 1 || s.life == 2 || (s.life == 3 && op == 6 && leAt (evBody e) 0 1 == 4))
    && (!s.bit F.TAMP_STATUS_LOCKED || op == 6 || op == 7)

/-- The open challenge that an entry of the envelope names for this device. -/
def State.evMatch (s : State) (e : List Byte) : Option (List Byte × Nat) :=
  let mine := ((List.range (evChals e)).map (evChal e)).filter fun c => leAt c 0 2 == s.deviceId
  s.openChals.find? fun (c : List Byte × Nat) => mine.any fun m => m.drop 8 == c.1

/-- Custodian entries (R436). -/
def cuAlg (c : List Byte) : Nat := leAt c 2 1
def cuId (c : List Byte) : Nat := leAt c 4 4
def cuKey (c : List Byte) : List Byte := (c.drop 16).take (leAt c 8 2)

/-- Steps 4 to 7 against a custodian table: 0 when they pass. -/
def sigSteps (t : Table (List Byte)) (e : List Byte) : Nat :=
  let c := fun r => if sbIndex (evSig e r) < 16 then Table.at [] (16 * r + sbIndex (evSig e r)) t else []
  let known := fun r =>
    !(c r).isEmpty && leAt (c r) 3 1 % 4 == 1 && leAt (c r) 0 1 == r && cuAlg (c r) == sbAlg (evSig e r) && cuId (c r) == sbCust (evSig e r)
  let digest := Config.sha384 (e.take (evD e))
  let good := fun r =>
    let a := cuAlg (c r)
    Config.pkVerifies a (a == 1 || a == 2) (cuKey (c r)) (if a = 1 then digest.take 32 else digest) (((evSig e r).drop 8).take (sigLen a))
  if !(known 0 && known 1) then 4
  else if sbCust (evSig e 0) = sbCust (evSig e 1) then 5
  else if !good 0 then 6
  else if !good 1 then 7
  else 0

/-- The custodian table that an envelope is checked against (R441). -/
def State.evTable (s : State) (e : List Byte) : Table (List Byte) :=
  if s.vault.cust.isEmpty ∧ evOp e = 1 then s.imageCust (leAt (evBody e) 0 1 % 2) else s.vault.cust

/-- The envelope ends with a code and a detail. -/
def State.dcEnd (s : State) (e : List Byte) (code detail : Nat) : State :=
  let s := ((s.put F.VAULT_DC_CMD_BUSY 0).put F.VAULT_DC_CMD_CODE code).put F.VAULT_DC_DETAIL detail
  let s := (s.setVault fun v => { v with envelope := none }).setDone 454
  let s := if code = 0 then
      ((s.bump F.VAULT_CNT_DC_OK).put F.VAULT_DC_REF (leAt e 8 8)).raise 0xC013 181 (evOp e) (sbCust (evSig e 0)) (leAt e 8 4) (sbCust (evSig e 1))
    else (s.bump F.VAULT_CNT_DC_REFUSED).raise 0xC014 181 (evOp e) code 0 detail
  s.syncHold

/-- The outcome of step 8: a code with its detail, or an operation that is still to end. -/
inductive DcOut where
  | ended (code detail : Nat)
  | waits
  deriving DecidableEq, Repr

/-- The envelope in progress is checked and, when it is of operation `op`, carried out by `g`. It waits for PD17. An envelope
that is malformed or of no known operation ends FORMAT with whichever operation's command finds it. -/
def dcRun (op : Nat) (e : List Byte) (g : List Byte → State → State × DcOut) (s : State) : State :=
  match s.vault.envelope with
  | none => s
  | some (_, len, _, _) =>
    let e := e.take len
    let own := evOp e == op || !decide (1 ≤ evOp e ∧ evOp e ≤ 8)
    if !own ∨ s.lifeSt.trans.isSome then s
    else if !s.bit F.VAULT_CTRL ∨ s.bit F.VAULT_STATUS_KAT_FAIL ∨ s.get F.VAULT_PK_STATUS_ENG_OK = 0 then s.dcEnd e 8 0
    else if !s.vaultReady then s
    else if !evForm e len false then s.dcEnd e 1 0
    else if !s.evMay e then s.dcEnd e 2 0
    else match s.evMatch e with
      | none => s.dcEnd e 3 0
      | some c =>
        let s := s.setChals (s.vault.chals.erase c)
        let code := sigSteps (s.evTable e) e
        if code ≠ 0 then s.dcEnd e code 0
        else match g (evBody e) s with
          | (s, .ended code detail) => s.dcEnd e code detail
          | (s, .waits) => s.setVault fun v => { v with submitted := e }

def dcOp (op : Nat) (e : List Byte) (dt : Nat) (g : List Byte → State → State × DcOut) (s : State) : Res := fin (dcRun op e g (s.elapse dt))

/-- A refusal with OPERATION and a detail, and acceptance. -/
def refuse (s : State) (detail : Nat) : State × DcOut := (s, .ended 8 detail)
def accept (s : State) : State × DcOut := (s, .ended 0 0)

/-! The operations (R440). -/

/-- IMAGE_ACCEPT (R544). The first record of a device without one takes the candidate's custodians (assumption log 105). -/
def dcImage (b : List Byte) (s : State) : State × DcOut :=
  let slot := leAt b 0 1
  if (s.boot.img.map (·.slot)) = some slot then refuse s 1
  else if s.imageDigest slot ≠ b.drop 8 then refuse s 2
  else if s.bit F.GLB_BOOT_STATUS_TRIAL then refuse s 3
  else if (s.formatBad slot).isSome then refuse s 0x101
  else if s.imageCause slot ≠ 0 then refuse s (0x100 + s.imageCause slot)
  else
    let r := if s.boot.record.isEmpty then splice blankRecord 256 (custBytes (s.imageCust slot)) else s.boot.record
    let (s, ok) := s.writeRecord (s.rcAccept r slot)
    if !ok then refuse s 4 else accept (s.raise 0x0008 186 slot (hSvn (s.header slot)) 0 0)
def execImageAccept (e : List Byte) (dt : Nat) (s : State) : Res := dcOp 1 e dt dcImage s

/-- KEY_IMPORT: the vault runs the command; `src` and `ok` as for VAULT_CMD_DONE. -/
def dcKey (src : Option (List Byte)) (ok : Bool) (b : List Byte) (s : State) : State × DcOut :=
  let (s, code) := s.vaultRun ⟨.dc, leAt b 0 1, b, none⟩ src ok
  (s.vaultCount code 0xFFFF, .ended (if code = 0 then 0 else 8) code)
def execKeyImport (e : List Byte) (src : Option (List Byte)) (ok : Bool) (dt : Nat) (s : State) : Res := dcOp 2 e dt (dcKey src ok) s

/-- SLICE_BIND: an UNBOUND slice that is not being cleared (R343, R344). -/
def dcBind (b : List Byte) (s : State) : State × DcOut :=
  let n := leAt b 0 1
  if s.sliceState n ≠ 0 ∨ (s.slice n).clearing.isSome then refuse s 1
  else accept (s.startClear' n (some (leAt b 4 4, leAt b 8 8, leAt b 16 2, leAt b 18 2)))
def execSliceBind (e : List Byte) (dt : Nat) (s : State) : Res := dcOp 3 e dt dcBind s

def dcUnbind (b : List Byte) (s : State) : State × DcOut :=
  let n := leAt b 0 1
  if s.sliceState n = 0 ∨ leAt b 8 8 ≠ s.tenant n then refuse s 2 else accept (s.startClear' n none)
def execSliceUnbind (e : List Byte) (dt : Nat) (s : State) : Res := dcOp 4 e dt dcUnbind s

/-- A platform item entry of class TRIP (R211), and its ARGS once every pending change for it has been applied. -/
def State.tripEntry (s : State) (n : Nat) : Bool :=
  decide (n < 32768) && bitOf (leAt (Table.at [] n s.groom.items) 0 1) 0 && leAt (Table.at [] n s.groom.items) 1 1 % 4 == 0
def argsOf (d : List Byte) : List Byte := ((d ++ leBytes 64 0).drop 32).take 32
def byBeat : List TripChange → List TripChange
  | [] => []
  | c :: t => let r := byBeat t
    (r.takeWhile fun x => decide (x.beat < c.beat)) ++ c :: (r.dropWhile fun x => decide (x.beat < c.beat))
def State.argsToBe (s : State) (n : Nat) : List Byte :=
  match ((byBeat s.vault.trips).filter fun c => c.entry == n).getLast? with
  | none => argsOf (Table.at [] n s.groom.items)
  | some c => c.args

/-- TRIP_SET (R442). An ENTRY that is no platform TRIP item has no detail of its own: a free value (assumption log 106). -/
def dcTrip (b : List Byte) (s : State) : State × DcOut :=
  let n := leAt b 0 2
  if !s.tripEntry n then refuse s.useFree (s.freeVal 16)
  else if leAt b 8 8 < s.beat + 2 then (s, .ended 11 0)
  else if (b.drop 16).take 32 ≠ s.argsToBe n then (s, .ended 12 0)
  else if 16 ≤ s.vault.trips.length then refuse s 3
  else accept ((s.setVault fun v => { v with trips := v.trips ++ [⟨leAt b 8 8, n, b.drop 48⟩] }).put F.VAULT_DC_PENDING (s.vault.trips.length + 1))
def execTripSet (e : List Byte) (dt : Nat) (s : State) : Res := dcOp 5 e dt dcTrip s

/-- LIFE_TRANSITION (R452): it ends when the OTP copies are written. -/
def dcLife (b : List Byte) (s : State) : State × DcOut :=
  let t := leAt b 0 1
  if !transAllowed s.life t then refuse s 1
  else if !s.tokenOk t (b.drop 8) then refuse s 2
  else if t = 2 ∧ !([2, 3, 4].all fun x => (s.digestOf x).isSome) then refuse s 3
  else (s.startTrans t true, .waits)
def execLifeTransition (e : List Byte) (dt : Nat) (s : State) : Res := dcOp 6 e dt dcLife s

/-- The OTP programming ends, at the copy that failed or whole; the envelope or LIFE_CMD that started it ends with it. -/
def otpTransitionDone (failed : Option Nat) (s : State) : State :=
  match s.lifeSt.trans with
  | none => s
  | some (target, env) =>
    let s := s.otpDone target failed
    if env then s.dcEnd s.vault.submitted (if failed.isSome then 8 else 0) (if failed.isSome then 4 else 0)
    else (s.put F.LIFE_CMD_BUSY 0).put F.LIFE_CMD_ERR (if failed.isSome then 5 else 0)
def execOtpTransitionDone (failed : Option (Fin 3)) (dt : Nat) (s : State) : Res :=
  fin (otpTransitionDone (failed.map (·.val)) (s.elapse dt))

def dcRearm (b : List Byte) (s : State) : State × DcOut :=
  let d := s.rearmDetail (leAt b 0 4) (leAt b 8 4)
  if d ≠ 0 then refuse s d else accept (s.rearm (leAt b 0 4) (leAt b 8 4))
def execTamperRearm (e : List Byte) (dt : Nat) (s : State) : Res := dcOp 7 e dt dcRearm s

/-- LEDGER_CLEAR (R494). -/
def dcClear (b : List Byte) (s : State) : State × DcOut :=
  let last := leAt b 0 4
  let next := s.get F.LDG_NEXT
  if next ≤ last then refuse s 1
  else if Config.sha384 ((List.range (last + 1)).flatMap s.slotBytes) ≠ b.drop 8 then refuse s 2
  else if 8192 < next - last - 1 then refuse s 3
  else if s.bit F.EVT_STATUS_CLEARING then refuse s 4
  else if !s.flashOk then refuse s 5
  else accept (s.startClear last)
def execLedgerClear (e : List Byte) (dt : Nat) (s : State) : Res := dcOp 8 e dt dcClear s

/-! The custodian registers (R436, R446). -/

/-- Entries ENROLLED and not REVOKED, by role. -/
def State.custSum (s : State) : State :=
  let n := fun r => ((List.range 16).filter fun i => leAt (Table.at [] (16 * r + i) s.vault.cust) 3 1 % 4 == 1).length
  (s.put F.VAULT_CUST_SUM_A (n 0)).put F.VAULT_CUST_SUM_B (n 1)
def State.setCust (s : State) (t : Table (List Byte)) : State := (s.setVault fun v => { v with cust := t }).custSum

def custIdxWrite (d : Nat) (s : State) : State :=
  let i := d % 32
  (s.put F.VAULT_CUST_IDX i).putBytes F.VAULT_CUST_DATAn 32 (Table.at [] i s.vault.cust)
def execCustIdxWrite (m : Master) (d : Nat) (s : State) : Res := fin (s.regWrite m 0xC00600 (custIdxWrite d))

/-! Setting changes at the edge (R443, R444). -/

/-- The CRC-32C over the ARGS of the platform TRIP entries, in ascending order. -/
def State.tripCrc (s : State) : Nat :=
  crc32c (((s.groom.items.map (·.1)).filter s.tripEntry).flatMap fun n => argsOf (Table.at [] n s.groom.items))

/-- Pending changes due by the edge of beat `b` are written. -/
def State.tripEdge (s : State) (b : Nat) : State :=
  let due := (byBeat s.vault.trips).filter fun c => decide (c.beat ≤ b)
  if due.isEmpty then s
  else
    let s := s.each due fun c t => { t with groom := { t.groom with
      items := Table.modify [] c.entry (fun d => (d ++ leBytes 64 0).take 32 ++ c.args) t.groom.items } }
    let left := s.vault.trips.filter fun c => !decide (c.beat ≤ b)
    let s := ((s.setVault fun v => { v with trips := left }).put F.VAULT_DC_PENDING left.length).put F.VAULT_DC_TRIP_CRC s.tripCrc
    s.each due fun c t => t.raise 0xC015 181 c.entry c.beat 0 (t.get F.VAULT_DC_TRIP_CRC)

end Sys2Proof.Machine
end

