-- ==== Sys2Proof/Machine/Reset.lean ====
section
/-! DEFINITION. What a reset does to the state: the power-on reset (R14, R588, R589) and the warm reset (R526), from WRST_N or from
within, with what each chapter says of it (R34, R162, R163, R168, R205, R245, R276, R301, R344, R385, R445, R453, R462, R498, R518,
R607). -/

namespace Sys2Proof.Machine

/-- A field keeps its value through the reset: BK always, PO through both (OTP stands behind it, but for REC_FULL at power-on), ST
through a warm reset (R14). -/
def keepsField (por : Bool) (f : Fld) : Bool :=
  match f.cls with
  | .bk => true
  | .po => !(por && f.key == F.MTEST_STATUS_REC_FULL.key)
  | .st => !por
  | .wr => false

def keepsKey (por : Bool) (k : Nat) : Bool :=
  match fieldOfKey k with
  | none => false
  | some f => keepsField por f

/-- Service positions as the repair records in OTP amend them (R168). -/
def State.repairPos (s : State) : State :=
  s.each s.mtest.pos fun e t =>
    let t := t.put (fixRst (sh F.SHED_CFG e.1)) e.2
    t.when (e.2 == 0x7F) fun u => u.flag (sh F.SHED_STATUS_RETIRED e.1)

/-- What ends before everything is reset: freezes, the beat, the pairing, the ports, which leave UP with LINK_DOWN and event 0x2002
(R59, R72), and the debug grant; the open ledger record closes. -/
def State.windDown (s : State) : State :=
  let s := s.when (s.bit F.LOFT_CTRL) State.loftStop
  let s := (s.when (s.bit F.BEAT_CTRL_EN) State.beatStop).when (s.role != 0) State.pairOff
  ((s.each s.enabledPorts fun n t => t.portStop n).endGrant 3).closeOpen

/-- The state after a reset; `por` for a power-on reset. -/
def State.cleared (s : State) (por : Bool) : State :=
  let r := State.reset
  { r with
    fields := s.fields.filter fun e => keepsKey por e.1
    tmr := s.tmr.filter fun e => keepsKey por e.1
    inv := s.inv.filter fun e => keepsKey por e.1
    clk := s.clk, frac := s.frac, dev := s.dev, free := s.free, out := s.out, evq := s.evq, rdata := s.rdata
    flash := s.flash, flashOk := s.flashOk, otp := s.otp
    evt := if por then { r.evt with clears := s.evt.clears } else
      { r.evt with
        buf := s.evt.buf, recent := s.evt.recent, dropped := s.evt.dropped, dropSeq := s.evt.dropSeq, clearReq := s.evt.clearReq
        clears := s.evt.clears }
    prt := { r.prt with lrefAbsent := s.prt.lrefAbsent }
    pwr := { r.pwr with tempSum := s.pwr.tempSum, tempCnt := s.pwr.tempCnt }
    host := { r.host with
      fn := if s.host.perstN && s.host.peRefclk then .training else .d3cold, peRefclk := s.host.peRefclk, perstN := s.host.perstN }
    yard := { r.yard with bankMap := s.yard.bankMap, retired := s.yard.retired, taking := s.yard.taking }
    loft := if por then r.loft else { s.loft with untrained := false }
    vault := { r.vault with otpRoot := s.vault.otpRoot, otpKcv := s.vault.otpKcv, otpCert := s.vault.otpCert }
    lifeSt := { s.lifeSt with grant := none, chal := none, ir := if por then 0x01 else s.lifeSt.ir }
    boot := { s.boot with record := [], cands := [], first := 3, img := none, opAt := none, servo := [], cmd := none }
    mtest := { s.mtest with
      ce := [], found := [], volatileRows := if por then [] else s.mtest.volatileRows }
    pair := { r.pair with strapB := s.pair.strapB, actIn := s.pair.actIn, actInAt := s.pair.actInAt }
    pending := s.pending }

/-- A reset: what ends, what is cleared, and, of a warm reset, the age record (R607). -/
def State.resetNow (s : State) (por : Bool) : State :=
  let s := if por then s else s.windDown
  let s := (s.cleared por).repairPos.syncDbg
  let s := s.when (!por) fun t => (t.put F.LDG_BUF t.evt.buf.length).ageRecord
  s.setBoot fun x => { x with inReset := some por }

end Sys2Proof.Machine
end

