-- ==== Sys2Proof/Machine/Boot.lean ====
section
/-! DEFINITION. Start-up (chapter 18): resets and their releases, choosing a slot (R541), loading an image (R523, R524, R534 to R536,
R542, R543), recovery (R551, R552), image commands (R553), and trial and confirmation (R545 to R549). -/

namespace Sys2Proof.Machine

def State.setPhase (s : State) (p : Nat) : State := s.put F.GLB_BOOT_STATUS_PHASE p
def State.phase (s : State) : Nat := s.get F.GLB_BOOT_STATUS_PHASE

/-! Recovery and no image (R551, R552). -/

/-- EVT, LIFE/TAMPER and the vault are enabled, and no image runs. -/
def State.idleStart (s : State) (p : Nat) : State :=
  let s := (s.setPhase p).put F.GLB_BOOT_STATUS_SLOT 3
  vaultCtrlWrite 1 (tampCtrlWrite 1 (evtCtrlWrite 3 s))
def State.enterRecovery (s : State) : State := s.idleStart 8
def State.enterNoImage (s : State) : State := (s.idleStart 7).raise 0x0004 186 (s.get F.GLB_BOOT_CAUSE_CAUSE) 0 0 0

/-- No slot loads: RECOVERY in FLASH_RECOVER mode, otherwise NO_IMAGE. -/
def State.noSlot (s : State) : State := if s.get F.GLB_BOOT_STATUS_BOOT_MODE = 1 then s.enterRecovery else s.enterNoImage

/-! Choosing a slot (R541, R546). -/

/-- GLB_BOOT_CAUSE and event 0x0002 (R542, R543). -/
def State.refused (s : State) (slot cause detail : Nat) : State :=
  let s := ((s.put F.GLB_BOOT_CAUSE_SLOT slot).put F.GLB_BOOT_CAUSE_CAUSE cause).put F.GLB_BOOT_CAUSE_DETAIL detail
  s.raise 0x0002 186 slot cause 0 detail

/-- SVN below that of a CONFIRMED slot. -/
def rcBehind (r : List Byte) (svn : Nat) : Bool :=
  [0, 1].any fun i => dState (rcSlot r i) == 2 && decide (svn < dSvn (rcSlot r i))

/-- The envelope of the ACCEPT section: 0, or the code that it fails with. -/
def State.acceptCode (s : State) (slot : Nat) (e : List Byte) (t : Table (List Byte)) : Nat :=
  if !evForm e e.length true ∨ evOp e ≠ 1 then 1
  else if !(s.life == 1 || s.life == 2) then 2
  else if sigSteps t e ≠ 0 then sigSteps t e
  else if leAt (evBody e) 0 1 ≠ slot ∨ (evBody e).drop 8 ≠ s.imageDigest slot ∨ rcBehind s.boot.record (hSvn (s.header slot)) then 8
  else 0

/-- Acceptance at start of an EMPTY slot whose image carries an ACCEPT section; `own` takes the image's own custodians. -/
def State.startAccept (s : State) (slot : Nat) (own : Bool) : State × Bool :=
  let r := if s.boot.record.isEmpty then splice blankRecord 256 (custBytes (s.imageCust slot)) else s.boot.record
  if dState (rcSlot r slot) ≠ 0 ∨ (headerBad (s.header slot)).isSome ∨ (s.formatBad slot).isSome then (s, false)
  else match sectionOf (s.header slot) 15 with
    | none => (s, false)
    | some x =>
      let t := if own then s.imageCust slot else custTable (rcCust r)
      let c := s.acceptCode slot (s.sectionBytes slot x) t
      if c ≠ 0 then (s.refused slot 7 c, false)
      else
        let (s, ok) := s.writeRecord (s.rcAccept r slot)
        if ok then (s.raise 0x0008 186 slot (hSvn (s.header slot)) 0 1, true) else (s, false)

/-- The next slot of the list is tried, those that must first be accepted being accepted; without one, no slot loads. -/
def State.nextCand (s : State) : Nat → State
  | 0 => s.noSlot
  | k + 1 =>
    match s.boot.cands with
    | [] => s.noSlot
    | (slot, own) :: rest =>
      if !own then s.setPhase 2
      else
        let (s, ok) := s.startAccept slot true
        if ok then (s.setBoot fun x => { x with cands := (slot, false) :: rest }).setPhase 2
        else (s.setBoot fun x => { x with cands := rest }).nextCand k

/-- choose_slot() of R541, with the boot record read. -/
def State.chooseSlot (s : State) : State :=
  if s.boot.record.isEmpty then
    if s.life ≠ 1 then (s.refused 3 7 0).enterNoImage
    else (s.setBoot fun x => { x with cands := [(0, true), (1, true)], first := 0 }).nextCand 3
  else
    let s := if rcTrial s.boot.record then s
      else
        let (t, ok) := if dState (rcSlot s.boot.record 0) = 0 then s.startAccept 0 false else (s, false)
        if ok then t
        else if dState (rcSlot t.boot.record 1) = 0 then (t.startAccept 1 false).1 else t
    let r := s.boot.record
    let p := rcPreferred r
    let s := if !rcTrial r then s
      else if rcTries r = 0 then
        let r := splice (rcMark r p 3 12) 16 (leBytes 1 (1 - p) ++ leBytes 1 0)
        ((s.refused p 12 0).writeRecord r).1
      else (s.writeRecord (splice r 18 (leBytes 1 (rcTries r - 1)))).1
    let r := s.boot.record
    let q := rcPreferred r
    let st := fun i => dState (rcSlot r i)
    let l := (if st q = 1 ∨ st q = 2 then [(q, false)] else []) ++ (if st (1 - q) = 2 then [(1 - q, false)] else [])
    (s.setBoot fun x => { x with cands := l, first := p }).nextCand 3

/-! Releases (R521 to R523, R526). -/

/-- Slot 0 as the ROM reads it for the boot record's signature; the vault's own start sequence follows. -/
def State.readSlot0 (s : State) : State :=
  let root := (rootVote s.vault.otpRoot).1
  if (Config.hmacSha256 root (ascii "DL-ROOT-KCV")).take 4 = leBytes 4 s.vault.otpKcv then
    let t := (s.setVault fun v => { v with root := some root }).loadSlot 0
    s.setVault fun v => { v with root := some root, slots := t.vault.slots }
  else s

/-- Straps are sampled, and the vote and the canary made at power-on. -/
def State.sample (s : State) (por : Bool) (mode : Nat) (strapB flashOk : Bool) : State :=
  let s := { s with flashOk := flashOk, pair := { s.pair with strapB := strapB } }
  let s := (s.setBoot fun x => { x with mode := mode, inReset := none, relAt := s.clk }).setLife fun x => { x with mainOn := true }
  let s := (s.put F.GLB_BOOT_STATUS_BOOT_MODE mode).put F.GLB_BOOT_STATUS_SLOT 3
  let s := (s.put F.GLB_IMG_FLOOR_FLOOR s.otp.floor).put F.GLB_IMG_FLOOR_FW_FLOOR s.otp.fwFloor
  if por then s.voteLife.checkCanary.reportBackup else s

/-- The start from a release: SCRAP holds everything but its ROM (R456), SCAN makes no flash access, and every other mode starts
the vault and chooses what to load. -/
def State.startUp (s : State) (por : Bool) (mode : Nat) (strapB flashOk : Bool) : State :=
  let s := s.sample por mode strapB flashOk
  let scan := mode == 3 && s.life != 2
  let s := s.when (mode == 3 && s.life == 2) fun t => t.raise 0x0009 186 mode 0 0 0
  if s.life = 4 then s.setPhase 1
  else if scan then s.setPhase 9
  else if !flashOk then ((s.flag F.GLB_BOOT_STATUS_NO_FLASH).vaultBegin).enterNoImage
  else if s.life = 0 ∨ mode = 2 then s.vaultBegin.enterRecovery
  else s.readSlot0.readRecord.chooseSlot.vaultBegin

/-- A warm reset from within the device: it is released again with the straps as they stand. -/
def State.warmStart (s : State) : State :=
  (s.resetNow false).startUp false s.boot.mode s.pair.strapB s.flashOk

/-- POR_N goes low; `off` says that main power fails as well, and `lost` gives what the canary reads once the cell too has
failed (R467, R468). -/
def porAssert (off : Bool) (lost : Option Nat) (s : State) : State :=
  let s := (s.resetNow true).setBoot fun x => { x with porN := false }
  let s := s.setLife fun x => { x with mainOn := !off }
  match lost with
  | none => s
  | some c => s.setLife fun x => { x with canary := c }
def execPorAssert (off : Bool) (lost : Option (BitVec 64)) (dt : Nat) (s : State) : Res :=
  fin (porAssert off (lost.map (·.toNat)) (s.elapse dt))

/-- POR_N is released; a low WRST_N holds the device until its own release (R589). -/
def porRelease (mode : Nat) (strapB flashOk : Bool) (s : State) : State :=
  if s.boot.porN then s
  else
    let s := s.setBoot fun x => { x with porN := true }
    if s.boot.wrstN then s.startUp true mode strapB flashOk else s
def execPorRelease (mode : Fin 4) (strapB flashOk : Bool) (dt : Nat) (s : State) : Res :=
  fin (porRelease mode strapB flashOk (s.elapse dt))

/-- A low pulse of WRST_N of at least 1 µs: a warm reset, unless POR_N governs (R589). -/
def wrstAssert (s : State) : State :=
  let s := if s.boot.inReset = some true then s else s.resetNow false
  s.setBoot fun x => { x with wrstN := false }
def execWrstAssert (dt : Nat) (s : State) : Res := fin (wrstAssert (s.elapse dt))

def wrstRelease (mode : Nat) (strapB flashOk : Bool) (s : State) : State :=
  if s.boot.wrstN then s
  else
    let s := s.setBoot fun x => { x with wrstN := true }
    match s.boot.inReset with
    | none => s
    | some por => if s.boot.porN then s.startUp por mode strapB flashOk else s
def execWrstRelease (mode : Fin 4) (strapB flashOk : Bool) (dt : Nat) (s : State) : Res :=
  fin (wrstRelease mode strapB flashOk (s.elapse dt))

/-- 1 ms after SCRAP took effect (R453), and 1 ms after REFCLK_SYS came back (R464). -/
def scrapReset (s : State) : State :=
  match s.lifeSt.scrapAt with
  | none => s
  | some t => if s.clk < t + 1000000 then s else (s.setLife fun x => { x with scrapAt := none }).warmStart
def execScrapReset (dt : Nat) (s : State) : Res := fin (scrapReset (s.elapse dt))
def refclkRecovered (s : State) : State :=
  if !s.lifeSt.refclkLost then s else (s.setLife fun x => { x with refclkLost := false }).warmStart
def execRefclkRecovered (dt : Nat) (s : State) : Res := fin (refclkRecovered (s.elapse dt))

/-! Applying an image (R533 to R536). -/

/-- The register space of a section (R533). -/
def inSection (typ a : Nat) : Bool :=
  let blk := fun (lo hi : Nat) => decide (lo ≤ a ∧ a < hi)
  match typ with
  | 2 => blk 0xB00000 0xB01000 || blk 0xA00000 0xA01000 || a == F.VAULT_CFG.off
  | 3 => blk 0x100000 0x101000
  | 4 => blk 0x200000 0x261000 || blk 0x270000 0x270C00 || blk 0x300000 0x320000
  | 5 => blk 0x400000 0x401000
  | 7 => blk 0x700000 0x701000 || blk 0x800000 0x844000
  | 8 => blk 0x900000 0x901000
  | 10 => blk 0xD00000 0xD01000
  | 11 => blk 0xE00000 0xE01000 || blk 0x1000000 0x1001000 || blk 0xC00100 0xC01000 || blk 0x600000 0x601000
      || blk 0xF00000 0xF01000 || blk 0x1100000 0x1101000
  | _ => false

/-- A REG record is refused (R536). -/
def regBad (typ a v : Nat) : Bool :=
  !inSection typ a || match findReg a blocks with
    | none => false
    | some r => r.off == 0 || r.fields.any fun f =>
        f.acc == .wo || f.acc == .rc || ((f.acc == .w1s || f.acc == .w1c) && fieldAfter f 0 r.word v != 0)

/-- The tables that a section may hold (R533). -/
def sectionTables (typ : Nat) : List Nat :=
  match typ with
  | 2 => [8] | 3 => [11] | 5 => [1] | 6 => [2] | 7 => [3, 4] | 8 => [5, 6] | 9 => [9] | 10 => [7, 10] | 12 => [12] | _ => []

/-- Index bound and data bytes of a table (R535). -/
def tableShape (t : Nat) : Nat × Nat :=
  match t with
  | 1 => (65536, 64) | 2 => (4096, 32) | 3 => (32768, 64) | 4 => (131072, 16) | 5 => (8192, 64) | 7 => (4096, 16)
  | 8 => (1024, 16) | 10 => (256, 32) | 11 => (1, 16) | 12 => (32, 128) | _ => (0, 0)

/-- A write through an access command: data and index are loaded, the command runs, and ERR answers. -/
def State.viaAccess (s : State) (data idx err : Fld) (words index : Nat) (d : List Byte) (g : State → State) : State × Nat :=
  let s := g (((s.putBytes data words d).put idx index).put err 0)
  (s, s.get err)

/-- The servo block is in range. -/
def servoOk (d : List Byte) : Bool := decide (1 ≤ leAt d 0 2 ∧ leAt d 0 2 ≤ 1000) && decide (leAt d 2 1 ≤ 1) && decide (leAt d 3 1 ≤ 2)

/-- A TABLE record: the state and the ERR code of the owning block, 0xFF for a record that its command could not carry. -/
def State.tableWrite (s : State) (t i : Nat) (d : List Byte) : State × Nat :=
  let (n, len) := tableShape t
  if t = 6 then
    if i % 4 ≠ 0 ∨ 2 ^ 20 < i + d.length ∨ d.isEmpty ∨ 512 < d.length then (s, 0xFF)
    else ((s.put F.SEAL_TACC_ADDR i).each (List.range (d.length / 4)) fun k u => taccWrite (leAt d (4 * k) 4) u, 0)
  else if t = 9 then
    if 65536 ≤ i then (s, 0xFF)
    else
      let b := leBytes 1 1 ++ leBytes 1 0 ++ leBytes 2 i ++ leBytes 12 0 ++ leBytes 4 d.length ++ leBytes 44 0
      let (s, code) := s.vaultRun ⟨.ym, 1, b, none⟩ (some d) true
      (s.vaultCount code 0xFFFF, code % 256)
  else if n ≤ i ∨ d.length ≠ len then (s, 0xFF)
  else match t with
    | 1 => s.viaAccess F.GATE_FACC_DATAn F.GATE_FACC_IDX F.GATE_FACC_CMD_ERR 16 i d gateWrite
    | 2 => s.viaAccess F.MYARD_GACC_DATAn F.MYARD_GACC_IDX F.MYARD_GACC_CMD_ERR 8 i d myardWrite
    | 3 => s.viaAccess F.GROOM_IACC_DATAn F.GROOM_IACC_IDX F.GROOM_IACC_CMD_ERR 16 i d iaccWrite
    | 4 => s.viaAccess F.GROOM_FACC_DATAn F.GROOM_FACC_IDX F.GROOM_FACC_CMD_ERR 4 i d groomFaccWrite
    | 5 => s.viaAccess F.SEAL_PACC_DATAn F.SEAL_PACC_IDX F.SEAL_PACC_CMD_ERR 16 i d sealWrite
    | 7 => (s.put F.GUARD_RACC_IDX_REGION (i % 16)).viaAccess F.GUARD_RACC_DATAn F.GUARD_RACC_IDX_SLICE F.GUARD_RACC_CMD_ERR 4 (i / 16) d guardRaccWrite
    | 8 => s.viaAccess F.TUDEL_FACC_DATAn F.TUDEL_FACC_IDX F.TUDEL_FACC_CMD_ERR 4 i d tfaccWrite
    | 10 =>
      if bitOf (leAt d 0 1) 0 then
        ((s.setBinding i (leAt d 4 4 % 2 ^ 20) (leAt d 8 8) (leAt d 16 2) (leAt d 18 2)).toSlice i 1, 0)
      else (s, 0)
    | 11 => if servoOk d then (s.setBoot fun x => { x with servo := d }, 0) else (s, 0xFF)
    | 12 => (s, 0)
    | _ => (s, 0xFF)

/-- One record of a section: 0, or the detail of cause RECORD. TABLE 9 is held back unless `keys`. -/
def State.applyRec (s : State) (typ : Nat) (keys : Bool) (r : ImgRec) : State × Nat :=
  if r.typ = 1 then
    if keys then (s, 0) else if regBad typ r.index (leAt r.data 0 4) then (s, 0xFF) else (s.writeWord r.index (leAt r.data 0 4), 0)
  else if !(sectionTables typ).contains r.table then (s, r.table * 256 + 0xFF)
  else if (r.table == 9) != keys then (s, 0)
  else
    let (s, e) := s.tableWrite r.table r.index r.data
    (s, if e = 0 then 0 else r.table * 256 + e)

def State.applyList (s : State) (typ : Nat) (keys : Bool) : List ImgRec → State × Nat
  | [] => (s, 0)
  | r :: rest =>
    match s.applyRec typ keys r with
    | (s, 0) => s.applyList typ keys rest
    | (s, d) => (s, d)

def State.applySections (s : State) (slot : Nat) (keys : Bool) : List Section → State × Nat
  | [] => (s, 0)
  | x :: rest =>
    match s.applyList x.typ keys (s.sectionRecs slot x).1 with
    | (s, 0) => s.applySections slot keys rest
    | (s, d) => (s, d)

/-! Enables (R524). -/

/-- One enable: the block's base, its write, and whether it took. -/
structure Enable where
  base : Nat
  run : State → State
  took : State → Bool

/-- Ports of the layout: those whose PORT_CFG the PORTS section sets; and the lanes they use. -/
def State.layoutPorts (s : State) (slot : Nat) : List Nat :=
  match sectionOf (s.header slot) 4 with
  | none => []
  | some x =>
    let l := (s.sectionRecs slot x).1
    (List.range 96).filter fun n => l.any fun (r : ImgRec) => r.typ == 1 && r.index == (pt F.PORT_CFG_SPEED n).off
def State.layoutLanes (s : State) (slot : Nat) : List Nat :=
  (List.range 128).filter fun l => (s.layoutPorts slot).any fun n =>
    decide (s.portBase n ≤ l ∧ l < s.portBase n + s.portLaneCnt n)

/-- Sheds in service. -/
def State.svcSheds (s : State) : List Nat := (List.range 68).filter fun p => decide (s.svcPos p < 64)

def first2 : List Enable :=
  [⟨0xE00000, evtCtrlWrite 1, fun t => t.bit F.EVT_CTRL_EN⟩, ⟨0xE00000, evtCtrlWrite 3, fun t => t.bit F.EVT_CTRL_LDG_EN⟩,
   ⟨0x1000000, tampCtrlWrite 1, fun t => t.bit F.TAMP_CTRL⟩, ⟨0xC00000, vaultCtrlWrite 1, fun t => t.bit F.VAULT_CTRL⟩]

/-- The layout has at most four SLAVE ports (R42), and leaves HALVES 1 or 2 within 6.4 Tbit/s (R139): the loader refuses an image
otherwise, as an enable of the PORT block or of the Loft that is refused (assumption log 145). -/
def State.slavesOk (s : State) (slot : Nat) : Bool :=
  decide (((s.layoutPorts slot).filter fun n => s.get (pt F.PORT_CFG_PTP_ROLE n) == 1).length ≤ 4)
def State.layoutHalvesOk (s : State) (slot : Nat) : Bool :=
  s.get F.LOFT_CFG_HALVES == 0 || decide (((s.layoutPorts slot).map fun n => speedGbps (s.portSpeed n)).sum ≤ 6400)

/-- The FLOW_GROUP of every valid platform flow is 0xFFFF or names a valid group (R106): an image with another is refused as its
flow's record is (assumption log 145). -/
def State.groupsOk (s : State) : Bool :=
  s.gate.flows.all fun f => !feValid f.2.e || feGroup f.2.e == 0xFFFF
    || (decide (feGroup f.2.e < 4096) && geValid (s.group (feGroup f.2.e)).e)

/-- The enables after the keys. A Loft whose stacks fail training stays disabled without refusing the image (R164). -/
def State.enables (s : State) (slot : Nat) (failA failB : Bool) (romBad : List Nat) : List Enable :=
  [⟨0xD00000, guardCtrlWrite 1, fun t => t.bit F.GUARD_CTRL⟩, ⟨0x500000, myardCtrlWrite 1, fun t => t.bit F.MYARD_CTRL⟩,
   ⟨0x600000, fun t => loftInitDone 0 [] (loftCtrlWrite 1 failA failB t),
     fun t => !t.bit F.LOFT_STATUS_CFG_ERR && t.layoutHalvesOk slot⟩]
  ++ s.svcSheds.map (fun p =>
    ⟨0x800000, fun t => shedInitDone p (!romBad.contains p) (shedCtrlWrite p 1 t),
      fun t => t.bit (sh F.SHED_CTRL_EN p) || romBad.contains p⟩)
  ++ [⟨0x700000, groomCtrlWrite 1, fun t => t.bit F.GROOM_CTRL⟩, ⟨0x400000, gateCtrlWrite 1, fun t => t.bit F.GATE_CTRL⟩,
   ⟨0x900000, sealCtrlWrite 1, fun t => t.bit F.SEAL_CTRL⟩, ⟨0xA00000, pairCtrlWrite 1, fun t => t.bit F.PAIR_CTRL_EN⟩,
   ⟨0xB00000, tudelCtrlWrite 1, fun t => t.bit F.TUDEL_CTRL⟩, ⟨0x200000, portGlbWrite 1, fun t => t.bit F.PORT_GLB_CTRL && t.slavesOk slot⟩]
  ++ (s.layoutLanes slot).map (fun l => ⟨0x300000, laneCtrlWrite l 1, fun t => t.bit (ln F.LANE_CTRL l)⟩)
  ++ (s.layoutPorts slot).map (fun n => ⟨0x200000, portCtrlWrite n 1, fun t => t.bit (pt F.PORT_CTRL_EN n)⟩)
  ++ [⟨0x100000, beatCtrlWrite 1, fun t => t.bit F.BEAT_CTRL_EN⟩, ⟨0x1100000, mtestCtrlWrite 1, fun t => t.bit F.MTEST_CTRL⟩,
   ⟨0xF00000, pwrCtrlWrite 1, fun t => t.bit F.PWR_CTRL⟩]

/-- The enables are written in order; the base of the block that refuses, if any. -/
def State.enableAll (s : State) : List Enable → State × Option Nat
  | [] => (s, none)
  | e :: rest =>
    let t := e.run s
    if e.took t then t.enableAll rest else (t, some e.base)

/-! What an image leaves in force. -/

/-- The bytes under SLICE_SIG of slice `n` (R540). -/
def State.sliceSigBytes (s : State) (n : Nat) : List Byte :=
  let bound := b2n (s.sliceState n != 0)
  let col := s.scrCol n + s.histCol n * 256 + s.stateCol n * 65536
  let ents := fun (t : Table (List Byte)) (p : List Byte → Bool) (len : Nat) =>
    (t.filter fun e => p e.2).flatMap fun e => (e.2 ++ leBytes len 0).take len
  leBytes 1 bound ++ leBytes 7 0 ++ leBytes 8 (s.tenant n) ++ leBytes 16 0 ++ leBytes 4 col
    ++ (s.guard.regions.filter fun e => e.1 / 16 == n && decide (4 ≤ e.1 % 16)).flatMap (fun e => (e.2 ++ leBytes 16 0).take 16)
    ++ ents (s.gate.flows.map fun e => (e.1, e.2.e)) (fun e => feValid e && feSlice e == n) 64
    ++ ents (s.yard.groups.map fun e => (e.1, e.2.e)) (fun e => geValid e && geOwner e == n) 32
    ++ ents s.groom.items (fun e => bitOf (leAt e 0 1) 0 && leAt e 3 1 == n) 64
    ++ (s.sliceFlows n).flatMap (fun f => (s.flowRec f).bytes)
    ++ ents s.sealSt.pubs (fun e => puValid e && puSlice e == n) 64

def State.sliceSigs (s : State) : Table (List Byte) :=
  (List.range 256).foldl (fun t n => if s.sliceState n = 0 then t else Table.insert n (Config.sha256 (s.sliceSigBytes n)) t) []

/-- The image of `slot` runs (R523): the device is operational. -/
def State.operational (s : State) (slot : Nat) : State :=
  let h := s.header slot
  let sig := s.pairSigOf slot
  let s := { s with deviceId := hDevice h, host := { s.host with sliceSigs := s.sliceSigs } }
  let s := ((s.setPair fun x => { x with sig := sig }).putBytes F.GLB_PAIR_SIGn 12 sig).setCust (custTable (rcCust s.boot.record))
  let s := s.setBoot fun x => { x with img := some ⟨slot, h, fwFloor (s.firmware slot)⟩, opAt := some s.clk, cands := [] }
  let s := s.each (List.range 256) fun n t => if t.sliceState n = 0 then t.clearSlice n else t
  let s := ((s.put F.GLB_BOOT_STATUS_SVN (hSvn h)).put F.GLB_BOOT_STATUS_SLOT slot).putB F.GLB_BOOT_STATUS_TRIAL
    (rcTrial s.boot.record && rcPreferred s.boot.record == slot)
  let ms := min 65535 ((s.clk - s.boot.relAt) / 1000000)
  let s := ((s.setPhase 6).flag F.GLB_BOOT_STATUS_OPERATIONAL).put F.GLB_BOOT_TIME ms
  let fell := slot != s.boot.first
  let s := (s.putB F.GLB_BOOT_STATUS_FALLBACK fell).put F.VAULT_DC_TRIP_CRC s.tripCrc
  let s := s.raise 0x0001 186 slot (hSvn h) 0 ms
  s.when fell fun t => t.raise 0x0003 186 slot 0 0 0

/-- The image of `slot` is refused (R541, R543): the slot is FAILED, a warm reset removes what was applied, and the next slot
is tried. -/
def State.bootRefuse (s : State) (slot cause detail : Nat) (applied : Bool) : State :=
  let s := s.refused slot cause detail
  let s := if s.boot.record.isEmpty then s else (s.writeRecord (rcMark s.boot.record slot 3 cause)).1
  let b := s.boot
  let s := if !applied then s
    else
      let s := (s.resetNow false).sample false b.mode s.pair.strapB s.flashOk
      ((s.setBoot fun x => { x with record := b.record, first := b.first, relAt := b.relAt }).showSlots).readSlot0.vaultBegin
  (s.setBoot fun x => { x with cands := b.cands.drop 1 }).nextCand 3

/-- The checks of R542 that need no record applied: cause and detail. -/
def State.slotCause (s : State) (slot : Nat) : Nat × Nat :=
  match s.formatBad slot with
  | some o => (1, o % 65536)
  | none =>
    if s.imageDigest slot ≠ dDigest (rcSlot s.boot.record slot) then (2, 0)
    else if s.imageCause slot ≠ 0 then (s.imageCause slot, 0)
    else if hPairSig (s.header slot) ≠ s.pairSigOf slot then (8, 0)
    else (0, 0)

/-- The chosen slot is loaded, applied and enabled, or refused. `readOk` says that the flash answered; `failA`, `failB` and
`romBad` are what HBM training and the sheds' ROM checks find. -/
def bootOperational (readOk failA failB : Bool) (romBad : List Nat) (s : State) : State :=
  match s.boot.cands with
  | [] => s
  | (slot, _) :: _ =>
    if s.phase ≠ 2 ∨ s.bit F.VAULT_STATUS_INIT_BUSY then s
    else if !readOk then s.bootRefuse slot 11 0 false
    else
      let (cause, detail) := s.slotCause slot
      if cause ≠ 0 then s.bootRefuse slot cause detail false
      else match s.applySections slot false (recSections (s.header slot)) with
        | (s, d) =>
          if d ≠ 0 then s.bootRefuse slot 9 d true
          else if !s.groupsOk then s.bootRefuse slot 9 (1 * 256 + 3) true
          else if s.get F.TUDEL_CFG_DEVICE_ID ≠ hDevice (s.header slot) then s.bootRefuse slot 1 16 true
          else match s.enableAll first2 with
            | (s, some b) => s.bootRefuse slot 10 (b / 2 ^ 20) true
            | (s, none) =>
              match s.applySections slot true (recSections (s.header slot)) with
              | (s, d) =>
                if d ≠ 0 then s.bootRefuse slot 9 d true
                else match s.enableAll (s.enables slot failA failB romBad) with
                  | (s, some b) => s.bootRefuse slot 10 (b / 2 ^ 20) true
                  | (s, none) => s.operational slot
def execBootOperational (readOk failA failB : Bool) (romBad : List (Fin 68)) (dt : Nat) (s : State) : Res :=
  fin (bootOperational readOk failA failB (romBad.map (·.val)) (s.elapse dt))

/-! Confirmation (R547 to R549). -/

/-- Seconds to automatic confirmation. -/
def State.confirmLeft (s : State) : Nat :=
  match s.boot.img, s.boot.opAt with
  | some i, some t =>
    if s.bit F.GLB_BOOT_STATUS_TRIAL && hAuto i.hdr then hConfirm i.hdr - (s.clk - t) / 1000000000 else 0
  | _, _ => 0

/-- The running image is confirmed: floors, boot record, custodians. False when the record could not be written. -/
def State.confirm (s : State) : State × Bool :=
  match s.boot.img with
  | none => (s, false)
  | some i =>
    let s := s.setOtp fun o => { o with floor := max o.floor (hFloor i.hdr), fwFloor := max o.fwFloor i.fwFloor }
    let s := (s.put F.GLB_IMG_FLOOR_FLOOR s.otp.floor).put F.GLB_IMG_FLOOR_FW_FLOOR s.otp.fwFloor
    let cust := s.imageCust i.slot
    let r := splice (splice (rcMark s.boot.record i.slot 2 0) 17 (leBytes 1 0)) 256 (custBytes cust)
    let other := 1 - i.slot
    let r := if dState (rcSlot r other) ≠ 0 ∧ dSvn (rcSlot r other) < s.otp.floor then rcMark r other 3 4 else r
    let (s, ok) := s.writeRecord r
    if !ok then (s, false)
    else (((s.setCust cust).put F.GLB_BOOT_STATUS_TRIAL 0).raise 0x0005 186 i.slot (hFloor i.hdr) 0 i.fwFloor, true)

def confirmAuto (s : State) : State :=
  match s.boot.img, s.boot.opAt with
  | some i, some _ => if s.bit F.GLB_BOOT_STATUS_TRIAL && hAuto i.hdr && s.confirmLeft == 0 then s.confirm.1 else s
  | _, _ => s
def execConfirmAutoExpiry (dt : Nat) (s : State) : Res := fin (confirmAuto (s.elapse dt))

/-! Image commands (R553). -/

/-- Why an image command is refused, 0 for none. -/
def State.imgErr (s : State) (op slot ofs len src : Nat) (host : Bool) : Nat :=
  let running := s.boot.img.map (·.slot)
  if s.life = 4 then 7
  else if op = 6 then 0
  else if !(s.phase = 6 ∨ s.phase = 8) ∨ (slot = 2 ∧ (op ≠ 2 ∨ s.phase ≠ 8)) ∨ (s.phase = 8 ∧ op = 2 ∧ !host) then 6
  else if op = 4 then (if s.bit F.GLB_BOOT_STATUS_TRIAL then 0 else 5)
  else if op = 5 then (if slot < 2 ∧ dState (rcSlot s.boot.record slot) = 2 then 0 else 5)
  else if 2 < slot then 2
  else if (op = 1 ∨ op = 2) ∧ running = some slot then 1
  else if op = 2 then
    if src % 256 ≠ 0 ∨ ofs % 256 ≠ 0 ∨ len % 256 ≠ 0 ∨ len < 256 ∨ 16777216 < len
      ∨ (if slot = 2 then !(ofs = 0 ∨ ofs = 0x10000) ∨ len < 4448 else slotSize < ofs + len) then 2 else 0
  else 0

/-- A write of GLB_IMG_CMD. -/
def imgCmdWrite (d : Nat) (s : State) : State :=
  let s := (s.put F.GLB_IMG_CMD_SLOT (bitsOf d 8 2)).putB F.GLB_IMG_CMD_HOST (bitOf d 5)
  let op := d % 16
  if s.bit F.GLB_IMG_CMD_BUSY ∨ op < 1 ∨ 6 < op then s
  else
    let s := s.put F.GLB_IMG_CMD_ERR 0
    let (slot, ofs, len, src) := (bitsOf d 8 2, s.get F.GLB_IMG_OFS, s.get F.GLB_IMG_LEN, s.get F.GLB_IMG_SRC)
    let e := s.imgErr op slot ofs len src (bitOf d 5)
    if e ≠ 0 then s.put F.GLB_IMG_CMD_ERR e
    else if op = 6 then s.warmStart
    else (s.flag F.GLB_IMG_CMD_BUSY).setBoot fun x => { x with cmd := some (op, slot, src, ofs, len) }
def imgReg (op : Nat) (m : Master) (d : Nat) (s : State) : Res := fin (s.regWrite m 0x120 (imgCmdWrite (d / 16 * 16 + op)))
def execErase (m : Master) (d : Nat) (s : State) : Res := imgReg 1 m d s
def execImgWrite (m : Master) (d : Nat) (s : State) : Res := imgReg 2 m d s
def execImgDigest (m : Master) (d : Nat) (s : State) : Res := imgReg 3 m d s
def execConfirm (m : Master) (d : Nat) (s : State) : Res := imgReg 4 m d s
def execPrefer (m : Master) (d : Nat) (s : State) : Res := imgReg 5 m d s
def execRestart (m : Master) (d : Nat) (s : State) : Res := imgReg 6 m d s

/-- Flash is programmed: bits only change from 1 to 0. -/
def State.program (s : State) (a : Nat) (bs : List Byte) : State :=
  s.setFlash (Memory.store 0xFF s.flash a ((bs.zip (s.flashBytes a bs.length)).map fun p => p.1 &&& p.2))

/-- Writing the record answers 0, or ERR 4. -/
def recErr (x : State × Bool) : State × Nat := (x.1, if x.2 then 0 else 4)

/-- A boot record copy from the host: only one whose signature verifies is written (R551). -/
def State.copyWrite (s : State) (ofs : Nat) (d : List Byte) : State × Nat :=
  let r := d.take 4448
  if s.recordOk r then (s.programRecord (ofs / 0x10000) r, 0) else (s, 6)

/-- What an image command does when it completes: the state and ERR. -/
def State.imgRun (s : State) (op slot ofs len : Nat) (data : Option (List Byte)) : State × Nat :=
  match op with
  | 1 =>
    let s := (s.setFlash (Memory.clear s.flash (slotBase slot) slotSize)).addTo F.IDENT_ERASE_IMG 1280
    let (s, e) := if s.boot.record.isEmpty then (s, 0) else recErr (s.writeRecord (splice s.boot.record (24 + 64 * slot) (leBytes 64 0)))
    (s.raise 0x000A 186 slot 0 0 0, e)
  | 2 =>
    match data with
    | none => (s, 3)
    | some d => if slot = 2 then s.copyWrite ofs (d.take len) else (s.program (slotBase slot + ofs) (d.take len), 0)
  | 3 => (s.putBytes F.GLB_IMG_DIGESTn 12 (s.imageDigest slot), 0)
  | 4 => recErr s.confirm
  | _ => recErr (s.writeRecord (splice s.boot.record 16 (leBytes 1 slot ++ leBytes 1 0)))

/-- An image command ends: `data` is what WRITE read (none for a DMA fault), `ok` that the flash did its part. -/
def imgCmdDone (data : Option (List Byte)) (ok : Bool) (s : State) : State :=
  match s.boot.cmd with
  | none => s
  | some (op, slot, _, ofs, len) =>
    let (s, e) := if ok then s.imgRun op slot ofs len data else (s, 4)
    ((s.setBoot fun x => { x with cmd := none }).put F.GLB_IMG_CMD_BUSY 0).put F.GLB_IMG_CMD_ERR e
def execImgCmdDone (data : Option (List Byte)) (ok : Bool) (dt : Nat) (s : State) : Res := fin (imgCmdDone data ok (s.elapse dt))

end Sys2Proof.Machine
end

