-- ==== Sys2Proof/Machine/PowerOff.lean ====
section
/-! DEFINITION. The ends of a domain's entry into a lower state and of its wake (R501, R502, R505 to R508, R567): what a domain that
goes OFF loses, and what starts when it is ON again. -/

namespace Sys2Proof.Machine

/-- Fields that report state held outside PD19, and that its loss does not change (R341, R343, R365). -/
def reportsSlice (f : Fld) : Bool :=
  decide (bar2Base ≤ f.off) && ((List.map Fld.key [F.SLICE_STATUS_STATE, F.SLICE_STATUS_INIT_BUSY, F.SLICE_MIG_CMD_BUSY]).any
    fun k => (f.key - k) % (64 * 0x10000) == 0 && decide (k ≤ f.key))

/-- Registers of domain `d` return to their reset values, but for fields of class ST and TMR fields (R567). -/
def State.loseRegs (s : State) (d : Nat) : State :=
  s.resetFields fun a f => s.regDomain a == d && f.cls != .st && f.prot != .tmr && !reportsSlice f

/-- Half `h` of the Loft loses its content: the segments and the history that lie in it (R138, R140). -/
def State.loseHalf (s : State) (h : Nat) : State :=
  let v := s.loft.halves
  let (lo, n) := if v = 0 then (h * 2 ^ 33, 2 ^ 33) else (0, if v = h + 1 then 2 ^ 34 else 0)
  (s.loseSegs fun p => placeHalf p == h).setLoft fun x => { x with
    hist := Memory.clear x.hist lo n, tags := TagMap.set (lo / 256) (n / 256) 0 x.tags }

/-- What is lost beyond registers when domain `d` goes OFF (R501, R502). -/
def State.loseContent (s : State) (d : Nat) : State :=
  if d < 9 then
    let ps := (List.range 96).filter fun n => s.portGroup n == d - 1
    { s with
      prt := { s.prt with ports := s.prt.ports.filter fun e => !ps.contains e.1 }
      egress := s.egress.filter fun e => !ps.contains e.1 }
  else if d < 13 then
    s.each ((List.range 68).filter fun p => shedQuad p == d - 9) fun p t =>
      let t := if t.bit (sh F.SHED_CTRL_EN p) then t.shedOff p else t
      let t := t.setShed p fun _ => Shed.init
      t.each (List.range 16) fun l u => u.setStall (16 * p + l) fun _ => Stall.init
  else if d = 13 then
    { s with
      gate := { s.gate with
        flows := [], keys := [], inflight := [], changes := [], propagate := [], gmac := Engine.idle, hmac := Engine.idle }
      prt := { s.prt with reds := [] }
      sealSt := State.reset.sealSt }
  else if d = 14 then
    { s with yard := { State.reset.yard with
      bankMap := s.yard.bankMap, taking := s.yard.taking, retired := s.yard.retired, retiring := s.yard.retiring } }
  else if d = 15 ∨ d = 16 then
    s.loseHalf (d - 15)
  else if d = 17 then { s with vault := { s.vault with slots := [], drbg := [], gen := [], root := none } }
  else if d = 18 then { s with tud := { fwd := [], links := [] } }
  else if d = 19 then s.setHost fun x => { x with msix := [], pba := [] }
  else s

/-- A domain reaches the lower state it was entering (R505); the yard is disabled when PD14 leaves ON (R135); in OFF a domain's
content is lost. -/
def domainEntryDone (d : Nat) (s : State) : State :=
  match (s.dom d).entering with
  | none => s
  | some st =>
    let s := (s.setDom d fun x => { x with entering := none }).domChange d st
    let s := s.when (d == 14 && s.bit F.MYARD_CTRL) State.yardStop
    if st = 3 then (s.loseContent d).loseRegs d else s
def execDomainEntryDone (d : Fin 20) (dt : Nat) (s : State) : Res := fin (domainEntryDone (d + 1) (s.elapse dt))

/-- A wake has ended (R508): what waited proceeds; the stalls of a quadrant join the pool of the run beat (R244); a vault that was OFF runs its start sequence first (R417). -/
def domainUp (d dt : Nat) (s : State) : State :=
  let off := s.domState d == 3
  let was := s.domWaking d
  let s := domainWakeDone d dt s
  let s := s.when (decide (9 ≤ d ∧ d ≤ 12) && s.bt.running && s.bit F.GROOM_CTRL && s.runsItems) State.joinPool
  if d = 17 ∧ was then (if off then s.vaultBegin else s.vaultKick.vaultNext.pkStart)
  else s
def execDomainWakeDone (d : Fin 20) (dt : Nat) (s : State) : Res := fin (domainUp (d + 1) dt s)

end Sys2Proof.Machine
end

