-- ==== Sys2Proof/Machine/Edge.lean ====
section
/-! DEFINITION. The beat as a whole (R17, R23, R25, R29): its edge, the end of cut settle, the run deadline and the close of
the delta. A phase whose own command has not come is carried out, in its place, by the next one (R25; assumption log 110). -/

namespace Sys2Proof.Machine

/-! Cut settle ends (R120, R126). -/

/-- At the edge + 0.160 µs: slabs close with their digests, dispatch opens, digests and forwarded slabs leave. -/
def cutSettleEnd (s : State) : State :=
  if !s.bt.running ∨ s.bt.dispatchOpen then s
  else
    let b := s.beat
    let s := (s.toNs (edgeNs s.rate b + 160)).cutSettle b
    (((s.setBt fun x => { x with dispatchOpen := true }).sendDigests b).forward b).missAtOpen.sweepOpen

def execCutSettleEnd (s : State) : Res := fin (cutSettleEnd s)

/-! The run deadline (R196, R216, R329). -/

/-- The run deadline of the present beat in ns of device time. -/
def State.deadlineNs (s : State) : Nat := edgeNs s.rate s.bt.next - s.sealNs

/-- At L − S every stall with an item receives the stop; those in `late` do not come to an end in time (R198). -/
def runDeadline (late : List Nat) (s : State) : State :=
  if !s.bt.running ∨ s.bt.deadline then s
  else
    let s := (cutSettleEnd s).commit
    let s := (s.toNs s.deadlineNs).setBt fun x => { x with deadline := true }
    let s := s.each s.busyStalls fun k t =>
      if late.contains k then (t.setStall k fun x => { x with load := none }).put (stl F.SHED_STALL_STATn_STATE k) 3
      else t.stopStall k
    s.groomDeadline.fwdLate s.beat

def execRunDeadline (late : List Nat) (s : State) : Res := fin (runDeadline late s)

/-! The delta closes (R197, R198, R237, R257, R258). -/

/-- A stall that has not stopped is fenced, its buffered stores being refused as FENCED and dropped (R383; assumption log 152), and
reset; three times in 65,536 beats and it is retired (R198). -/
def State.stopLate (s : State) (k : Nat) : State :=
  let p := k / 16
  let n := ((s.stall k).item.map itSlice).getD 0
  let s := s.each (s.stall k).sb fun e t => t.stallRefuse k e.addr.toNat 1 ⟨11, 0, 0⟩ 0
  let s := (s.bump (sh F.SHED_CNT_STOPLATE p)).raise 0x8002 (shedSource p) (stallParam k) n 0 0
  let s := s.itemEnd k 4 0
  let recent := (s.stall k).resets.filter fun b => decide (s.beat < b + 65536)
  let three := decide (2 ≤ recent.length)
  let s := s.setStall k fun x => { x with core := Core.zero, icache := [], resets := if three then [] else s.beat :: recent }
  let s := s.put (stl F.SHED_STALL_STATn_STATE k) 4
  s.when three fun t => t.stallFail k

/-- The seal copies a delta: it is ACTIVE, or SOLO at the point where a resync ends (R28, R302). -/
def State.copies (s : State) : Bool :=
  s.role == 4 || (match s.pair.resync with
    | some x => s.role == 5 && x.ended
    | none => false)

/-- The delta of `b` is sized, tested against the budget and copied. -/
def State.sealDelta (s : State) (b : Nat) : State :=
  let (s, freezes) := s.sealClose b
  let size := s.deltaSize freezes.length
  let s := (s.put F.SEAL_DELTA size).put F.SEAL_DELTA_MAX (max (s.get F.SEAL_DELTA_MAX) size)
  let oversize := s.copies && decide (s.deltaBudget < size)
  let s := s.when oversize fun t => (t.flag F.SEAL_STATUS_OVER_BUDGET).raise 0x9001 177 size t.deltaBudget 0 0
  (s.copyDelta b size oversize freezes).setSeal fun x => { x with marks := [], epochs := [], changed := [] }

/-- At L − S + 0.100 µs: late stalls are reset, the delta closes, slabs are cleared, page copies start, the forecast is
made. -/
def deltaClose (s : State) : State :=
  if !s.bt.running ∨ s.bt.deltaClosed then s
  else
    let s := (runDeadline [] s).commit
    let b := s.beat
    let s := (s.toNs (s.deadlineNs + 100)).setBt fun x => { x with deltaClosed := true }
    let s := s.each s.busyStalls fun k t => t.stopLate k
    let s := s.when s.runsItems fun t => t.sealDelta b
    let s := s.setYard fun x => { x with recs := [] }
    let s := s.each (s.cutSlabs b) fun gk t => t.dropWin gk.1 gk.2
    if s.bit F.GROOM_CTRL then (s.forecast b).moveOut.startCopies else s

def execDeltaClose (s : State) : Res := fin (deltaClose s)

/-- The acknowledgement cut-off follows the close of the delta (R23, R259). -/
def execAckCutoff (readback : Bool) (s : State) : Res := fin (ackCutoff readback (deltaClose s).commit)

/-! The edge (R17, R29). -/

/-- The emit decision of run beat `r` is carried out: results, then frames and HOST records (R22, R26, R233, R353). True
where the beat is emitted. Every beat not emitted is WITHHELD (R29, R618) but for one that ends in standby: R30 names STANDBY
alone for it, and it has no outputs to discard (DESIGN CHOICE, assumption log 129). -/
def State.endBeat (s : State) (r : Nat) : State × Bool :=
  let allow := s.bt.decision == some true && s.bt.gateOpen == some true
  let held := !allow && !s.bt.res.standby
  let s := s.postResults held
  let s := if allow then s.releaseBeat r else s.discardBeat r
  let s := s.setRes fun x => { x with emitted := allow, withheld := held }
  (s.when (s.bit F.GROOM_CTRL && s.runsItems) fun t => t.tripShort.groomStats, allow)

/-- Stalls reset under R198 return to service. -/
def State.stallsBack (s : State) : State :=
  s.each ((s.pool.stalls.map (·.1)).filter fun k => s.get (stl F.SHED_STALL_STATn_STATE k) == 4) fun k t =>
    t.put (stl F.SHED_STALL_STATn_STATE k) (if bitOf (t.get (sh F.SHED_STALL_OK (k / 16))) (k % 16) then 1 else 5)

/-- The code caches of every shed are invalidated (R173). -/
def State.dropCode (s : State) : State :=
  s.setPool fun x => { x with
    invalidate := false
    stalls := x.stalls.map fun e => (e.1, { e.2 with icache := [] })
    sheds := x.sheds.map fun e => (e.1, { e.2 with ccache := [] }) }

/-- Page moves and repairs take effect (R130, R132, R169, R237, R240). -/
def State.edgeRepairs (s : State) (late : List Nat) : State :=
  let s := ((s.finishMoves late).stallsBack.repairEdge.replaceLost).bankSwitch.groupReplace
  s.when s.pool.invalidate State.dropCode

/-- Actions and settings that wait for an edge (R110, R354, R364, R384, R443). -/
def State.edgeActions (s : State) (b : Nat) : State :=
  let s := s.each s.groupList fun g t => t.memberEdge g
  let (s, freeze) := s.policyEdge b
  ((s.each freeze fun n t => t.freezeSlice n).sliceEdge b).tripEdge b

/-- Run beat `b` opens: windows, items and the plan (R126, R213, R219). -/
def State.openBeat (s : State) (b : Nat) : State :=
  let tq := s.tq
  let s := (s.openWindows b tq).put F.BEAT_LAST_ISSUED b
  let s := s.setBt fun x => { x with running := true, res := { BeatRes.init with tq := tq } }
  if s.bit F.GROOM_CTRL then
    let s := s.when (s.runsItems || s.standby) fun t => t.triggerAll b
    s.when s.runsItems fun t => t.makePlan b (t.runCycles b)
  else s

/-- What the beat's phases have left undone: the close of the delta, the cut-off with a readback that agrees, the sample of
the egress gate (R25). -/
def State.lastPhases (s : State) : State :=
  let s := (deltaClose s).commit
  let s := (ackCutoff (!s.pair.actOut.getD true) s).commit
  if s.bt.gateOpen.isSome then s else (egressGateSample s).commit

/-- The edge of the next beat. `late` holds the flows whose page copy is not complete, `degraded` whether the ports'
corrected FEC codewords exceeded their bound (R307), `e` the energy of the beat that ends (R514). At a reseat edge the
records 0x1004 to 0x1007 of the ended beat carry the beat number and device time after the offset (assumption log 23). -/
def beatEdge (e : Meters) (late : List Nat) (degraded : Bool) (s : State) : State :=
  if !s.bit F.BEAT_CTRL_EN ∨ s.lifeSt.refclkLost then s
  else
    let s := s.lastPhases.toEdge
    let ran := s.bt.running
    let r := s.beat
    let tq0 := s.tq
    let (s, emitted) := if ran then s.endBeat r else (s, false)
    let s := s.repeatWaiting.setBt fun x => { x with adjNow := s.get F.BEAT_FREQ_ADJ }
    let (s, b, discard) := s.tqEdge s.bt.next
    let s := (s.put F.BEAT_NUM b).setBt fun x => { x with next := b + 1 }
    let s := s.when ran fun t => t.publishResult r t.bt.res
    let s := s.when discard State.discardWindows
    let s := s.when (s.tq == 4 && s.bt.reseatCounts) fun t => t.bump F.BEAT_CNT_LOST
    let s := s.pairEdge b r emitted tq0 degraded
    let s := s.setBt fun x => { x with running := false, dispatchOpen := false, deadline := false, deltaClosed := false,
                                       decision := none, gateOpen := none }
    let s := (s.edgeRepairs late).edgeActions b
    let s := ((s.lateBuild b).latchMeters e).poolEdge b
    if tqRuns s.tq ∧ s.get F.BEAT_LAST_ISSUED < b then s.openBeat b else s

def execBeatEdge (e : Meters) (late : List Nat) (degraded : Bool) (s : State) : Res := fin (beatEdge e late degraded s)

end Sys2Proof.Machine
end

