-- ==== Sys2Proof/Machine/Export.lean ====
section
/-! DEFINITION. The end of a Loft export: what it reads from the ring (R152, R159), the export engine's guard (R155, R370, R378,
R380), and the manifest (R153, R154). -/

namespace Sys2Proof.Machine

/-- Entries as read: each pair of `ue` gives the number of an entry and its bytes as read with an uncorrectable error, whose
CRC then fails (R159). -/
def readEnts (ue : List (Nat × List Byte)) (es : List (List Byte)) : List (List Byte) :=
  es.mapIdx fun i e => ((ue.find? fun x => x.1 == i && x.2.length == e.length && !entCrcOk x.2).map (·.2)).getD e

/-- The guard of the export engine, master 0x491: a slice job for scope SLICE, privileged for PLATFORM (R370). False when it
refuses the host-side write at `addr`: of a slice that is not bound, or one that the host ends with an error. -/
def State.exportGuard (s : State) (x : ExpReq) (addr : Nat) (hostOk : Bool) : State × Bool :=
  if x.scope = 1 then s.hostAccess 0x491 x.slice addr 1 hostOk
  else if hostOk then (s, true)
  else ((s.refuse ⟨0x491, none, true, true, none, 0, 1, addr % 2 ^ 32⟩ ⟨9, 0, 0⟩ 0 none).1, false)

/-- The export at the head of the queue ends, and the next one starts (R155). -/
def State.endExport (s : State) (x : ExpReq) (rest : List ExpReq) (err : Nat) : State :=
  ((s.expAnswer x err).setLoft fun y => { y with exports := rest }).expNext (rest.length + 1)

/-- The export is refused at the host: no manifest, ERR 2 or DMA_FAULT, event 0x6007 (R155). -/
def State.exportFault (s : State) (x : ExpReq) (rest : List ExpReq) : State :=
  (s.raise 0x6007 107 x.slot (s.frz x.slot).reason 0 0).endExport x rest 2

/-- The running export ends (R153 to R155); `fault` is the number of entries written before a write that the host ends with
an error; `ce` corrected errors were met on the reads, and `ue` gives the uncorrectable ones. -/
def loftExportComplete (fault : Option Nat) (ce : Nat) (ue : List (Nat × List Byte)) (s : State) : State :=
  match s.loft.exports with
  | [] => s
  | x :: rest =>
    let all := ((s.spanEntries x.slot).filter (scopeKeeps x.scope x.slice)).drop x.start
    let (fit, part) := takeFit x.len all
    let ents := readEnts ue fit
    let s := (s.addTo F.LOFT_CNT_CE ce).addTo F.LOFT_CNT_UE ue.length
    let done := ents.take (fault.getD ents.length)
    match s.exportGuard x x.addr true with
    | (s, false) => s.exportFault x rest
    | (s, true) =>
      let s := s.expWrite x x.addr done.flatten
      match s.exportGuard x (x.addr + done.flatten.length) fault.isNone with
      | (s, false) => s.exportFault x rest
      | (s, true) =>
        let seq := s.get F.LOFT_EXP_SEQ + 1
        let s := s.put F.LOFT_EXP_SEQ seq
        let body := s.manifestBody x ents part seq
        let s := s.expWrite x x.man (body ++ s.manifestSig body)
        let s := (s.setFrz x.slot fun f => { f with flags := f.flags ||| 4 }).bump F.LOFT_CNT_EXPORTS
        (s.raise 0x6006 107 x.slot (s.frz x.slot).reason 0 (seq % 2 ^ 32)).endExport x rest 0

def execLoftExportComplete (fault : Option Nat) (s : State) (ce : Nat := 0) (ue : List (Nat × List Byte) := []) : Res :=
  fin (loftExportComplete fault ce ue s)

end Sys2Proof.Machine
end

