-- ==== Sys2Proof/Machine/RegCmd.lean ====
section
/-! DEFINITION. Register commands (chapter 19): writes and reads of any register, with the size rule of R556, the
domains of R566 and the debug port of R555 and R558; the scrub of TMR fields (R564) and the check of INV fields
(R469). A write to a register that issues a command has that command's effect. -/

namespace Sys2Proof.Machine

/-! Writes. -/

/-- The operations of the access registers by their OP field. GATE_KACC_CMD answers an OP that its table does not name with ERR 2
(R104); in the others such an OP does nothing (assumption log 111). -/
def gateFaccWrite (d : Nat) : State → State :=
  match d % 16 with
  | 1 => faccIn gateReadOp
  | 2 => faccIn gateWrite
  | 3 => faccIn gateInvalidateOp
  | 4 => faccIn resetReplayOp
  | 5 => faccIn setQuarOp
  | 6 => faccIn clearQuarOp
  | 7 => faccIn readStatsOp
  | 8 => faccIn readReplayOp
  | 9 => faccIn (onValid setNextCmd)
  | _ => id
def gateKaccWrite (d : Nat) : State → State :=
  match d % 16 with
  | 1 => kaccIn readMetaOp
  | 2 => kaccIn keyRetireCmd
  | _ => kaccIn (kaccErr 2)
def myardGaccWrite (d : Nat) : State → State :=
  match d % 16 with
  | 1 => gaccIn myardReadOp
  | 2 => gaccIn myardWrite
  | 3 => gaccIn myardInvalidate
  | 4 => gaccIn myardReadStatsOp
  | _ => id
def loftFrzWrite (d : Nat) : State → State :=
  let slot := bitsOf d F.LOFT_FRZ_CMD_SLOT.lo F.LOFT_FRZ_CMD_SLOT.width
  match d % 16 with
  | 1 => frzIn frzTrigger
  | 2 => frzIn (frzReleaseCmd slot)
  | 3 => frzIn (readSlotOp slot)
  | _ => fun s => s.put F.LOFT_FRZ_CMD_SLOT slot
def groomIaccOp (d : Nat) : State → State :=
  match d % 16 with
  | 1 => iaccIn iaccReadOp
  | 2 => iaccIn iaccWrite
  | 3 => iaccIn iaccInvalidate
  | _ => id
def groomFaccOp (d : Nat) : State → State :=
  let dest := bitsOf d F.GROOM_FACC_CMD_DEST.lo F.GROOM_FACC_CMD_DEST.width
  match d % 16 with
  | 1 => faccCmd7In groomFaccReadOp
  | 2 => faccCmd7In groomFaccWrite
  | 3 => faccCmd7In (groomMove dest)
  | _ => fun s => s.put F.GROOM_FACC_CMD_DEST dest
def sealPaccOp (d : Nat) : State → State :=
  match d % 16 with
  | 1 => paccIn sealReadOp
  | 2 => paccIn sealWrite
  | 3 => paccIn sealInvalidate
  | _ => id
def tudelFaccOp (d : Nat) : State → State :=
  match d % 16 with
  | 1 => tfaccIn tfaccReadOp
  | 2 => tfaccIn tfaccWrite
  | 3 => tfaccIn tfaccInvalidate
  | _ => id
def guardRaccOp (d : Nat) : State → State :=
  match d % 16 with
  | 1 => raccIn guardRaccRead
  | 2 => raccIn guardRaccWrite
  | 3 => raccIn guardRaccInvalidate
  | _ => id
def guardTagOp (d : Nat) : State → State :=
  let colour := bitsOf d F.GUARD_TAG_CMD_COLOUR.lo F.GUARD_TAG_CMD_COLOUR.width
  match d % 16 with
  | 1 => tagIn colour tagFill
  | 2 => tagIn colour tagRead
  | _ => fun s => s.put F.GUARD_TAG_CMD_COLOUR colour
def sliceMigOp (n d : Nat) : State → State :=
  match d % 8 with
  | 1 => migIn n fun t => t.freezeSlice n
  | 2 => migIn n fun t => t.thawSlice n
  | 3 => migIn n (saveCmd n)
  | 4 => migIn n (restoreCmd n)
  | _ => id

/-- The fields of a stray or small-traffic limit take the written word while the gate is disabled; a bucket whose limit
is written is full, and the count of strays restarts (R621, R622). -/
def gateCfgWrite (d : Nat) (s : State) : State :=
  let s' := s.writeWord 0x400010 d
  if s.bit F.GATE_CTRL then s' else { s' with gate := { s'.gate with strays := 0, strayTok := none } }
def smallRateWrite (d : Nat) (s : State) : State :=
  let s' := s.writeWord 0x40001C d
  if s.bit F.GATE_CTRL then s' else { s' with gate := { s'.gate with ptpTok := none, otherTok := none } }

/-- Registers of the single blocks whose writes do more than their access codes say. `ok` is the outcome of what the
write starts: an OTP digest that verifies, both HBM halves passing. -/
def commandHooks (d : Nat) (ok : Bool) : Table (State → State) :=
  [ (0x120, imgCmdWrite d),
    (0x100000, beatCtrlWrite d), (0x10001C, beatTqWrite d), (0x100040, freqAdjWrite d),
    (0x260000, portGlbWrite d),
    (0x400000, gateCtrlWrite d), (0x400010, gateCfgWrite d), (0x40001C, smallRateWrite d),
    (0x400024, gateFaccWrite d), (0x400084, gateKaccWrite d),
    (0x500000, myardCtrlWrite d), (0x500024, myardGaccWrite d),
    (0x600000, loftCtrlWrite d (!ok) (!ok)), (0x600030, loftFrzWrite d), (0x600060, expCmdWrite d),
    (0x700000, groomCtrlWrite d), (0x700034, groomIaccOp d), (0x700084, groomFaccOp d),
    (0x7000A0, sstatLatch (d % 256)), (0x700108, blogLatch (d % 8192)),
    (0x900000, sealCtrlWrite d), (0x900034, sealPaccOp d), (0x900084, taccWrite d),
    (0xA00000, pairCtrlWrite d),
    (0xB00000, tudelCtrlWrite d), (0xB00084, tudelFaccOp d), (0xB000A0, tudelFrzGo d) ] ++
  [ (0xC00000, vaultCtrlWrite d), (0xC00030, vaultIssue (d % 256)), (0xC00408, pkCmdWrite d),
    (0xC00504, dcCmdWrite d), (0xC00600, custIdxWrite d),
    (0xD00000, guardCtrlWrite d), (0xD00024, guardRaccOp d), (0xD0004C, guardTagOp d), (0xD00064, repPop d),
    (0xE00000, evtCtrlWrite d), (0xE00014, evtEoi (d % 512)), (0xE0001C, fwEvent (d % 65536)),
    (0xE00030, softRaise d), (0xE00110, ldgRdLatch (d % 2 ^ 21)), (0xE00160, ldgExpWrite d),
    (0xF00000, pwrCtrlWrite d), (0xF00180, smtrLatch (d % 256)),
    (0x1000000, tampCtrlWrite d), (0x1000020, lifeCmdWrite (d % 16) ok),
    (0x1100000, mtestCtrlWrite d) ]

/-- Registers of the per-instance blocks whose writes do more than their access codes say. -/
def instanceHook (a d : Nat) : Option (State → State) :=
  if 0x200000 ≤ a ∧ a < 0x260000 then
    (if a % 0x1000 = 0 then some (portCtrlWrite ((a - 0x200000) / 0x1000) d) else none)
  else if 0x300000 ≤ a ∧ a < 0x320000 then
    (if a % 0x400 = 0 then some (laneCtrlWrite ((a - 0x300000) / 0x400) d) else none)
  else if 0x800000 ≤ a ∧ a < 0x844000 then
    let p := (a - 0x800000) / 0x1000
    match a % 0x1000 with
    | 0 => some (shedCtrlWrite p d)
    | 0x18 => some (bankPwrWrite p d)
    | 0x4C => some (semForce p d)
    | 0x50 => some (stallPwrWrite p d)
    | _ => none
  else if 0xD00800 ≤ a ∧ a < 0xD00C00 then some (polWrite ((a - 0xD00800) / 4) d)
  else if bar2Base ≤ a ∧ a < bar2Base + 0x1000000 then
    let n := (a - bar2Base) / 0x10000
    match a % 0x10000 with
    | 0 => some (sliceCtrlWrite n d)
    | 0x64 => some (sliceMigOp n d)
    | 0x1004 => some (cqHead n d)
    | 0x100C => some (evrHead n d)
    | _ => none
  else none

/-- A word of the MSI-X table (R340, R570): a vector that leaves its mask with its pending bit set sends its message
(PCIe 6.0; assumption log 8). -/
def msixWrite (k d : Nat) (s : State) : State :=
  let s := s.setHost fun x => { x with msix := Table.put (msixRst k) k (d % 2 ^ 32) s.host.msix }
  let v := k / 4
  if s.host.pba.contains v ∧ !bitOf (s.msixWord (4 * v + 3)) 0 ∧ s.host.fn = .d0 then
    (s.setHost fun x => { x with pba := s.host.pba.filter (· != v) }).raiseVector v
  else s

/-- The effect of a whole-word write at an address. -/
def wordWrite (a d : Nat) (ok : Bool) (s : State) : State :=
  if 0x80000 ≤ a ∧ a < 0x81080 then msixWrite ((a - 0x80000) / 4) d s
  else match Table.find a (commandHooks d ok) with
    | some g => g s
    | none => match instanceHook a d with
      | some g => g s
      | none => s.writeWord a d

/-- The sizes R556 admits: a whole aligned word, or two of them; for a read also a part of one word. -/
def writeSizeOk (a len : Nat) (whole : Bool) : Bool :=
  whole && ((len == 4 && a % 4 == 0) || (len == 8 && a % 8 == 0))
def readSizeOk (a len : Nat) : Bool :=
  (decide (0 < len) && decide (a % 4 + len ≤ 4)) || (len == 8 && a % 8 == 0)

/-- A write by a master (R555, R556, R559, R566). -/
def State.writeReg (s : State) (m : Master) (a d len : Nat) (whole ok : Bool) : State :=
  if m = .debug ∧ s.dbgLevel = 0 then s
  else if !writeSizeOk a len whole then s.accessRefused m true a 1
  else
    let s := s.regWrite m a (wordWrite a (d % 2 ^ 32) ok)
    if len = 8 then s.regWrite m (a + 4) (wordWrite (a + 4) (d / 2 ^ 32 % 2 ^ 32) ok) else s

/-- REGISTER_WRITE (R559). -/
def execRegisterWrite (m : Master) (a d len : Nat) (whole ok : Bool) (s : State) : Res :=
  fin (s.writeReg m a d len whole ok)

/-! Reads. -/

/-- Entry `i` from the bottom of the stack of claimed sources, with the depth shown (EVT_STACK_TOP, EVT_STACKn). -/
def State.showStack (s : State) (e : Option (Nat × Nat)) (d : Nat) (v dp p src : Nat → Fld) (i : Nat) : State :=
  let (src', p') := e.getD (0, 0)
  (((s.putB (v i) e.isSome).put (dp i) d).put (p i) p').put (src i) src'

/-- Fields that follow other state are brought up to date for a read of their register. -/
def State.refresh (s : State) (a : Nat) : State :=
  let stk := s.evt.stack
  if 0x200000 ≤ a ∧ a < 0x260000 ∧ a % 0x1000 = 4 then s.showFec ((a - 0x200000) / 0x1000)
  else if a = 0x1B0 then s.put F.GLB_CONFIRM_LEFT s.confirmLeft
  else if a = 0x1100014 then s.syncSpares
  else if a = 0x600020 then s.put F.LOFT_SPAN_US s.loftSpan
  else if a = 0x900014 then s.put F.SEAL_BUDGET s.deltaBudget
  else if a = 0xC00114 then
    let x := Table.at ⟨false, 0, false, 0⟩ (s.get F.VAULT_DRBG_IDX) s.vault.drbg
    (s.putB F.VAULT_DRBG_STAT_READY x.ready).put F.VAULT_DRBG_STAT_COUNT x.count
  else if a = 0xE00018 then
    s.showStack stk.head? stk.length (fun _ => F.EVT_STACK_TOP_VALID) (fun _ => F.EVT_STACK_TOP_DEPTH)
      (fun _ => F.EVT_STACK_TOP_PRIO) (fun _ => F.EVT_STACK_TOP_SOURCE) 0
  else if 0xE000C0 ≤ a ∧ a < 0xE00100 then
    let i := (a - 0xE000C0) / 4
    s.showStack stk.reverse[i]? 0 F.EVT_STACKn_VALID.idx F.EVT_STACKn_DEPTH.idx F.EVT_STACKn_PRIO.idx
      F.EVT_STACKn_SOURCE.idx i
  else if a = 0x1000080 then s.put F.LIFE_DBG_REMAIN s.grantLeft
  else if a = 0x1000084 then s.put F.TAMP_MTC s.mtc
  else if bar2Base ≤ a then
    let n := (a - bar2Base) / 0x10000
    if a % 0x10000 = 0x80 then s.put (sl F.SLICE_CFG_CRC n) (s.cfgCrc n)
    else if a % 0x10000 = 0x84 then s.sliceUse n
    else s
  else s

/-- What a mismatch between an INV field and its shadow leaves in the field (R469): flags read 1, LIFE_STATE reads
SCRAP, a source's configuration its reset value, and everything else its primary copy. -/
def invSafe (f : Fld) (v pat : Nat) : Nat :=
  if f.key = F.LIFE_STATE_STATE.key then 4
  else if f.key = F.TAMP_STICKY.key then v ||| pat
  else if f.width = 1 ∧ f.acc = .ro then 1
  else if f.acc = .rwd then f.rst
  else v

/-- A read finds the copies of an INV field unequal (R469): the safe value, TAMP_INV_ADDR, the count, event 0xE006 and
source 23. -/
def State.invMismatch (s : State) (f : Fld) : State :=
  let s := s.put f (invSafe f (s.get f) (Table.at 0 f.key s.inv))
  let s := ((s.put F.TAMP_INV_ADDR f.off).bump F.TAMP_CNT_INV).flag F.TAMP_STATUS_INV_ERR
  let s := (s.raise 0xE006 183 f.off 0 0 0).tampTrigger 23 0
  s.when (f.key == F.LIFE_STATE_STATE.key) State.syncDbg

/-- The INV fields among some whose shadows disagree. -/
def State.invBad (s : State) (fs : List Fld) : List Fld :=
  fs.filter fun f => f.prot == .inv && Table.at 0 f.key s.inv != 0

/-- Keys of TMR fields whose copies disagree. -/
def State.badCopies (s : State) : List Nat :=
  (s.tmr.filter fun e => !(e.2.1 == e.2.2.1 && e.2.2.1 == e.2.2.2)).map (·.1)

/-- The disagreeing copies of some fields take the voted value, which is counted by register and reported with the last
register's address (R13, R564). -/
def State.revote (s : State) (ks : List Nat) : State :=
  let regs := (ks.map (· / 64)).eraseDups
  let s := s.each ks fun k t =>
    match fieldOfKey k with
    | none => { t with tmr := Table.erase k t.tmr }
    | some f => t.put f (t.get f)
  match regs.getLast? with
  | none => s
  | some a =>
    let s := (s.addTo F.GLB_VOTE_CNT regs.length).flag F.GLB_ACC_STATUS_VOTE
    let s := (s.putB F.GLB_VOTE_ADDR_BAR2 (decide (bar2Base ≤ a))).put F.GLB_VOTE_ADDR_OFFSET
      (if bar2Base ≤ a then a - bar2Base else a)
    s.limited 0x0010 0 regs.length fun k t =>
      t.raise 0x0010 186 (t.readFields [F.GLB_VOTE_ADDR_BAR2, F.GLB_VOTE_ADDR_OFFSET] 0) 0 k 0

/-- Those of them that lie among some fields. -/
def State.badOf (s : State) (fs : List Fld) : List Nat := s.badCopies.filter fun k => fs.any fun f => f.key == k

/-- What a read of a register leaves of its protected fields (R13): disagreeing TMR copies are corrected, counted and recorded
(R564), and INV fields that disagree with their shadows take their safe values (R469). A read through the debug port has no
side effect (R558): it returns the vote. A use of a TMR field inside the block takes the vote (State.get), and the next read or
scrub corrects it (assumption log 131). -/
def State.checkRead (s : State) (m : Master) (fs : List Fld) : State :=
  if m = .debug then s
  else
    let s := s.revote (s.badOf fs)
    s.each (s.invBad fs) fun f t => t.invMismatch f

/-- What a read of a field by a master leaves: an RC field is cleared, and the high word of an RLH pair is latched into
the master's own shadow; the debug port clears nothing (R12, R558, R562). -/
def State.readField (s : State) (m : Master) (w : Nat) (f : Fld) : State :=
  if f.acc = .rc ∧ m ≠ .debug then s.put f 0
  else if f.acc = .rlh ∧ w = 0 then s.latch m (f.off + 4) (s.get f / 2 ^ 32)
  else s

/-- LANE_MARGIN of lane `l` (R71): the eye that the lane measures while it recovers a clock is the line's, a free value (assumption
log 134). -/
def laneMargin (l : Nat) (s : State) : State :=
  if s.bit (ln F.LANE_STATUS_CDR_LOCK l) then s.useFree.ret (s.freeVal 16) else s.ret 0

/-- A read of a word that is reached, with its side effects; the data is left in `rdata`. -/
def State.wordRead (s : State) (m : Master) (a : Nat) : State :=
  if 0x80000 ≤ a ∧ a < 0x81080 then s.ret (s.msixWord ((a - 0x80000) / 4))
  else if 0x82000 ≤ a ∧ a < 0x82028 then
    let k := (a - 0x82000) / 4
    s.ret (((List.range 32).filter fun i => s.host.pba.contains (32 * k + i)).foldl setBit 0)
  else if a = 0x100030 then beatTimeRead m s
  else if a = 0x100034 ∨ a = 0x100038 ∨ a = 0x100050 then s.ret (s.shadow m a)
  else if a = 0xE00010 then evtClaim m s
  else if 0x300000 ≤ a ∧ a < 0x320000 ∧ a % 0x400 = 0x20 then laneMargin ((a - 0x300000) / 0x400) s
  else if a = 0xC0010C then s.useFree.ret (if s.may .rawNoise then s.freeVal 32 else 0)
  else match findReg a blocks with
    | none => s.ret 0
    | some r =>
      let s := s.checkRead m r.fields
      let t := s.refresh a
      if r.word = 1 ∧ r.fields.any (fun f => f.acc == .rlh) then s.ret (s.shadow m a)
      else
        let v := t.readFields r.fields r.word
        let s := r.fields.foldl (fun u f => if f.acc = .rlh ∧ r.word = 0 then u.latch m (f.off + 4) (t.get f / 2 ^ 32)
          else u.readField m r.word f) s
        let s := if a = 0x100054 then
            s.latch m 0x100050 (s.readFields [F.BEAT_RESULT_OVR_ITEMS, F.BEAT_RESULT_STANDBY, F.BEAT_RESULT_EMITTED,
              F.BEAT_RESULT_WITHHELD, F.BEAT_RESULT_ACK_LATE, F.BEAT_RESULT_UNCOPIED, F.BEAT_RESULT_UNPAIRED,
              F.BEAT_RESULT_SEALED, F.BEAT_RESULT_CUT_LATE, F.BEAT_RESULT_TQ] 0)
          else s
        s.ret v

/-- A read of one word by a master: nothing through the debug port at NONE, zero where the domain does not answer
(R555, R566). -/
def State.readOne (s : State) (m : Master) (a : Nat) : State :=
  if m = .debug ∧ s.dbgLevel = 0 then s.ret 0
  else if !s.domAccessible (s.regDomain a) then (s.accessRefused m false a 2).ret 0
  else s.wordRead m a

/-- A read of `len` bytes by a master (R556). -/
def State.readReg (s : State) (m : Master) (a len : Nat) : State :=
  if m = .debug ∧ s.dbgLevel = 0 then s.ret 0
  else if !readSizeOk a len then (s.accessRefused m false a 1).ret 0
  else if len = 8 then
    let s := s.readOne m a
    let t := s.readOne m (a + 4)
    t.ret (s.rdata + 2 ^ 32 * t.rdata)
  else
    let t := s.readOne m (a / 4 * 4)
    t.ret (t.rdata / 2 ^ (8 * (a % 4)) % 2 ^ (8 * len))

/-- LOW_WORD_READ (R562). -/
def execLowWordRead (m : Master) (a dt : Nat) (s : State) : Res := fin ((s.elapse dt).readReg m a 4)
/-- READ_CLEAR (R12). -/
def execReadClear (m : Master) (a : Nat) (s : State) : Res := fin (s.readReg m a 4)
/-- REGISTER_READ_REFUSED (R566): a read of any size; one that meets no cause for refusal returns its data. -/
def execRegisterReadRefused (m : Master) (a len : Nat) (s : State) : Res := fin (s.readReg m a len)
/-- INV_FIELD_READ (R469). -/
def execInvFieldRead (m : Master) (a : Nat) (s : State) : Res := fin (s.readReg m a 4)

/-- DBG_ACCESS (R459, R555): the instruction reaches one word through the debug port. -/
def dbgAccess (wr : Bool) (a d : Nat) (ok : Bool) (s : State) : State :=
  let s := s.tapIr 0x23 1
  if s.lifeSt.ir ≠ 0x23 then s.ret 0
  else if wr then s.writeReg .debug a d 4 true ok
  else s.readReg .debug a 4
def execDbgAccess (wr : Bool) (a d : Nat) (ok : Bool) (s : State) : Res := fin (dbgAccess wr a d ok s)

/-! The scrub (R564). -/

/-- Keys of TMR fields whose copies disagree, in the register domains that are ON. -/
def State.scrubKeys (s : State) : List Nat :=
  s.badCopies.filter fun k => s.domState (s.regDomain (k / 64)) == 0 && !s.domWaking (s.regDomain (k / 64))

/-- Every disagreeing copy of the fields that the scrub reaches takes the voted value. -/
def scrub (s : State) : State := s.revote s.scrubKeys
def execTmrScrub (dt : Nat) (s : State) : Res := fin (scrub (s.elapse dt))

end Sys2Proof.Machine
end

