-- ==== Sys2Proof/Machine/Dispatch.lean ====
section
/-! DEFINITION. One arm per command: each arm is one direct call of the command's meaning, or the command is rejected
by name. -/

namespace Sys2Proof.Machine

def exec (i : Instr) (s : State) : Host.Outcome State Fault Refusal :=
  match i with
  | .beatEdge e late degraded => Sys2Proof.Machine.execBeatEdge e late degraded s
  | .cutSettleEnd => Sys2Proof.Machine.execCutSettleEnd s
  | .runDeadline late => Sys2Proof.Machine.execRunDeadline late s
  | .deltaClose => Sys2Proof.Machine.execDeltaClose s
  | .ackCutoff readback => Sys2Proof.Machine.execAckCutoff readback s
  | .provisionalToggle readback => Sys2Proof.Machine.execProvisionalToggle readback s
  | .egressGateSample => Sys2Proof.Machine.execEgressGateSample s
  | .syncTmoExpiry dt => Sys2Proof.Machine.execSyncTmoExpiry dt s
  | .holdTimeExpiry dt => Sys2Proof.Machine.execHoldTimeExpiry dt s
  | .startWaitExpiry dt => Sys2Proof.Machine.execStartWaitExpiry dt s
  | .beatEnable m d => Sys2Proof.Machine.execBeatEnable m d s
  | .reseatRequest m d => Sys2Proof.Machine.execReseatRequest m d s
  | .tqRequest m d => Sys2Proof.Machine.execTqRequest m d s
  | .freqAdjWrite m v dt => Sys2Proof.Machine.execFreqAdjWrite m v dt s
  | .ppsInEdge dt => Sys2Proof.Machine.execPpsInEdge dt s
  | .ppsOutPulse dt => Sys2Proof.Machine.execPpsOutPulse dt s
  | .beatTimeRead m dt => Sys2Proof.Machine.execBeatTimeRead m dt s
  | .frameRx n bs fcsOk dt uncorr => Sys2Proof.Machine.execFrameRx n bs fcsOk dt s uncorr
  | .verifyComplete j dt => Sys2Proof.Machine.execVerifyComplete j dt s
  | .samplePlace j => Sys2Proof.Machine.execSamplePlace j s
  | .loftRecordWrite => Sys2Proof.Machine.execLoftRecordWrite s
  | .portEnable m n d => Sys2Proof.Machine.execPortEnable m n d s
  | .portUnhold m n d => Sys2Proof.Machine.execPortUnhold m n d s
  | .pcsLock n dt => Sys2Proof.Machine.execPcsLock n dt s
  | .linkTrainingDone n => Sys2Proof.Machine.execLinkTrainingDone n s
  | .upHoldExpiry n dt => Sys2Proof.Machine.execUpHoldExpiry n dt s
  | .linkFault n kind dt lanes => Sys2Proof.Machine.execLinkFault n kind dt s lanes
  | .downDebExpiry n dt => Sys2Proof.Machine.execDownDebExpiry n dt s
  | .flapHoldExpiry n dt => Sys2Proof.Machine.execFlapHoldExpiry n dt s
  | .remoteFault n present => Sys2Proof.Machine.execRemoteFault n present s
  | .lrefFault g absent => Sys2Proof.Machine.execLrefFault g absent s
  | .pllLossOfLock l dt => Sys2Proof.Machine.execPllLossOfLock l dt s
  | .portGlbEnable m d => Sys2Proof.Machine.execPortGlbEnable m d s
  | .laneEnable m l d => Sys2Proof.Machine.execLaneEnable m l d s
  | .supervisionTx m dt => Sys2Proof.Machine.execSupervisionTx m dt s
  | .nodeForgetExpiry m mac dt => Sys2Proof.Machine.execNodeForgetExpiry m mac dt s
  | .entryForgetExpiry m mac dt => Sys2Proof.Machine.execEntryForgetExpiry m mac dt s
  | .frameTxDone n dt ym => Sys2Proof.Machine.execFrameTxDone n dt s ym
  | .gateEnable m d => Sys2Proof.Machine.execGateEnable m d s
  | .gateRead m => Sys2Proof.Machine.execGateRead m s
  | .gateWrite m => Sys2Proof.Machine.execGateWrite m s
  | .gateInvalidate m => Sys2Proof.Machine.execGateInvalidate m s
  | .resetReplay m => Sys2Proof.Machine.execResetReplay m s
  | .setQuar m => Sys2Proof.Machine.execSetQuar m s
  | .clearQuar m => Sys2Proof.Machine.execClearQuar m s
  | .readStats m => Sys2Proof.Machine.execReadStats m s
  | .readReplay m => Sys2Proof.Machine.execReadReplay m s
  | .setNext m => Sys2Proof.Machine.execSetNext m s
  | .readMeta m => Sys2Proof.Machine.execReadMeta m s
  | .retire m => Sys2Proof.Machine.execRetire m s
  | .instanceIdleExpiry n dt => Sys2Proof.Machine.execInstanceIdleExpiry n dt s
  | .templateKeyPropagate => Sys2Proof.Machine.execTemplateKeyPropagate s
  | .macJobDone j data => Sys2Proof.Machine.execMacJobDone j data s
  | .macJobTimeout j dt => Sys2Proof.Machine.execMacJobTimeout j dt s
  | .myardEnable m d => Sys2Proof.Machine.execMyardEnable m d s
  | .myardRead m => Sys2Proof.Machine.execMyardRead m s
  | .myardWrite m => Sys2Proof.Machine.execMyardWrite m s
  | .myardInvalidate m => Sys2Proof.Machine.execMyardInvalidate m s
  | .myardReadStats m => Sys2Proof.Machine.execMyardReadStats m s
  | .loftEnable m d failA failB => Sys2Proof.Machine.execLoftEnable m d failA failB s
  | .loftInitDone ce ue => Sys2Proof.Machine.execLoftInitDone s ce ue
  | .triggerLoft m => Sys2Proof.Machine.execTrigger m s
  | .releaseLoft m slot => Sys2Proof.Machine.execRelease m slot s
  | .readSlot m slot => Sys2Proof.Machine.execReadSlot m slot s
  | .loftExportGo m d => Sys2Proof.Machine.execLoftExportGo m d s
  | .loftExportComplete fault ce ue => Sys2Proof.Machine.execLoftExportComplete fault s ce ue
  | .loftTestStep hist idx pass repaired => Sys2Proof.Machine.execLoftTestStep hist idx pass repaired s
  | .rv32Compute p l dt err => Sys2Proof.Machine.execRv32Compute p l dt s err
  | .ebreak p l dt => Sys2Proof.Machine.execEbreak p l dt s
  | .loadWord p l dt => Sys2Proof.Machine.execLoad p l dt s
  | .loadDataReturn p l err dt waits => Sys2Proof.Machine.execLoadDataReturn p l err dt s waits
  | .storeWord p l dt => Sys2Proof.Machine.execStore p l dt s
  | .storeDrain p l dt waits => Sys2Proof.Machine.execStoreDrain p l dt s waits
  | .fence p l dt => Sys2Proof.Machine.execFence p l dt s
  | .fenceI p l dt => Sys2Proof.Machine.execFenceI p l dt s
  | .csrAccess p l dt => Sys2Proof.Machine.execCsrAccess p l dt s
  | .qadd p l dt => Sys2Proof.Machine.execQadd p l dt s
  | .qsub p l dt => Sys2Proof.Machine.execQsub p l dt s
  | .qmul p l dt => Sys2Proof.Machine.execQmul p l dt s
  | .qadd16 p l dt => Sys2Proof.Machine.execQadd16 p l dt s
  | .qsub16 p l dt => Sys2Proof.Machine.execQsub16 p l dt s
  | .qmul16 p l dt => Sys2Proof.Machine.execQmul16 p l dt s
  | .qabs p l dt => Sys2Proof.Machine.execQabs p l dt s
  | .qneg p l dt => Sys2Proof.Machine.execQneg p l dt s
  | .cmac p l dt => Sys2Proof.Machine.execCmac p l dt s
  | .cmacj p l dt => Sys2Proof.Machine.execCmacj p l dt s
  | .cmsu p l dt => Sys2Proof.Machine.execCmsu p l dt s
  | .cmsuj p l dt => Sys2Proof.Machine.execCmsuj p l dt s
  | .aclr p l dt => Sys2Proof.Machine.execAclr p l dt s
  | .ardre p l dt => Sys2Proof.Machine.execArdre p l dt s
  | .ardim p l dt => Sys2Proof.Machine.execArdim p l dt s
  | .apk16 p l dt => Sys2Proof.Machine.execApk16 p l dt s
  | .lsh p l dt => Sys2Proof.Machine.execLsh p l dt s
  | .lsw p l dt => Sys2Proof.Machine.execLsw p l dt s
  | .lsp p l dt => Sys2Proof.Machine.execLsp p l dt s
  | .doneSvc p l ue dt => Sys2Proof.Machine.execDone p l ue dt s
  | .outputSvc p l ue dt => Sys2Proof.Machine.execOutput p l ue dt s
  | .timeSvc p l ue dt => Sys2Proof.Machine.execTime p l ue dt s
  | .failSvc p l ue dt => Sys2Proof.Machine.execFail p l ue dt s
  | .badService p l ue dt => Sys2Proof.Machine.execBadService p l ue dt s
  | .semaphoreAcquire p l dt => Sys2Proof.Machine.execSemaphoreAcquire p l dt s
  | .semaphoreRelease p l dt => Sys2Proof.Machine.execSemaphoreRelease p l dt s
  | .handOver dt => Sys2Proof.Machine.execHandOver dt s
  | .shedEnable m p d => Sys2Proof.Machine.execShedEnable m p d s
  | .shedInitDone p romOk => Sys2Proof.Machine.execShedInitDone p romOk s
  | .cntClr m p => Sys2Proof.Machine.execCntClr m p s
  | .semForce m p d => Sys2Proof.Machine.execSemForce m p d s
  | .bankPwrWrite m p d => Sys2Proof.Machine.execBankPwrWrite m p d s
  | .stallPwrWrite m p d => Sys2Proof.Machine.execStallPwrWrite m p d s
  | .sramWakeDone p j dt => Sys2Proof.Machine.execSramWakeDone p j dt s
  | .groomEnable m d => Sys2Proof.Machine.execGroomEnable m d s
  | .groomIaccRead m => Sys2Proof.Machine.execGroomIaccRead m s
  | .groomIaccWrite m => Sys2Proof.Machine.execGroomIaccWrite m s
  | .groomIaccInvalidate m => Sys2Proof.Machine.execGroomIaccInvalidate m s
  | .groomFaccRead m => Sys2Proof.Machine.execGroomFaccRead m s
  | .groomFaccWrite m => Sys2Proof.Machine.execGroomFaccWrite m s
  | .movePage m dest => Sys2Proof.Machine.execMove m dest s
  | .sstatLatch m n => Sys2Proof.Machine.execSstatLatch m n s
  | .blogLatch m n => Sys2Proof.Machine.execBlogLatch m n s
  | .frameBuildDone dt => Sys2Proof.Machine.execFrameBuildDone dt s
  | .gooseRepetition p dt => Sys2Proof.Machine.execGooseRepetition p dt s
  | .sealEnable m d => Sys2Proof.Machine.execSealEnable m d s
  | .sealRead m => Sys2Proof.Machine.execSealRead m s
  | .sealWrite m => Sys2Proof.Machine.execSealWrite m s
  | .sealInvalidate m => Sys2Proof.Machine.execSealInvalidate m s
  | .taccDataWrite m d => Sys2Proof.Machine.execTaccDataWrite m d s
  | .pairEnable m d => Sys2Proof.Machine.execPairEnable m d s
  | .pairHandover m => Sys2Proof.Machine.execPairHandover m s
  | .pairHandoverCold m => Sys2Proof.Machine.execPairHandoverCold m s
  | .pairResync m => Sys2Proof.Machine.execPairResync m s
  | .pairFailing m => Sys2Proof.Machine.execPairFailing m s
  | .helloTx dt => Sys2Proof.Machine.execHelloTx dt s
  | .heartbeatTx dt => Sys2Proof.Machine.execHeartbeatTx dt s
  | .heartbeatMiss dt => Sys2Proof.Machine.execHeartbeatMiss dt s
  | .pairLinkLock up dt => Sys2Proof.Machine.execPairLinkLock up dt s
  | .helloRx bs dt => Sys2Proof.Machine.execHelloRx bs dt s
  | .heartbeatRx bs dt => Sys2Proof.Machine.execHeartbeatRx bs dt s
  | .deltaRx bs dt => Sys2Proof.Machine.execDeltaRx bs dt s
  | .ackRx bs dt => Sys2Proof.Machine.execAckRx bs dt s
  | .outcomeRx bs dt => Sys2Proof.Machine.execOutcomeRx bs dt s
  | .digestRx bs dt => Sys2Proof.Machine.execDigestRx bs dt s
  | .noticeRx bs dt => Sys2Proof.Machine.execNoticeRx bs dt s
  | .resyncRx bs dt => Sys2Proof.Machine.execResyncRx bs dt s
  | .failingRx bs dt => Sys2Proof.Machine.execFailingRx bs dt s
  | .slicesRx bs dt => Sys2Proof.Machine.execSlicesRx bs dt s
  | .resyncFrameSend dt => Sys2Proof.Machine.execResyncFrameSend dt s
  | .actInTransition dt => Sys2Proof.Machine.execActInTransition dt s
  | .listenTmo dt => Sys2Proof.Machine.execListenTmo dt s
  | .probeDone ok dt => Sys2Proof.Machine.execProbeDone ok dt s
  | .driverTest readback => Sys2Proof.Machine.execDriverTest readback s
  | .driverTestEnd readback => Sys2Proof.Machine.execDriverTestEnd readback s
  | .tudelEnable m d => Sys2Proof.Machine.execTudelEnable m d s
  | .tudelFaccRead m => Sys2Proof.Machine.execTudelFaccRead m s
  | .tudelFaccWrite m => Sys2Proof.Machine.execTudelFaccWrite m s
  | .tudelFaccInvalidate m => Sys2Proof.Machine.execTudelFaccInvalidate m s
  | .tudelFrzGo m d => Sys2Proof.Machine.execTudelFrzGo m d s
  | .tudelLock j dt => Sys2Proof.Machine.execTudelLock j dt s
  | .tudelTrainTmo j dt => Sys2Proof.Machine.execTudelTrainTmo j dt s
  | .tudelAloneRetry j dt => Sys2Proof.Machine.execTudelAloneRetry j dt s
  | .tudelHelloTx j dt => Sys2Proof.Machine.execTudelHelloTx j dt s
  | .tudelHelloRx j bs crcOk dt => Sys2Proof.Machine.execTudelHelloRx j bs crcOk dt s
  | .tudelLinkLoss j lock dt => Sys2Proof.Machine.execTudelLinkLoss j lock dt s
  | .sqTailDoorbell m n d => Sys2Proof.Machine.execSqTailDoorbell m n d s
  | .commandFetch n e dt => Sys2Proof.Machine.execCommandFetch n e dt s
  | .submit n dt => Sys2Proof.Machine.execSubmit n dt s
  | .macJob n dt => Sys2Proof.Machine.execMacJob n dt s
  | .pkJob n dt => Sys2Proof.Machine.execPkJob n dt s
  | .flowInstall n dt => Sys2Proof.Machine.execFlowInstall n dt s
  | .flowRemove n dt => Sys2Proof.Machine.execFlowRemove n dt s
  | .flowSetNext n dt => Sys2Proof.Machine.execFlowSetNext n dt s
  | .flowStats n dt => Sys2Proof.Machine.execFlowStats n dt s
  | .replayReset n dt => Sys2Proof.Machine.execReplayReset n dt s
  | .itemWrite n dt => Sys2Proof.Machine.execItemWrite n dt s
  | .itemInvalidate n dt => Sys2Proof.Machine.execItemInvalidate n dt s
  | .keyLoad n dt => Sys2Proof.Machine.execKeyLoad n dt s
  | .keyRetire n dt => Sys2Proof.Machine.execKeyRetire n dt s
  | .keyMeta n dt => Sys2Proof.Machine.execKeyMeta n dt s
  | .histRead n dt => Sys2Proof.Machine.execHistRead n dt s
  | .histWrite n dt => Sys2Proof.Machine.execHistWrite n dt s
  | .programLoad n dt => Sys2Proof.Machine.execProgramLoad n dt s
  | .loftFreeze n dt => Sys2Proof.Machine.execLoftFreeze n dt s
  | .loftExport n dt => Sys2Proof.Machine.execLoftExport n dt s
  | .loftRelease n dt => Sys2Proof.Machine.execLoftRelease n dt s
  | .loftSlot n dt => Sys2Proof.Machine.execLoftSlot n dt s
  | .dmaCommandDone n data dt ce ue => Sys2Proof.Machine.execDmaCommandDone n data dt s ce ue
  | .cqHeadDoorbell m n d => Sys2Proof.Machine.execCqHeadDoorbell m n d s
  | .evrHeadDoorbell m n d => Sys2Proof.Machine.execEvrHeadDoorbell m n d s
  | .drHeadDoorbell m n d => Sys2Proof.Machine.execDrHeadDoorbell m n d s
  | .stagedDelivery n fault dt => Sys2Proof.Machine.execStagedDelivery n fault dt s
  | .sliceEnable m n d => Sys2Proof.Machine.execSliceEnable m n d s
  | .freeze m n => Sys2Proof.Machine.execFreeze m n s
  | .thaw m n => Sys2Proof.Machine.execThaw m n s
  | .saveSlice m n => Sys2Proof.Machine.execSave m n s
  | .saveDone n fault dt ce ue => Sys2Proof.Machine.execSaveDone n fault dt s ce ue
  | .restoreSlice m n => Sys2Proof.Machine.execRestore m n s
  | .restoreDone n b ok dt => Sys2Proof.Machine.execRestoreDone n b ok dt s
  | .sliceClearDone n dt => Sys2Proof.Machine.execSliceClearDone n dt s
  | .ltrSend dt => Sys2Proof.Machine.execLtrSend dt s
  | .perstAssert dt => Sys2Proof.Machine.execPerstAssert dt s
  | .perstDeassert dt => Sys2Proof.Machine.execPerstDeassert dt s
  | .functionLevelReset dt => Sys2Proof.Machine.execFunctionLevelReset dt s
  | .hotReset dt => Sys2Proof.Machine.execHotReset dt s
  | .d3hotEntry dt => Sys2Proof.Machine.execD3hotEntry dt s
  | .d0Entry dt => Sys2Proof.Machine.execD0Entry dt s
  | .pcieLinkUp dt => Sys2Proof.Machine.execPcieLinkUp dt s
  | .guardEnable m d => Sys2Proof.Machine.execGuardEnable m d s
  | .guardRaccRead m => Sys2Proof.Machine.execGuardRaccRead m s
  | .guardRaccWrite m => Sys2Proof.Machine.execGuardRaccWrite m s
  | .guardRaccInvalidate m => Sys2Proof.Machine.execGuardRaccInvalidate m s
  | .fillTags m colour => Sys2Proof.Machine.execFill m colour s
  | .tagRead m colour => Sys2Proof.Machine.execTagRead m colour s
  | .repPop m d => Sys2Proof.Machine.execRepPop m d s
  | .polClr m n d => Sys2Proof.Machine.execPolClr m n d s
  | .vaultEnable m d => Sys2Proof.Machine.execVaultEnable m d s
  | .vaultLoad m => Sys2Proof.Machine.execVaultLoad m s
  | .loadPlain m => Sys2Proof.Machine.execLoadPlain m s
  | .generate m => Sys2Proof.Machine.execGenerate m s
  | .wrapOut m => Sys2Proof.Machine.execWrapOut m s
  | .attest m => Sys2Proof.Machine.execAttest m s
  | .slotGen m => Sys2Proof.Machine.execSlotGen m s
  | .slotImport m => Sys2Proof.Machine.execSlotImport m s
  | .slotMeta m => Sys2Proof.Machine.execSlotMeta m s
  | .rngRead m => Sys2Proof.Machine.execRngRead m s
  | .reseed m => Sys2Proof.Machine.execReseed m s
  | .certRead m => Sys2Proof.Machine.execCertRead m s
  | .vaultCmdDone src ok dt => Sys2Proof.Machine.execVaultCmdDone src ok dt s
  | .holdBoundExpiry e dt => Sys2Proof.Machine.execHoldBoundExpiry e dt s
  | .vaultStartDone kat bad dt => Sys2Proof.Machine.execVaultStartDone kat bad dt s
  | .noiseHealthTest j bits dt => Sys2Proof.Machine.execNoiseHealthTest j bits dt s
  | .rngRetest j dt => Sys2Proof.Machine.execRngRetest j dt s
  | .drbgReseed j dt => Sys2Proof.Machine.execDrbgReseed j dt s
  | .rngRawRead m bits => Sys2Proof.Machine.execRngRawRead m bits s
  | .pkSign e blob msg ok good dt => Sys2Proof.Machine.execPkSign e blob msg ok good dt s
  | .pkVerify e peer msg sig ok dt => Sys2Proof.Machine.execPkVerify e peer msg sig ok dt s
  | .pkKeygen e ok good dt => Sys2Proof.Machine.execPkKeygen e ok good dt s
  | .pkDerive e blob peer ok good dt => Sys2Proof.Machine.execPkDerive e blob peer ok good dt s
  | .pkAttest e blob nonce ok good dt => Sys2Proof.Machine.execPkAttest e blob nonce ok good dt s
  | .pkRandom e ok dt => Sys2Proof.Machine.execPkRandom e ok dt s
  | .pkJobTimeout j dt => Sys2Proof.Machine.execPkJobTimeout j dt s
  | .challenge m d => Sys2Proof.Machine.execChallenge m d s
  | .cancelChal m d => Sys2Proof.Machine.execCancel m d s
  | .challengeExpiry dt => Sys2Proof.Machine.execChallengeExpiry dt s
  | .imageAccept e dt => Sys2Proof.Machine.execImageAccept e dt s
  | .keyImport e src ok dt => Sys2Proof.Machine.execKeyImport e src ok dt s
  | .sliceBind e dt => Sys2Proof.Machine.execSliceBind e dt s
  | .sliceUnbind e dt => Sys2Proof.Machine.execSliceUnbind e dt s
  | .tripSet e dt => Sys2Proof.Machine.execTripSet e dt s
  | .lifeTransition e dt => Sys2Proof.Machine.execLifeTransition e dt s
  | .tamperRearm e dt => Sys2Proof.Machine.execTamperRearm e dt s
  | .ledgerClear e dt => Sys2Proof.Machine.execLedgerClear e dt s
  | .custIdxWrite m d => Sys2Proof.Machine.execCustIdxWrite m d s
  | .toBench m => Sys2Proof.Machine.execToBench m s
  | .setDigest m ok => Sys2Proof.Machine.execSetDigest m ok s
  | .dbgEnd m => Sys2Proof.Machine.execDbgEnd m s
  | .toScrap m => Sys2Proof.Machine.execToScrap m s
  | .otpTransitionDone failed dt => Sys2Proof.Machine.execOtpTransitionDone failed dt s
  | .scrapReset dt => Sys2Proof.Machine.execScrapReset dt s
  | .tamperOccurrence n param ended dt => Sys2Proof.Machine.execTamperOccurrence n param ended dt s
  | .refclkLoss dt => Sys2Proof.Machine.execRefclkLoss dt s
  | .refclkRecovered dt => Sys2Proof.Machine.execRefclkRecovered dt s
  | .invFieldRead m a => Sys2Proof.Machine.execInvFieldRead m a s
  | .tampEnable m d => Sys2Proof.Machine.execTampEnable m d s
  | .grantExpiry dt => Sys2Proof.Machine.execGrantExpiry dt s
  | .idcode => Sys2Proof.Machine.execIdcode s
  | .extest v => Sys2Proof.Machine.execExtest v s
  | .samplePreload pins v => Sys2Proof.Machine.execSamplePreload pins v s
  | .clamp => Sys2Proof.Machine.execClamp s
  | .highz => Sys2Proof.Machine.execHighz s
  | .extestPulse v => Sys2Proof.Machine.execExtestPulse v s
  | .extestTrain v => Sys2Proof.Machine.execExtestTrain v s
  | .dbgChal => Sys2Proof.Machine.execDbgChal s
  | .dbgResp b => Sys2Proof.Machine.execDbgResp b s
  | .dbgStatus => Sys2Proof.Machine.execDbgStatus s
  | .dbgAccess wr a d ok => Sys2Proof.Machine.execDbgAccess wr a d ok s
  | .bypass => Sys2Proof.Machine.execBypass s
  | .tapReset => Sys2Proof.Machine.execTapReset s
  | .evtClaim m => Sys2Proof.Machine.execEvtClaim m s
  | .evtEoi m src => Sys2Proof.Machine.execEvtEoi m src s
  | .fwEvent m code => Sys2Proof.Machine.execFwEvent m code s
  | .softRaise m mask => Sys2Proof.Machine.execSoftRaise m mask s
  | .evtEnable m d => Sys2Proof.Machine.execEvtEnable m d s
  | .ldgEnable m d => Sys2Proof.Machine.execLdgEnable m d s
  | .ledgerRecoveryDone agree => Sys2Proof.Machine.execLedgerRecoveryDone agree s
  | .ledgerProgramDone => Sys2Proof.Machine.execLedgerProgramDone s
  | .foldExpiry dt => Sys2Proof.Machine.execFoldExpiry dt s
  | .eventRingWrite n => Sys2Proof.Machine.execEventRingWrite n s
  | .ldgRdLatch m k => Sys2Proof.Machine.execLdgRdLatch m k s
  | .ldgExportGo m d => Sys2Proof.Machine.execLdgExportGo m d s
  | .ldgExportDone fault => Sys2Proof.Machine.execLdgExportDone fault s
  | .ledgerEraseDone => Sys2Proof.Machine.execLedgerEraseDone s
  | .pwrEnable m d => Sys2Proof.Machine.execPwrEnable m d s
  | .toleranceChange d l1 src dt => Sys2Proof.Machine.execToleranceChange d l1 src dt s
  | .dwellExpiry d dt => Sys2Proof.Machine.execDwellExpiry d dt s
  | .domainEntryDone d dt => Sys2Proof.Machine.execDomainEntryDone d dt s
  | .domainWakeDone d dt => Sys2Proof.Machine.execDomainWakeDone d dt s
  | .ymWfi => Sys2Proof.Machine.execYmWfi s
  | .bankIdleExpiry p j dt => Sys2Proof.Machine.execBankIdleExpiry p j dt s
  | .tempSample tj sensor dt => Sys2Proof.Machine.execTempSample tj sensor dt s
  | .meterLatchMs e dt => Sys2Proof.Machine.execMeterLatchMs e dt s
  | .smtrLatch m n => Sys2Proof.Machine.execSmtrLatch m n s
  | .porAssert off lost dt => Sys2Proof.Machine.execPorAssert off lost dt s
  | .porRelease mode strapB flashOk dt => Sys2Proof.Machine.execPorRelease mode strapB flashOk dt s
  | .wrstAssert dt => Sys2Proof.Machine.execWrstAssert dt s
  | .wrstRelease mode strapB flashOk dt => Sys2Proof.Machine.execWrstRelease mode strapB flashOk dt s
  | .bootOperational readOk failA failB romBad dt => Sys2Proof.Machine.execBootOperational readOk failA failB romBad dt s
  | .eraseImg m d => Sys2Proof.Machine.execErase m d s
  | .imgWrite m d => Sys2Proof.Machine.execImgWrite m d s
  | .imgDigest m d => Sys2Proof.Machine.execImgDigest m d s
  | .confirm m d => Sys2Proof.Machine.execConfirm m d s
  | .preferImg m d => Sys2Proof.Machine.execPrefer m d s
  | .restartImg m d => Sys2Proof.Machine.execRestart m d s
  | .imgCmdDone data ok dt => Sys2Proof.Machine.execImgCmdDone data ok dt s
  | .confirmAutoExpiry dt => Sys2Proof.Machine.execConfirmAutoExpiry dt s
  | .registerWrite m a d len whole ok => Sys2Proof.Machine.execRegisterWrite m a d len whole ok s
  | .lowWordRead m a dt => Sys2Proof.Machine.execLowWordRead m a dt s
  | .readClear m a => Sys2Proof.Machine.execReadClear m a s
  | .tmrScrub dt => Sys2Proof.Machine.execTmrScrub dt s
  | .mtestEnable m d => Sys2Proof.Machine.execMtestEnable m d s
  | .mtestStep u fault last dt => Sys2Proof.Machine.execMtestStep u fault last dt s
  | .ageTick dt => Sys2Proof.Machine.execAgeTick dt s
  | .ageLogExpiry dt => Sys2Proof.Machine.execAgeLogExpiry dt s
  | .pkCmdGo m d => Sys2Proof.Machine.execPkCmdGo m d s
  | .registerReadRefused m a len => Sys2Proof.Machine.execRegisterReadRefused m a len s
  | .peRefclkChange present dt => Sys2Proof.Machine.execPeRefclkChange present dt s

end Sys2Proof.Machine
end

