-- ==== Sys2Proof/Safety.lean ====
section
/-! DEFINITION. The terms in which claims speak: a command that completes, a write that reaches its register, and what the
end of every command (State.commit: events, interrupts, host queues) may change beside the command's own effect. -/

namespace Sys2Proof.Machine

/-- Command `i` completes in `s`: it answers a next state, of which `P` holds. -/
def Completes (i : Instr) (s : State) (P : State → Prop) : Prop := ∃ t, exec i s = .next t ∧ P t

/-- A write by `m` to the register at `a` reaches it (R555, R566). -/
def Reaches (s : State) (m : Master) (a : Nat) : Prop := ¬(m = .debug ∧ s.dbgLevel = 0) ∧ s.writeRefusal m a = none

/-- A read by `m` of the register at `a` has its effect (R555, R558, R566). -/
def ReadReaches (s : State) (m : Master) (a : Nat) : Prop := m ≠ .debug ∧ s.domAccessible (s.regDomain a) = true

/-- Offsets and low bits of the fields that delivery of events and host entries writes: EVT_CNT, EVT_PEND, LDG_BUF, LDG_SEQ, LDG_CNT_DROP,
EVT_STATUS.DROP, the state of PD20 and PWR_CNT_TRANS, and of a slice its STATE, CQ_LOST, device pointers and counters. -/
def deliversAt (o l : Nat) : Bool :=
  decide (0xE00400 ≤ o ∧ o < 0xE00600) || decide (0xE00080 ≤ o ∧ o < 0xE000C0) || o == 0xE00108 || o == 0xE0010C || o == 0xE00208
    || (o == 0xE00004 && l == 5) || (o == 0xF000CC && l == 18) || o == 0xF00200
    || (decide (0x4000000 ≤ o) && ((o % 0x10000 == 4 && (l == 3 || l == 8)) || o % 0x10000 == 0x110 || o % 0x10000 == 0x118
      || o % 0x10000 == 0x128 || o % 0x10000 == 0x1014 || o % 0x10000 == 0x1018 || o % 0x10000 == 0x101C))

/-- The same of a key of State.fields. -/
def delivers (k : Nat) : Bool := deliversAt (k / 64) (k % 64)

/-- `t` is `s` but for what delivery may change. -/
structure Delivered (s t : State) : Prop where
  rest : t = { s with fields := t.fields, tmr := t.tmr, inv := t.inv, evt := t.evt, host := t.host, pwr := t.pwr,
                      out := t.out, evq := t.evq }
  keep : ∀ f : Fld, delivers f.key = false → t.get f = s.get f
  stack : t.evt.stack = s.evt.stack
  flash : t.evt.recent = s.evt.recent ∧ t.evt.clearReq = s.evt.clearReq ∧ t.evt.clears = s.evt.clears
  fn : t.host.fn = s.host.fn ∧ t.host.msix = s.host.msix ∧ t.host.perstN = s.host.perstN ∧ t.host.peRefclk = s.host.peRefclk
  pwr : t.pwr = { s.pwr with wfi := t.pwr.wfi }
  pend : ∀ i, s.isPending i = true → t.isPending i = true
  tmr : ∀ k, Table.find k s.tmr = none → Table.find k t.tmr = none
  out : ∃ l, t.out = l ++ s.out

/-- The field is one of those listed. -/
def Writes (l : List Fld) (f : Fld) : Bool := l.any fun g => f.key == g.key

/-- Registers alone change, those listed and those of delivery: every other field keeps its value, and no other
part of the state changes but what delivery may. -/
structure OnlyFields (l : List Fld) (s t : State) : Prop where
  rest : t = { s with fields := t.fields, tmr := t.tmr, inv := t.inv, evt := t.evt, host := t.host, pwr := t.pwr,
                      out := t.out, evq := t.evq }
  keep : ∀ f : Fld, delivers f.key = false → Writes l f = false → t.get f = s.get f

/-- Stall `l` of shed `p` may issue when `dt` ns have passed, and its fetch finds the instruction `rv` of `len` bytes, leaving the
state `u` (R171, R173). -/
def Issues (s : State) (p : Fin 68) (l : Fin 16) (dt len : Nat) (rv : Rv) (u : State) : Prop :=
  let k := 16 * p.val + l.val
  (s.elapse dt).canIssue k = true ∧ (s.elapse dt).fetchReady k = true ∧ (s.elapse dt).fetch k = (u, .instr len rv)

/-- The core of stall `l` of shed `p`. -/
def State.coreOf (s : State) (p : Fin 68) (l : Fin 16) : Core := (s.stall (16 * p.val + l.val)).core

/-- An instruction of `len` bytes retires: register `rd` (not x0) takes `v`, SAT is set when `clip`, the pc advances, and the rest of
the context stays. -/
structure Retired (c c' : Core) (len rd : Nat) (v : Word) (clip : Bool) : Prop where
  reg : ∀ r, c'.rx r = if r = rd ∧ rd ≠ 0 then v else c.rx r
  pc : c'.pc = c.pc + BitVec.ofNat 32 len
  sat : bitOf c'.dflags 0 = (bitOf c.dflags 0 || clip)
  rest : c' = { c with x := c'.x, pc := c'.pc, dflags := c'.dflags, instret := c'.instret }

/-- The item of stall `l` of shed `p` has ended with `status` (0 DONE, 1 FAILED, 2 FAULT, 3 OVERRUN, 4 LOST) and `code` (R195);
the stall is IDLE, or RETIRED where it is not usable. -/
structure Ended (t : State) (p : Fin 68) (l : Fin 16) (status code : Nat) : Prop where
  item : (t.stall (16 * p.val + l.val)).item = none
  st : t.get (stl F.SHED_STALL_STATn_STATE (16 * p.val + l.val)) = if bitOf (t.get (sh F.SHED_STALL_OK p)) l then 1 else 5
  last : t.get (stl F.SHED_STALL_STATn_LAST_END (16 * p.val + l.val)) = status
  code : t.get (stl F.SHED_STALL_STATn_CODE (16 * p.val + l.val)) = code

/-- A completion entry for slice `n` has been written to its queue (R348). -/
def Posts (t : State) (n : Nat) (e : Cqe) : Prop := ∃ tail ph, Output.cqWrite n tail ph false e ∈ t.out

/-- Slice `n` takes a completion entry at once: its queue has room, and nothing is staged or lost (R361). -/
def State.CqReady (s : State) (n : Nat) : Prop := s.cqRoom n = true ∧ (s.slice n).cqStage = [] ∧ (s.slice n).lost = 0

/-- The oldest command fetched for slice `n` is `e` with the opcode `op`, no earlier one stands before it (R351), and commands in `rest`
follow. -/
structure State.Heads (s : State) (n op : Nat) (e : List Byte) (rest : List (List Byte)) : Prop where
  first : (s.slice n).fetched = e :: rest
  ok : sqOk e = true
  op : sqOp e = op
  free : s.cfgBusy n = false

/-- The command `e` of slice `n` has been answered with `status` and `payload`; QUIET keeps back OK (R347, R348). -/
def Answers (t : State) (n : Nat) (e : List Byte) (status : Nat) (payload : List Byte) : Prop :=
  (sqQuiet e = true ∧ status = 0) ∨ Posts t n ⟨1, sqId e, status, payload.length, 0, payload, []⟩

/-- A slice MAC job but for whether it is in service. -/
def MacJob.bare (j : MacJob) : MacJob := { j with started := false }

/-- A frame of type `typ` passes the tests of R283 `dt` ns later, and leaves `u`: `f` is its header and payload. -/
structure State.Receives (s : State) (dt typ : Nat) (bs : List Byte) (f : PFrame) (u : State) : Prop where
  up : s.role ≠ 0 ∧ s.bit F.PAIR_STATUS_LINK_UP = true
  len : beAt bs 2 2 + 20 = bs.length ∧ beAt bs 2 2 ≤ 32768
  crc : crc32c (bs.take (bs.length - 4)) = beAt bs (bs.length - 4) 4
  seq : s.pair.rxSeq = none ∨ ∃ p, s.pair.rxSeq = some p ∧ beAt bs 4 4 = (p + 1) % 2 ^ 32
  typ : beAt bs 0 1 = typ
  frame : f = ⟨beAt bs 1 1, beAt bs 8 8, (bs.take (bs.length - 4)).drop 16⟩
  after : u = (s.elapse dt).setPair fun x => { x with lastRx := s.clk + dt, lost := none, rxSeq := some (beAt bs 4 4) }

/-- A pair frame of type `typ` has been sent. -/
def Sends (t : State) (typ : Nat) : Prop := ∃ b, Output.pairTx typ b ∈ t.out

/-- Nothing but the beat generator is at work: the blocks that an edge drives are disabled and empty, and no event waits. -/
structure State.Idle (s : State) : Prop where
  off : s.bit F.GROOM_CTRL = false ∧ s.bit F.MYARD_CTRL = false ∧ s.role = 0
  groom : s.groom = State.reset.groom
  pool : s.pool = State.reset.pool
  yard : s.yard = State.reset.yard
  sealed : s.sealSt = State.reset.sealSt
  guard : s.guard = State.reset.guard
  slices : s.host.slices = [] ∧ ∀ n, n < 256 → s.get (sl F.SLICE_LTR_HOST_TOL n) = 65535 ∧ s.get (sl F.SLICE_LTR_WORK_TOL n) = 0
  trips : s.vault.trips = []
  events : s.evq = [] ∧ s.evt.overNew = false

/-- Nothing waits to be delivered: no event is queued, no queue has dropped, no slice is FREEZING. -/
def State.Calm (s : State) : Prop :=
  s.evq = [] ∧ s.evt.overNew = false ∧ ∀ n ∈ s.sliceList, s.get (sl F.SLICE_STATUS_STATE n) ≠ 2

/-- What every command leaves settled: events delivered (R474), the LTR value sent (R364), PD20 awake while the interrupt
line is asserted (R507), wakes of the host signalled (R366). -/
structure State.Settled (s : State) : Prop where
  delivered : s.evq = []
  ltr : s.host.ltrSent = s.ltrValue
  awake : ¬(s.pwr.wfi = true ∧ s.irqLine = true)
  pme : s.host.fn = .d3hot → s.wakeCond = true → s.host.pmeStatus = true
  wake : s.host.fn = .d3cold → s.wakeCond = true → s.host.wakeN = false

end Sys2Proof.Machine
end

