-- ==== Sys2Proof/Certificates/Slice0/Obligations.lean ====
section
/-! DEFINITION. The statements for the provers. `t` is the state that a command answers; `Reaches` says that a register
write reaches its register (R555, R566), `Completes` that a command has its effect, `OnlyFields` that nothing else changes. -/

open Sys2Proof Sys2Proof.Machine

/-- A step runs the command at the front of the queue. For every command i, every queue rest and every state s, a
step of s with i in front of rest is exec i on s with the queue rest. (19_registers.md R557) -/
def Obligations.StepRunsFront : Prop :=
  ∀ (i : Instr) (rest : List Instr) (s : State), step { s with pending := i :: rest } = exec i { s with pending := rest }

/-- No command of the table stops the block. For every command and every state, exec answers a next state: the model
has no fault and no refusal for any command. (95_what_each_step_holds.md) -/
def Obligations.EveryCommandAnswers : Prop :=
  ∀ (i : Instr) (s : State), ∃ t, exec i s = .next t

/-- Reset leaves nothing undelivered. State.reset is settled: no event waits for delivery, the LTR value sent is the
one the slices ask for, and no wake of PD20 or of the host is owed. (16_events_ledger.md R474, 11_slices.md
R364) -/
def Obligations.SettledAtReset : Prop :=
  State.reset.Settled

/-- Every step leaves the block settled. For every settled state s, whatever command stands in front: if a step
answers next t, then t is settled: no event raised by the command is undelivered (R474), the LTR value last sent
is the least that the slices with staged entries ask for (R364), PD20 is not gated while the interrupt line is
asserted (R477, R507), PME_Status is set in D3hot and WAKE_N is low in D3cold when a wake condition holds
(R366). (16_events_ledger.md R474, R477, 11_slices.md R364, R366, 17_power_energy.md R507) -/
def Obligations.StepKeepsSettled : Prop :=
  ∀ s t : State, s.Settled → step s = .next t → t.Settled

/-- Claiming, ending and raising interrupts. A claim by a master other than the debug port with a winner i pushes i
with its priority onto the stack and returns them; with no winner it returns VALID = 0 and pushes nothing. An
end of interrupt that names the source at the top pops it; any other sets STACK_ORDER and pops nothing. A
firmware event with a code from 0xF800 leaves source 187 pending, and bit i of EVT_SOFT source 480 + i. Claims
and ends change no register field but EVT_STATUS.STACK_ORDER and its counter. (16_events_ledger.md R476, R477,
R478, R479, R475) -/
def Obligations.InterruptStack : Prop :=
  (∀ (m : Master) (s : State) (i : Nat), m ≠ .debug → s.winner = some i →
    Completes (.evtClaim m) s fun t => t.evt.stack = (i, s.srcPrio i) :: s.evt.stack ∧ t.rdata = claimWord true (s.srcPrio i) i
      ∧ OnlyFields [] { s with rdata := t.rdata, ym := t.ym } t)
  ∧ (∀ (m : Master) (s : State), m ≠ .debug → s.winner = none →
    Completes (.evtClaim m) s fun t => t.evt.stack = s.evt.stack ∧ t.rdata = claimWord false 0 0)
  ∧ (∀ (m : Master) (s : State) (i p : Nat) (rest : List (Nat × Nat)), Reaches s m 0xE00014 → s.evt.stack = (i, p) :: rest → i < 512 →
    Completes (.evtEoi m i) s fun t => t.evt.stack = rest ∧ OnlyFields [] s t)
  ∧ (∀ (m : Master) (s : State) (src : Nat), Reaches s m 0xE00014 → s.evt.stack.head?.map (·.1) ≠ some (src % 512) →
    Completes (.evtEoi m src) s fun t => t.evt.stack = s.evt.stack ∧ t.get F.EVT_STATUS_STACK_ORDER = 1 ∧ t.isPending 187 = true)
  ∧ (∀ (m : Master) (s : State) (code : Nat), Reaches s m 0xE0001C → 0xF800 ≤ code → code < 2 ^ 16 →
    Completes (.fwEvent m code) s fun t => t.isPending 187 = true ∧ OnlyFields [] s t)
  ∧ (∀ (m : Master) (s : State) (mask i : Nat), Reaches s m 0xE00030 → i < 32 → bitOf mask i = true →
    Completes (.softRaise m mask) s fun t => t.isPending (480 + i) = true ∧ OnlyFields [] s t)

/-- EVT_CTRL starts the interrupt controller and the ledger engine. A write of EN = 1 with every HOSTVEC in range
sets EN and RUNNING; a write of LDG_EN = 1 from 0 with the flash fitted sets LDG_EN and starts the search for
the write position, and without flash reports NO_FLASH and source 187. No field but these changes.
(16_events_ledger.md R490, R492, R498, R499) -/
def Obligations.EventAndLedgerEnables : Prop :=
  (∀ (m : Master) (s : State) (d : Nat), Reaches s m 0xE00000 → bitOf d 0 = true → s.hostvecOk = true →
    Completes (.evtEnable m d) s fun t => t.get F.EVT_CTRL_EN = 1 ∧ t.get F.EVT_STATUS_RUNNING = 1)
  ∧ (∀ (m : Master) (s : State) (d : Nat), Reaches s m 0xE00000 → bitOf d 1 = true → s.bit F.EVT_CTRL_LDG_EN = false →
    Completes (.ldgEnable m d) s fun t => t.get F.EVT_CTRL_LDG_EN = 1 ∧
      (if s.flashOk then t.get F.EVT_STATUS_RECOVER_BUSY = 1 else t.get F.EVT_STATUS_NO_FLASH = 1 ∧ t.isPending 187 = true)
      ∧ OnlyFields [F.EVT_CTRL_EN, F.EVT_STATUS_RUNNING, F.EVT_CTRL_LDG_EN, F.EVT_STATUS_RECOVER_BUSY,
          F.EVT_STATUS_NO_FLASH] s t)

/-- The ledger engine programs, finds its place, reads, exports and erases. With the ledger running and a record r
oldest in the buffer, a programming step writes r's 64 bytes into the slot LDG_NEXT, turning bits from 1 to 0
only, and advances LDG_NEXT; flash outside the slot is unchanged. The end of recovery clears RECOVER_BUSY, and
an empty ledger gives LDG_NEXT = 0. A latch of slot k puts its 16 words into LDG_RD_DATA. An export starts when
GO is written with the flash fitted and none running, and its end clears BUSY, raises source 456 and, without a
DMA fault, counts LDG_EXP_SEQ. Erasing sector p > 0 in a clear leaves its bytes erased and goes on with p − 1.
(16_events_ledger.md R485, R488, R492, R493, R495, R499) -/
def Obligations.LedgerEngine : Prop :=
  (∀ (s : State) (r : LedgerRec) (rest : List LedgerRec), s.ledgerRuns = true → s.evt.buf = r :: rest →
    s.get F.LDG_NEXT + 2 < ledgerSlots → s.evt.dropped = 0 →
    Completes .ledgerProgramDone s fun t => t.flash = programBytes s.flash (slotAddr (s.get F.LDG_NEXT)) r.bytes
      ∧ t.get F.LDG_NEXT = s.get F.LDG_NEXT + 1
      ∧ ∀ a, (a < slotAddr (s.get F.LDG_NEXT) ∨ slotAddr (s.get F.LDG_NEXT) + 64 ≤ a) →
          Memory.byte 0xFF t.flash a = Memory.byte 0xFF s.flash a)
  ∧ (∀ (s : State) (agree : Bool), s.bit F.EVT_STATUS_RECOVER_BUSY = true → s.bit F.EVT_STATUS_CLEARING = false →
    s.searchErased 21 0 ledgerSlots = 0 →
    Completes (.ledgerRecoveryDone agree) s fun t => t.get F.EVT_STATUS_RECOVER_BUSY = 0 ∧ t.get F.LDG_NEXT = 0)
  ∧ (∀ (m : Master) (s : State) (k i : Nat), Reaches s m 0xE00110 → k < 2 ^ 21 → i < 16 →
    Completes (.ldgRdLatch m k) s fun t => t.get F.LDG_RD_IDX = k
      ∧ t.get (F.LDG_RD_DATAn.idx i) = leAt (s.readSlot k) (4 * i) 4 % 2 ^ 32)
  ∧ (∀ (m : Master) (s : State) (d : Nat), Reaches s m 0xE00160 → s.bit F.LDG_EXP_CMD_BUSY = false → bitOf d 4 = true →
    s.flashOk = true → Completes (.ldgExportGo m d) s fun t => t.get F.LDG_EXP_CMD_BUSY = 1 ∧ t.get F.LDG_EXP_CMD_ERR = 0)
  ∧ (∀ s : State, s.bit F.LDG_EXP_CMD_BUSY = true →
    Completes (.ldgExportDone false) s fun t => t.get F.LDG_EXP_CMD_BUSY = 0 ∧ t.isPending 456 = true
      ∧ t.get F.LDG_EXP_SEQ = (s.get F.LDG_EXP_SEQ + 1) % 2 ^ 32)
  ∧ (∀ s : State, s.bit F.LDG_EXP_CMD_BUSY = true →
    Completes (.ldgExportDone true) s fun t => t.get F.LDG_EXP_CMD_BUSY = 0 ∧ t.get F.LDG_EXP_CMD_ERR = 1)
  ∧ (∀ (s : State) (p : Nat), s.bit F.EVT_STATUS_CLEARING = true → s.flashOk = true → s.bit F.EVT_CTRL_LDG_EN = true →
    s.get F.LDG_CLR_POS = p → p ≠ 0 →
    Completes .ledgerEraseDone s fun t => t.get F.LDG_CLR_POS = (p - 1) % 2 ^ F.LDG_CLR_POS.width
      ∧ t.flash = Memory.clear s.flash (ledgerBase + p * 0x10000) 0x10000)

/-- Open records close, and staged event records leave. In every state in which the buffer has room, an open record
that has stood for FOLD_MS closes: a closing copy follows in the buffer when occurrences were folded into it,
and whatever record is open afterwards was opened now; one that has not stood so long, or none, leaves what the
buffer holds in place. In every state, an event ring with room takes the oldest record staged for it at the
ring's tail with its phase, and with nothing staged or no room the command completes with the staging in place.
In a state with nothing else to deliver, no record is then open, the buffer holds no more, and the tail is one
further. (16_events_ledger.md R483, R487, R489, 11_slices.md R361) -/
def Obligations.RecordsClose : Prop :=
  (∀ (s : State) (dt t0 : Nat) (r : LedgerRec), s.evt.openRec = some (r, t0) →
    s.get F.LDG_CFG * 1000000 + t0 ≤ s.clk + dt → s.evt.buf.length < ledgerBufMax →
    Completes (.foldExpiry dt) s fun t => t.clk = s.clk + dt
      ∧ (∃ l, t.evt.buf = s.evt.buf ++ (if r.rep > 0 then [{ r with closed := true }] else []) ++ l)
      ∧ (∀ o t1, t.evt.openRec = some (o, t1) → t1 = s.clk + dt)
      ∧ (s.Calm → t.evt.openRec = none
          ∧ t.evt.buf = s.evt.buf ++ (if r.rep > 0 then [{ r with closed := true }] else [])))
  ∧ (∀ (s : State) (dt : Nat), (∀ r t0, s.evt.openRec = some (r, t0) → s.clk + dt < s.get F.LDG_CFG * 1000000 + t0) →
    Completes (.foldExpiry dt) s fun t => t.clk = s.clk + dt ∧ (∃ l, t.evt.buf = s.evt.buf ++ l)
      ∧ (s.Calm → t.evt.openRec = s.evt.openRec ∧ t.evt.buf = s.evt.buf))
  ∧ (∀ (s : State) (n : Fin 256) (e : EventRec) (es : List EventRec), (s.slice n).evStage = e :: es → s.evRoom n = true →
    Completes (.eventRingWrite n) s fun t =>
      Output.evWrite n (s.get (sl F.SLICE_EVR_TAIL n)) (s.slice n).evPhase e ∈ t.out
      ∧ (s.Calm → es = [] → (t.slice n).evStage = []
          ∧ t.get (sl F.SLICE_EVR_TAIL n) = (s.get (sl F.SLICE_EVR_TAIL n) + 1) % qSize (s.get (sl F.SLICE_EVR_SIZE n)) % 2 ^ 32))
  ∧ (∀ (s : State) (n : Fin 256), (s.slice n).evStage = [] ∨ s.evRoom n = false →
    Completes (.eventRingWrite n) s fun t => (∃ l, t.out = l ++ s.out)
      ∧ (s.Calm → s.get (sl F.SLICE_STATUS_STATE n) ≠ 2 → (t.slice n).evStage = (s.slice n).evStage ∧ t.get (sl F.SLICE_EVR_TAIL n) = s.get (sl F.SLICE_EVR_TAIL n)))

/-- Writes that start, stop and steer the beat, and what the next edge makes of them. A write of BEAT_CTRL.EN = 1
from 0 with the configuration in range starts the generator in UNSET with device time and beat count at zero;
out of range it sets CFG_ERR, leaves EN at 0 and reports source 104; EN = 0 stops it with quality UNSET. RESEAT
takes the offset in BEAT_RESEAT_OFS. A non-zero REQ is held for the next edge. BEAT_FREQ_ADJ takes the value
clamped to 200,000 ppb and leaves the adjustment in force as it is; a value beyond the clamp is reported with
ADJ_CLAMP. At the next edge (State.tqEdge, which BEAT_EDGE runs) a waiting request takes the quality where the
table of R35 allows the move and sets TQ_REFUSED where it does not. A reseat comes before it: allowed, it leads
to RESEAT, moves device time by its offset, and a request that waited with it sets TQ_REFUSED; not allowed, it
sets TQ_REFUSED and returns RESEAT to 0, and with no other move due quality and device time stay. Neither is
left waiting. (01_beat.md R21, R35, R37, R40, R617) -/
def Obligations.BeatControlWrites : Prop :=
  (∀ (m : Master) (s : State) (d : Nat), Reaches s m 0x100000 → s.bit F.BEAT_CTRL_EN = false → bitOf d 0 = true → s.beatCfgOk = true →
    Completes (.beatEnable m d) s fun t => t.get F.BEAT_CTRL_EN = 1 ∧ t.get F.BEAT_STATUS_RUNNING = 1 ∧ t.get F.BEAT_TQ_TQ = 0
      ∧ t.get F.BEAT_NUM = 0 ∧ t.get F.BEAT_STATUS_CFG_ERR = 0 ∧ t.dev = 0 ∧ t.bt.next = 0)
  ∧ (∀ (m : Master) (s : State) (d : Nat), Reaches s m 0x100000 → s.bit F.BEAT_CTRL_EN = false → bitOf d 0 = true →
    bitOf d 2 = false → s.beatCfgOk = false →
    Completes (.beatEnable m d) s fun t => t.get F.BEAT_CTRL_EN = 0 ∧ t.get F.BEAT_STATUS_CFG_ERR = 1 ∧ t.isPending 104 = true
      ∧ OnlyFields [F.BEAT_STATUS_CFG_ERR, F.BEAT_CTRL_PPS_OUT_EN] s t)
  ∧ (∀ (m : Master) (s : State) (d : Nat), Reaches s m 0x100000 → bitOf d 0 = false →
    Completes (.beatEnable m d) s fun t => t.get F.BEAT_CTRL_EN = 0 ∧ t.get F.BEAT_STATUS_RUNNING = 0 ∧ t.get F.BEAT_TQ_TQ = 0
      ∧ t.bt.running = false ∧ t.bt.reqPend = none ∧ t.bt.reseatPend = none)
  ∧ (∀ (m : Master) (s : State) (d : Nat), Reaches s m 0x100000 → s.bit F.BEAT_CTRL_EN = true → s.bit F.BEAT_CTRL_RESEAT = false →
    bitOf d 0 = true → bitOf d 2 = true →
    Completes (.reseatRequest m d) s fun t => t.get F.BEAT_CTRL_RESEAT = 1
      ∧ t.bt.reseatPend = some (toSigned 64 (s.get F.BEAT_RESEAT_OFS))
      ∧ OnlyFields [F.BEAT_CTRL_RESEAT, F.BEAT_STATUS_WIGN, F.BEAT_WIGN_ADDR] { s with bt := t.bt } t)
  ∧ (∀ (m : Master) (s : State) (d : Nat), Reaches s m 0x10001C → bitsOf d 4 3 ≠ 0 →
    Completes (.tqRequest m d) s fun t => t.bt.reqPend = some (bitsOf d 4 3) ∧ t.get F.BEAT_TQ_RESEAT_TGT = bitsOf d 8 3
      ∧ OnlyFields [F.BEAT_TQ_RESEAT_TGT] { s with bt := t.bt } t)
  ∧ (∀ (m : Master) (s : State) (v dt : Nat), Reaches s m 0x100040 →
    Completes (.freqAdjWrite m v dt) s fun t =>
      t.get F.BEAT_FREQ_ADJ = ofSigned 32 (max (-51200000) (min 51200000 (toSigned 32 v))) ∧ t.bt.adjNow = s.bt.adjNow
      ∧ (toSigned 32 v < -51200000 ∨ 51200000 < toSigned 32 v → t.get F.BEAT_STATUS_ADJ_CLAMP = 1 ∧ t.isPending 104 = true)
      ∧ OnlyFields [F.BEAT_FREQ_ADJ, F.BEAT_STATUS_ADJ_CLAMP] { s with bt := t.bt, clk := t.clk, dev := t.dev } t)
  ∧ (∀ (s : State) (b q : Nat), s.bt.reqPend = some q → s.bt.reseatPend = none → s.tq ≠ 4 →
    let r := s.tqEdge b
    let allowed : Prop := s.tq = 1 ∧ q = 2 ∨ s.tq = 2 ∧ (q = 1 ∨ q = 3) ∨ s.tq = 3 ∧ q = 1
    r.1.bt.reqPend = none
      ∧ (allowed → r.1.tq = q ∧ r.2 = (b, false) ∧ r.1.dev = s.dev ∧ r.1.get F.BEAT_STATUS_TQ_CHG = 1
          ∧ r.1.get F.BEAT_STATUS_TQ_REFUSED = s.get F.BEAT_STATUS_TQ_REFUSED
          ∧ r.1.get F.BEAT_STATUS_SYNC_TMO = s.get F.BEAT_STATUS_SYNC_TMO)
      ∧ (¬allowed → r.1.get F.BEAT_STATUS_TQ_REFUSED = 1))
  ∧ (∀ (s : State) (b : Nat) (o : Int), s.bt.reseatPend = some o →
    let r := s.tqEdge b
    let tgt := s.get F.BEAT_TQ_RESEAT_TGT
    let allowed : Prop := s.tq = 0 ∧ tgt = 1 ∨ (s.tq = 1 ∨ s.tq = 2 ∨ s.tq = 3) ∧ (tgt = 1 ∨ tgt = 3)
    r.1.bt.reqPend = none ∧ r.1.bt.reseatPend = none
      ∧ (allowed → r.1.tq = 4 ∧ r.1.bt.reseatTgt = tgt ∧ r.1.dev = ((s.dev : Int) + o * 2048000000000).toNat ∧ r.2.2 = true
          ∧ r.1.get F.BEAT_STATUS_RESEAT_BUSY = 1
          ∧ r.1.get F.BEAT_STATUS_TQ_REFUSED = (if s.bt.reqPend.isSome then 1 else s.get F.BEAT_STATUS_TQ_REFUSED))
      ∧ (¬allowed → r.1.get F.BEAT_STATUS_TQ_REFUSED = 1 ∧ r.1.get F.BEAT_CTRL_RESEAT = 0
          ∧ (s.bt.reqPend = none → s.timerMove = .stay → r.1.tq = s.tq ∧ r.1.dev = s.dev)))

/-- Beat timers, PPS and the time registers. An expiry of SYNC_TMO in LOCKED, of HOLD_TIME in HOLDOVER, and of
START_WAIT in UNSET with FREE_START, each while the generator is enabled, makes its transition due at the next
edge and changes no register. PPS_IN stores the offset from the nearest second and sets PPS_SEEN. PPS_OUT rises
at a whole second of device time when enabled and the quality is not UNSET, stays high for 1 ms and falls;
otherwise it does not move. A read of BEAT_TIME_NS returns the nanoseconds and latches the seconds for its
master. (01_beat.md R35, R43, R44, 19_registers.md R562) -/
def Obligations.BeatTimersAndPps : Prop :=
  (∀ (s : State) (dt : Nat), s.tq = 1 → s.bit F.BEAT_CTRL_EN = true →
    s.bt.syncAt + s.get F.BEAT_HOLD_CFG_SYNC_TMO * 1000000000 ≤ s.clk + dt →
    Completes (.syncTmoExpiry dt) s fun t => t.bt.syncDue = true ∧ OnlyFields [] { s with bt := t.bt, clk := t.clk, dev := t.dev } t)
  ∧ (∀ (s : State) (dt : Nat), s.tq = 2 → s.bit F.BEAT_CTRL_EN = true →
    s.bt.holdAt + s.get F.BEAT_HOLD_CFG_HOLD_TIME * 1000000000 ≤ s.clk + dt →
    Completes (.holdTimeExpiry dt) s fun t => t.bt.holdDue = true ∧ OnlyFields [] { s with bt := t.bt, clk := t.clk, dev := t.dev } t)
  ∧ (∀ (s : State) (dt : Nat), s.tq = 0 → s.bit F.BEAT_CTRL_EN = true → s.bit F.BEAT_CFG_FREE_START = true →
    s.bt.startAt + s.get F.BEAT_HOLD_CFG_START_WAIT * 1000000000 ≤ s.clk + dt →
    Completes (.startWaitExpiry dt) s fun t => t.bt.startDue = true
      ∧ OnlyFields [] { s with bt := t.bt, clk := t.clk, dev := t.dev } t)
  ∧ (∀ (s : State) (dt : Nat),
    Completes (.ppsInEdge dt) s fun t => t.get F.BEAT_PPS = ppsOffset (s.elapse dt).nowNs ∧ t.get F.BEAT_STATUS_PPS_SEEN = 1
      ∧ OnlyFields [F.BEAT_PPS, F.BEAT_STATUS_PPS_SEEN] { s with clk := t.clk, dev := t.dev } t)
  ∧ (∀ (s : State) (dt : Nat), s.bit F.BEAT_CTRL_PPS_OUT_EN = true → s.tq ≠ 0 → (s.elapse dt).wholeSecond = true →
    (s.elapse dt).ppsOut = false →
    Completes (.ppsOutPulse dt) s fun t => Output.ppsPulse ∈ t.out ∧ t.ppsOut = true
      ∧ (∀ d, d < 1000000 → (t.elapse d).ppsOut = true) ∧ (∀ d, 1000000 ≤ d → (t.elapse d).ppsOut = false)
      ∧ OnlyFields [] { s with clk := t.clk, dev := t.dev, out := t.out, bt := t.bt } t)
  ∧ (∀ (s : State) (dt : Nat), s.bit F.BEAT_CTRL_PPS_OUT_EN = false ∨ s.tq = 0 ∨ (s.elapse dt).wholeSecond = false →
    Completes (.ppsOutPulse dt) s fun t => t.bt = s.bt ∧ OnlyFields [] { s with clk := t.clk, dev := t.dev } t)
  ∧ (∀ (m : Master) (s : State) (dt : Nat), ReadReaches s m 0x100030 →
    Completes (.beatTimeRead m dt) s fun t => t.rdata = (s.elapse dt).nowNs % 1000000000
      ∧ t.shadow m 0x100034 = (s.elapse dt).nowNs / 1000000000 % 2 ^ 48 % 2 ^ 32
      ∧ t.shadow m 0x100038 = (s.elapse dt).nowNs / 1000000000 % 2 ^ 48 / 2 ^ 32
      ∧ OnlyFields [] { s with clk := t.clk, dev := t.dev, rdata := t.rdata, shadows := t.shadows } t)

/-- Tolerances, dwell, entry and wake of the power domains. A valid write of PWR_CTRL.EN starts power control; a
FLOOR below its domain's lowest state is refused with CFG_ERR and source 184. A tolerance change sets the
domain's TARGET to the lowest state whose exit latency fits; a higher target wakes the domain, a lower one
starts its dwell unless the vault holds it, and an expired dwell starts the entry. An entry ends in the state
entered, and a wake ends with WAKING clear. PD13 loses the flow table and the key cache in OFF.
(17_power_energy.md R504, R505, R506, R508, R518, R501, R502) -/
def Obligations.PowerTargets : Prop :=
  (∀ (m : Master) (s : State) (d : Nat), Reaches s m 0xF00000 → bitOf d 0 = true → s.bit F.PWR_CTRL = false →
    (∀ i, i < 20 → s.get (domFloor (i + 1)) ≤ domLowest (i + 1)) → s.get F.PWR_POLICY_BANK_IDLE ≠ 0 →
    Completes (.pwrEnable m d) s fun t => t.get F.PWR_CTRL = 1 ∧ t.get F.PWR_STATUS_RUNNING = 1 ∧ t.get F.PWR_STATUS_CFG_ERR = 0
      ∧ OnlyFields [F.PWR_CTRL, F.PWR_STATUS_RUNNING, F.PWR_STATUS_CFG_ERR] s t)
  ∧ (∀ (m : Master) (s : State) (d i : Nat), Reaches s m 0xF00000 → bitOf d 0 = true → s.bit F.PWR_CTRL = false →
    i < 20 → domLowest (i + 1) < s.get (domFloor (i + 1)) →
    Completes (.pwrEnable m d) s fun t => t.get F.PWR_CTRL = 0 ∧ t.get F.PWR_STATUS_CFG_ERR = 1 ∧ t.isPending 184 = true
      ∧ OnlyFields [F.PWR_STATUS_CFG_ERR] s t)
  ∧ (∀ (s : State) (d : Fin 20) (l1 : Bool) (src dt : Nat),
    let u := (s.elapse dt).setPwr fun x => { x with linkL1 := l1 }
    Completes (.toleranceChange d l1 src dt) s fun t =>
      t.get (F.PWR_DOMd_STAT_TARGET.idx d) = u.target (d + 1)
      ∧ (u.target (d + 1) < s.domState (d + 1) → t.domWaking (d + 1) = true)
      ∧ (s.domState (d + 1) < u.target (d + 1) → s.vaultHeld (d + 1) = false → (s.dom (d + 1)).dwellAt = none →
          (s.dom (d + 1)).entering = none → (t.dom (d + 1)).dwellAt = some (s.clk + dt)))
  ∧ (∀ (s : State) (d : Fin 20) (dt t0 : Nat), (s.dom (d + 1)).dwellAt = some t0 → t0 + s.get F.PWR_POLICY_DWELL * 1000 ≤ s.clk + dt →
    s.domState (d + 1) < (s.elapse dt).target (d + 1) → s.vaultHeld (d + 1) = false →
    Completes (.dwellExpiry d dt) s fun t => (t.dom (d + 1)).entering = some ((s.elapse dt).target (d + 1))
      ∧ (t.dom (d + 1)).dwellAt = none ∧ OnlyFields [] { s with clk := t.clk, dev := t.dev, pwr := t.pwr } t)
  ∧ (∀ (s : State) (d : Fin 19) (st dt : Nat), (s.dom (d + 1)).entering = some st → st < 3 →
    Completes (.domainEntryDone d.castSucc dt) s fun t => (t.dom (d + 1)).entering = none
      ∧ t.get (F.PWR_DOMd_STAT_STATE.idx d) = st)
  ∧ (∀ (s : State) (dt : Nat), (s.dom 13).entering = some 3 →
    Completes (.domainEntryDone 12 dt) s fun t => (t.dom 13).entering = none ∧ t.gate.flows = [] ∧ t.gate.keys = [])
  ∧ (∀ (s : State) (d : Fin 20) (dt : Nat), s.domWaking (d + 1) = true → (d : Nat) ≠ 16 →
    Completes (.domainWakeDone d dt) s fun t => t.get (F.PWR_DOMd_STAT_WAKING.idx d) = 0)

/-- Temperature, meters and the gating of PD20. A temperature sample stores the highest reading and its sensor;
above WARN it sets THERM_WARN with source 184, below WARN − HYST it clears it. While the beat is disabled the
meters latch each millisecond, and a write of PWR_SMTR_IDX latches the six meters of the slice. With power
control running and no source winning, a WFI of both cores gates PD20 (shown where event 0xF101 of PD20 is held
back by its limit of one a second). (17_power_energy.md R507, R512, R514, R515, R516, R519) -/
def Obligations.PowerSensorsAndMeters : Prop :=
  (∀ (s : State) (tj : Int) (sensor : Fin 64) (dt : Nat),
    Completes (.tempSample tj sensor dt) s fun t => t.get F.PWR_TEMP_TJ = ofSigned 16 tj ∧ t.get F.PWR_TEMP_SENSOR = sensor
      ∧ (s.bit F.PWR_STATUS_THERM_WARN = false → 4 * (s.get F.PWR_THERM_CFG_WARN : Int) < tj →
          t.get F.PWR_STATUS_THERM_WARN = 1 ∧ t.isPending 184 = true)
      ∧ (s.bit F.PWR_STATUS_THERM_WARN = true →
          tj < 4 * ((s.get F.PWR_THERM_CFG_WARN : Int) - s.get F.PWR_THERM_CFG_HYST) → t.get F.PWR_STATUS_THERM_WARN = 0)
      ∧ OnlyFields [F.PWR_TEMP_TJ, F.PWR_TEMP_SENSOR, F.PWR_STATUS_THERM_WARN] { s with clk := t.clk, dev := t.dev, pwr := t.pwr } t)
  ∧ (∀ (s : State) (e : Meters) (dt : Nat), s.bit F.BEAT_CTRL_EN = false →
    Completes (.meterLatchMs e dt) s fun t => t.get F.PWR_BEAT_NJ = min (e.doms.sum + e.aon) (2 ^ 32 - 1)
      ∧ t.get F.PWR_AON_NJ = min e.aon (2 ^ 32 - 1) ∧ t.pwr.rxBytes = 0
      ∧ ∀ i, i < 20 → t.get (F.PWR_DOMd_NJ.idx i) = min (e.doms.getD i 0) (2 ^ 32 - 1))
  ∧ (∀ (m : Master) (s : State) (n i : Nat), Reaches s m 0xF00180 → n < 256 → i < 6 →
    Completes (.smtrLatch m n) s fun t => t.get F.PWR_SMTR_IDX = n
      ∧ t.get (F.PWR_SMTR_DATAn.idx i) = min ((Table.at [] n s.pwr.smtr).getD i 0) (2 ^ 32 - 1))
  ∧ (∀ (s : State) (e : RateEntry), s.Calm → s.winner = none → s.bit F.PWR_CTRL = true →
    rateFind 0xF101 20 s.evt.rate = some e → s.clk < e.last + 1000000000 →
    Completes .ymWfi s fun t => t.pwr.wfi = true ∧ t.domState 20 = 1)

/-- Link states of a port. A valid write of PORT_CTRL.EN puts the port in TRAINING and assigns its lanes; an invalid
layout is refused with the port's source; EN = 0 disables it. PCS lock in TRAINING leads to UP_PENDING, UP_HOLD
to UP with LINK_CHG and event, a fault in UP_PENDING back to TRAINING and in UP to the debounce (a loss of FEC
alignment where no FEC is in use does nothing), DOWN_DEB out of UP (HELD at the FLAP_N-th down), FLAP_HOLD and
UNHOLD from HELD to TRAINING. A remote fault changes REMOTE_FAULT only. (02_ports_prp.md R59, R60, R70) -/
def Obligations.PortLinkStates : Prop :=
  (∀ (m : Master) (s : State) (n : Fin 96) (d : Nat), Reaches s m (0x200000 + 0x1000 * n) → bitOf d 0 = true →
    s.bit (pt F.PORT_CTRL_EN n) = false → (s.putB (pt F.PORT_CTRL_TX_DISABLE n) (bitOf d 1)).layoutFault n = none →
    Completes (.portEnable m n d) s fun t => t.get (pt F.PORT_CTRL_EN n) = 1 ∧ t.lstate n = 1
      ∧ ∀ l ∈ s.portLanes n, t.get (ln F.LANE_STATUS_ASSIGNED l) = 1)
  ∧ (∀ (m : Master) (s : State) (n : Fin 96) (d r : Nat), Reaches s m (0x200000 + 0x1000 * n) → bitOf d 0 = true → bitOf d 2 = false →
    s.bit (pt F.PORT_CTRL_EN n) = false → (s.putB (pt F.PORT_CTRL_TX_DISABLE n) (bitOf d 1)).layoutFault n = some r →
    Completes (.portEnable m n d) s fun t => t.get (pt F.PORT_CTRL_EN n) = 0 ∧ t.isPending n = true
      ∧ OnlyFields [pt F.PORT_CTRL_TX_DISABLE n, pt F.PORT_CNT_TX_DOWN n] { s with prt := t.prt, egress := t.egress } t)
  ∧ (∀ (m : Master) (s : State) (n : Fin 96) (d : Nat), Reaches s m (0x200000 + 0x1000 * n) → bitOf d 0 = false →
    s.bit (pt F.PORT_CTRL_EN n) = true →
    Completes (.portEnable m n d) s fun t => t.get (pt F.PORT_CTRL_EN n) = 0 ∧ t.lstate n = 0 ∧ (t.port n).tx = none)
  ∧ (∀ (m : Master) (s : State) (n : Fin 96) (d : Nat), Reaches s m (0x200000 + 0x1000 * n) → bitOf d 0 = true → bitOf d 2 = true →
    s.bit (pt F.PORT_CTRL_EN n) = true → s.lstate n = 4 →
    Completes (.portUnhold m n d) s fun t => t.lstate n = 1
      ∧ OnlyFields [pt F.PORT_CTRL_TX_DISABLE n, pt F.PORT_STATUS_LSTATE n, pt F.PORT_CNT_TX_DOWN n] { s with prt := t.prt } t)
  ∧ (∀ (s : State) (n : Fin 96) (dt : Nat), s.lstate n = 1 → s.lrefGone (s.portGroup n) = false → s.trained n = true →
    Completes (.pcsLock n dt) s fun t => t.lstate n = 2 ∧ t.get (pt F.PORT_STATUS_PCS_LOCK n) = 1
      ∧ t.get (pt F.PORT_STATUS_FEC_ALIGN n) = 1 ∧ t.get (pt F.PORT_STATUS_LOCAL_FAULT n) = 0 ∧ (t.port n).upAt = s.clk + dt)
  ∧ (∀ (s : State) (n : Fin 96) (dt : Nat), s.lstate n = 2 →
    (s.port n).upAt + s.get (pt F.PORT_LINK_CFG_UP_HOLD n) * 1000000 ≤ s.clk + dt →
    Completes (.upHoldExpiry n dt) s fun t => t.lstate n = 3 ∧ t.get (pt F.PORT_STATUS_LINK_CHG n) = 1 ∧ t.isPending n = true
      ∧ OnlyFields [pt F.PORT_STATUS_LSTATE n, pt F.PORT_STATUS_LINK_CHG n] { s with clk := t.clk, dev := t.dev } t)
  ∧ (∀ (s : State) (n : Fin 96) (kind : Fin 4) (lanes dt : Nat), (kind = 1 → s.get (pt F.PORT_CFG_FEC n) ≠ 0) →
    Completes (.linkFault n kind dt lanes) s fun t => (s.lstate n = 2 → t.lstate n = 1)
      ∧ (s.lstate n = 3 → (s.port n).faultAt = none → t.lstate n = 3 ∧ (t.port n).faultAt = some (s.clk + dt)))
  ∧ (∀ (s : State) (n : Fin 96) (lanes dt : Nat), s.get (pt F.PORT_CFG_FEC n) = 0 →
    Completes (.linkFault n 1 dt lanes) s fun t => OnlyFields [] { s with clk := t.clk, dev := t.dev } t)
  ∧ (∀ (s : State) (n : Fin 96) (dt t0 : Nat), s.lstate n = 3 → (s.port n).faultAt = some t0 →
    t0 + s.get (pt F.PORT_LINK_CFG_DOWN_DEB n) * 1000 ≤ s.clk + dt →
    Completes (.downDebExpiry n dt) s fun t => (t.lstate n = 1 ∨ t.lstate n = 4)
      ∧ (s.get (pt F.PORT_FLAP_CFG_FLAP_N n) ≤ 1 → t.lstate n = 4)
      ∧ t.get (pt F.PORT_STATUS_LINK_CHG n) = 1 ∧ (t.port n).faultAt = none ∧ t.isPending n = true)
  ∧ (∀ (s : State) (n : Fin 96) (dt : Nat), s.lstate n = 4 →
    (s.port n).heldAt + s.get (pt F.PORT_FLAP_CFG_FLAP_HOLD n) * 1000000000 ≤ s.clk + dt →
    Completes (.flapHoldExpiry n dt) s fun t => t.lstate n = 1
      ∧ OnlyFields [pt F.PORT_STATUS_LSTATE n] { s with clk := t.clk, dev := t.dev, prt := t.prt } t)
  ∧ (∀ (s : State) (n : Fin 96) (p : Bool),
    Completes (.remoteFault n p) s fun t => t.get (pt F.PORT_STATUS_REMOTE_FAULT n) = b2n p
      ∧ OnlyFields [pt F.PORT_STATUS_REMOTE_FAULT n] s t)

/-- Lanes, training and reference clocks. LANE_CTRL.EN powers the lane, and its PLL locks while the group's
reference is present. Training sets TRAIN_DONE of the port's lanes that train. A reference found absent in a
watched group clears every PLL lock of the group and reports source 96 + g once; its return ends the absence,
and the PLLs of the powered lanes lock again. A PLL that loses lock is reported and clears PLL_LOCK.
(02_ports_prp.md R53, R67, R68, R71, 20_electrical_package.md R584, R619) -/
def Obligations.LanesAndReferences : Prop :=
  (∀ (m : Master) (s : State) (l : Fin 128) (d : Nat), Reaches s m (0x300000 + 0x400 * l) →
    Completes (.laneEnable m l d) s fun t => t.get (ln F.LANE_CTRL l) = b2n (bitOf d 0)
      ∧ t.get (ln F.LANE_STATUS_PLL_LOCK l) = b2n (bitOf d 0 && !s.lrefGone (laneGroup l))
      ∧ OnlyFields [ln F.LANE_CTRL l, ln F.LANE_STATUS_PLL_LOCK l, ln F.LANE_STATUS_TRAIN_DONE l, ln F.LANE_STATUS_CDR_LOCK l,
          ln F.LANE_STATUS_SIG_DET l] s t)
  ∧ (∀ (s : State) (n : Fin 96), s.lstate n = 1 →
    Completes (.linkTrainingDone n) s fun t =>
      (∀ l ∈ s.portLanes n, s.trains n l = true → s.bit (ln F.LANE_CTRL l) = true →
        t.get (ln F.LANE_STATUS_TRAIN_DONE l) = 1 ∧ t.get (ln F.LANE_STATUS_CDR_LOCK l) = 1)
      ∧ OnlyFields ((s.portLanes n).flatMap fun l => [ln F.LANE_STATUS_TRAIN_DONE l, ln F.LANE_STATUS_SIG_DET l,
          ln F.LANE_STATUS_CDR_LOCK l, ln F.LANE_STATUS_PLL_LOCK l]) s t)
  ∧ (∀ (s : State) (g : Fin 8), s.domState (g + 1) = 0 → s.lrefGone g = false →
    Completes (.lrefFault g true) s fun t => t.lrefGone g = true ∧ t.isPending (96 + g) = true
      ∧ ∀ l : Fin 128, laneGroup l = g → t.get (ln F.LANE_STATUS_PLL_LOCK l) = 0)
  ∧ (∀ (s : State) (g : Fin 8),
    Completes (.lrefFault g false) s fun t => t.lrefGone g = false
      ∧ (s.lrefGone g = true → ∀ l : Fin 128, laneGroup l = g → s.bit (ln F.LANE_CTRL l) = true →
          t.get (ln F.LANE_STATUS_PLL_LOCK l) = 1)
      ∧ OnlyFields (((List.range 128).filter fun l => laneGroup l == g).map fun l => ln F.LANE_STATUS_PLL_LOCK l) { s with prt := t.prt } t)
  ∧ (∀ (s : State) (l : Fin 128) (dt : Nat),
    Completes (.pllLossOfLock l dt) s fun t => t.get (ln F.LANE_STATUS_PLL_LOCK l) = 0 ∧ t.isPending (96 + laneGroup l) = true)

/-- The redundancy table, its node entries and the egress queues. PORT_GLB_CTRL.EN enables the redundancy table and
marks the ports of its pairs when every pair is valid; an invalid pair is refused. Every LIFE_CHECK seconds
supervision frames go to both ports of a pair under one sequence number, and start at once where the port is UP
and idle. A node entry without a frame for NODE_FORGET and a sequence number older than ENTRY_FORGET are
removed. The end of a transmission leaves the port free or sending the next frame. (02_ports_prp.md R61, R69,
R62, R273) -/
def Obligations.RedundancyPairs : Prop :=
  (∀ (m : Master) (s : State) (d : Nat), Reaches s m 0x260000 → bitOf d 0 = true → s.bit F.PORT_GLB_CTRL = false →
    (∀ k ∈ s.redPairs, s.badPair k = false) →
    Completes (.portGlbEnable m d) s fun t => t.get F.PORT_GLB_CTRL = 1 ∧ ∀ k ∈ s.redPairs,
      t.get (pt F.PORT_STATUS_RED_MEMBER (s.redA k)) = 1 ∧ t.get (pt F.PORT_STATUS_RED_MEMBER (s.redB k)) = 1)
  ∧ (∀ (m : Master) (s : State) (d k : Nat), Reaches s m 0x260000 → bitOf d 0 = true → s.bit F.PORT_GLB_CTRL = false →
    k ∈ s.redPairs → s.badPair k = true →
    Completes (.portGlbEnable m d) s fun t => t.get F.PORT_GLB_CTRL = 0 ∧ OnlyFields [] s t)
  ∧ (∀ (s : State) (m : Fin 48) (dt : Nat), s.bit F.PORT_GLB_CTRL = true → s.redMode m ≠ 0 → s.redA m ≠ s.redB m →
    (s.red m).lifeAt + s.get (rd F.RED_TIMES_LIFE_CHECK m) * 1000000000 ≤ s.clk + dt →
    Completes (.supervisionTx m dt) s fun t => (t.red m).txSeq = ((s.red m).txSeq + 1) % 2 ^ 16 ∧ (t.red m).lifeAt = s.clk + dt
      ∧ ∀ (n : Nat) (f : OutFrame), (n = s.redA m ∨ n = s.redB m) →
          f = ⟨1, none, supervisionBytes (s.get (pt F.PORT_MAC n)) (s.redMode m) (s.red m).txSeq⟩ →
          s.lstate n = 3 → (s.port n).tx = none → s.eq n = [] → s.bit (pt F.PORT_CTRL_TX_DISABLE n) = false →
          ∃ t0, (t.port n).tx = some (s.oneStep n t0 f, t0))
  ∧ (∀ (s : State) (m : Fin 48) (mac dt : Nat),
    Completes (.nodeForgetExpiry m mac dt) s fun t => (t.red m).nodes = (s.red m).nodes.filter fun e =>
      e.mac != mac || decide (s.clk + dt - e.lastAt < s.get (rd F.RED_TIMES_NODE_FORGET m) * 1000000000))
  ∧ (∀ (s : State) (m : Fin 48) (mac dt : Nat),
    Completes (.entryForgetExpiry m mac dt) s fun t => (t.red m).nodes = (s.red m).nodes.map fun e =>
      if e.mac = mac then { e with seqs := e.seqs.filter fun x => decide (s.clk + dt - x.2.2 < s.forgetNs m) } else e)
  ∧ (∀ (s : State) (n : Fin 96) (ym : List (Bool × List Byte)) (f : OutFrame) (t0 dt : Nat), (s.port n).tx = some (f, t0) →
    Completes (.frameTxDone n dt ym) s fun t => Output.frameTx n f.bytes ∈ t.out
      ∧ t.get (pt F.PORT_CNT_TX_FRAMES n) = satAdd (pt F.PORT_CNT_TX_FRAMES n).width (s.get (pt F.PORT_CNT_TX_FRAMES n)) 1
      ∧ (ym = [] → (s.eq n).isEmpty = true → (t.port n).tx = none))

/-- Flow entry access through GATE_FACC. While no command is busy: READ, READ_STATS and READ_REPLAY place the
entry's bytes, counters and replay record in the data registers; WRITE stores an acceptable platform entry while
EN = 0, and otherwise answers ERR 1, 2 or 3 and changes no entry. With no frame under way, INVALIDATE clears
VALID and the replay state (but for an instance on a standby, which only a NOTICE removes), RESET_REPLAY empties
the replay state, SET_QUAR and CLEAR_QUAR change QUARANTINE, SET_NEXT sets KEY_NEXT and NEXT_VALID; on an entry
that is not valid they answer ERR 4. (03_check_gate.md R102, R104, R79, R77, R98, R94, R103, 09_pairing.md R293) -/
def Obligations.FlowAccess : Prop :=
  (∀ (m : Master) (s : State) (i : Nat), Reaches s m 0x400024 → s.bit F.GATE_FACC_CMD_BUSY = false → i < 16 →
    Completes (.gateRead m) s fun t =>
      t.get (F.GATE_FACC_DATAn.idx i) = leAt (feBytes (s.flow s.faccFlow).e) (4 * i) 4 % 2 ^ 32 ∧ t.get F.GATE_FACC_CMD_ERR = 0)
  ∧ (∀ (m : Master) (s : State), Reaches s m 0x400024 → s.bit F.GATE_FACC_CMD_BUSY = false →
    let e := feKeepHw (s.flow s.faccFlow).e (s.getBytes F.GATE_FACC_DATAn 16)
    Completes (.gateWrite m) s fun t =>
      (s.bit F.GATE_CTRL = false → s.faccFlow < 65536 → s.feAccept s.faccFlow e = true →
        t.flow s.faccFlow = { FlowEnt.empty with e := e } ∧ t.get F.GATE_FACC_CMD_ERR = 0)
      ∧ (s.bit F.GATE_CTRL = true → t.get F.GATE_FACC_CMD_ERR = 1 ∧ t.gate = s.gate)
      ∧ (s.bit F.GATE_CTRL = false → 65536 ≤ s.faccFlow → t.get F.GATE_FACC_CMD_ERR = 2 ∧ t.gate = s.gate)
      ∧ (s.bit F.GATE_CTRL = false → s.faccFlow < 65536 → s.feAccept s.faccFlow e = false →
          t.get F.GATE_FACC_CMD_ERR = 3 ∧ t.gate = s.gate))
  ∧ (∀ (m : Master) (s : State), Reaches s m 0x400024 → s.bit F.GATE_FACC_CMD_BUSY = false → s.gate.inflight = [] →
    s.gate.changes = [] → feValid (s.flow s.faccFlow).e = true →
    Completes (.gateInvalidate m) s (fun t =>
      if s.standby = true ∧ feInstance (s.flow s.faccFlow).e = true then t.flow s.faccFlow = s.flow s.faccFlow
      else feValid (t.flow s.faccFlow).e = false ∧ (t.flow s.faccFlow).rep = Replay.empty)
    ∧ Completes (.resetReplay m) s (fun t => (t.flow s.faccFlow).rep = Replay.empty ∧ (t.flow s.faccFlow).e = (s.flow s.faccFlow).e)
    ∧ Completes (.setQuar m) s (fun t => feQuar (t.flow s.faccFlow).e = true ∧ t.isPending 105 = true)
    ∧ Completes (.clearQuar m) s (fun t => feQuar (t.flow s.faccFlow).e = false ∧ t.isPending 105 = true)
    ∧ (s.faccFlow < 65536 → Completes (.setNext m) s fun t => feNextValid (t.flow s.faccFlow).e = true
        ∧ feKeyNext (t.flow s.faccFlow).e = s.get (F.GATE_FACC_DATAn.idx 10) / 65536 % 65536))
  ∧ (∀ (m : Master) (s : State) (i : Nat), Reaches s m 0x400024 → s.bit F.GATE_FACC_CMD_BUSY = false →
    feValid (s.flow s.faccFlow).e = true →
    (i < 10 → Completes (.readStats m) s fun t =>
      t.get (F.GATE_FACC_DATAn.idx i) = leAt ((s.flow s.faccFlow).stats.flatMap (leBytes 4)) (4 * i) 4 % 2 ^ 32)
    ∧ (i < 8 → Completes (.readReplay m) s fun t =>
      t.get (F.GATE_FACC_DATAn.idx i) = leAt (s.flow s.faccFlow).rep.bytes (4 * i) 4 % 2 ^ 32))
  ∧ (∀ (m : Master) (s : State) (i : Instr), i = .resetReplay m ∨ i = .setQuar m ∨ i = .clearQuar m ∨ i = .readStats m ∨
    i = .readReplay m ∨ i = .setNext m → Reaches s m 0x400024 → s.bit F.GATE_FACC_CMD_BUSY = false →
    feValid (s.flow s.faccFlow).e = false →
    Completes i s fun t => t.get F.GATE_FACC_CMD_ERR = 4 ∧ t.get F.GATE_STATUS_FACC_ERR = 1 ∧ t.gate = s.gate)

/-- Key metadata, retirement and template instances. GATE_CTRL.EN sets EN and RUNNING. READ_META places a key
entry's metadata in the data registers; RETIRE sets a loaded entry RETIRED. With no frame under way: an instance
without an accepted frame for IDLE seconds is removed unless the device stands by, and a template's KEY_NEXT and
NEXT_VALID reach its instances. (03_check_gate.md R83, R89, R102, R104) -/
def Obligations.KeyAccessAndInstances : Prop :=
  (∀ (m : Master) (s : State) (d : Nat), Reaches s m 0x400000 →
    Completes (.gateEnable m d) s fun t => t.get F.GATE_CTRL = b2n (bitOf d 0) ∧ t.get F.GATE_STATUS_RUNNING = b2n (bitOf d 0)
      ∧ OnlyFields [F.GATE_CTRL, F.GATE_STATUS_RUNNING] { s with gate := t.gate } t)
  ∧ (∀ (m : Master) (s : State) (i : Nat), Reaches s m 0x400084 → s.bit F.GATE_KACC_CMD_BUSY = false → i < 6 →
    Completes (.readMeta m) s fun t =>
      t.get (F.GATE_KACC_DATAn.idx i) = leAt (s.keyE (s.get F.GATE_KACC_IDX)).bytes (4 * i) 4 % 2 ^ 32)
  ∧ (∀ (m : Master) (s : State), Reaches s m 0x400084 → s.bit F.GATE_KACC_CMD_BUSY = false →
    (s.keyE (s.get F.GATE_KACC_IDX)).st ≠ 0 →
    Completes (.retire m) s fun t => (t.keyE (s.get F.GATE_KACC_IDX)).st = 3 ∧ t.get F.GATE_KACC_CMD_ERR = 0)
  ∧ (∀ (m : Master) (s : State), Reaches s m 0x400084 → s.bit F.GATE_KACC_CMD_BUSY = false →
    (s.keyE (s.get F.GATE_KACC_IDX)).st = 0 →
    Completes (.retire m) s fun t => t.get F.GATE_KACC_CMD_ERR = 1 ∧ t.gate = s.gate)
  ∧ (∀ (s : State) (n dt : Nat), s.gate.inflight = [] → s.gate.changes = [] → feValid (s.flow n).e = true →
    feInstance (s.flow n).e = true → s.standby = false →
    (s.flow n).lastAt + feIdle (s.flow n).e * 1000000000 ≤ s.clk + dt →
    Completes (.instanceIdleExpiry n dt) s fun t => feValid (t.flow n).e = false ∧ t.isPending 105 = true)
  ∧ (∀ (s : State) (tpl : Nat) (rest : List Nat) (f : Nat × FlowEnt), s.gate.inflight = [] → s.gate.changes = [] →
    s.gate.propagate = tpl :: rest → f ∈ s.gate.flows → feValid f.2.e = true → feInstance f.2.e = true →
    feTplRef f.2.e = tpl →
    Completes .templateKeyPropagate s fun t => feKeyNext (t.flow f.1).e = feKeyNext (s.flow tpl).e
      ∧ feNextValid (t.flow f.1).e = feNextValid (s.flow tpl).e)

/-- Frames are refused, counted as strays, admitted and verified. A frame with a bad FCS on an UP port is counted in
RX_FCS and goes no further; uncorrectable codewords are counted where an FEC is in use. A frame of no known kind
on a port outside every pair is counted as a stray. A flow-path frame whose flow, form and key pass stages 1 to
4 on an engine with room waits for verification with the entry as it stood. At stage 6 a frame whose turn it is
(R76), its key not expired meanwhile: a tag that does not match is counted in GATE_CNT_TAG; a frame of a new
position whose key, tag and timestamp hold moves the replay state as R97 says. (02_ports_prp.md R54, R55, R59,
03_check_gate.md R74, R84, R97, R621) -/
def Obligations.FrameReception : Prop :=
  (∀ (s : State) (n : Fin 96) (bs : List Byte) (uncorr dt : Nat), s.lstate n = 3 →
    Completes (.frameRx (n.castLE (by decide)) bs false dt uncorr) s fun t =>
      t.get (pt F.PORT_CNT_RX_FCS n) = satAdd (pt F.PORT_CNT_RX_FCS n).width (s.get (pt F.PORT_CNT_RX_FCS n)) 1
      ∧ (s.get (pt F.PORT_CFG_FEC n) ≠ 0 →
          t.get (pt F.PORT_CNT_FEC_UNCORR n) = satAdd (pt F.PORT_CNT_FEC_UNCORR n).width (s.get (pt F.PORT_CNT_FEC_UNCORR n)) uncorr)
      ∧ OnlyFields [pt F.PORT_CNT_RX_FCS n, pt F.PORT_CNT_FEC_UNCORR n] { s with clk := t.clk, dev := t.dev } t)
  ∧ (∀ (s : State) (n : Fin 96) (bs : List Byte) (uncorr dt : Nat) (tag : Option (Nat × Nat)),
    let u := s.elapse dt
    s.lstate n = 3 → 60 ≤ bs.length → bs.length + 4 ≤ s.get (pt F.PORT_MTU n) → s.pairOf n = none →
    (isGroupMac (beAt bs 0 6) = true ∨ beAt bs 0 6 = s.get (pt F.PORT_MAC n)) →
    u.rxPath n (u.arrival n) bs = (.stray, tag) → s.get F.GATE_CFG_STRAY_SAMPLE = 0 →
    Completes (.frameRx (n.castLE (by decide)) bs true dt uncorr) s fun t =>
      t.get F.GATE_CNT_STRAY = satAdd F.GATE_CNT_STRAY.width (s.get F.GATE_CNT_STRAY) 1
      ∧ t.get (pt F.PORT_CNT_RX_FRAMES n) = satAdd (pt F.PORT_CNT_RX_FRAMES n).width (s.get (pt F.PORT_CNT_RX_FRAMES n)) 1
      ∧ t.gate = s.gate)
  ∧ (∀ (s : State) (n : Fin 96) (bs : List Byte) (uncorr dt : Nat) (tag : Option (Nat × Nat)) (fr : RxFrame) (k fl : Nat) (sec : Sec),
    let u := s.elapse dt
    s.lstate n = 3 → 60 ≤ bs.length → bs.length + 4 ≤ s.get (pt F.PORT_MTU n) → s.pairOf n = none →
    (isGroupMac (beAt bs 0 6) = true ∨ beAt bs 0 6 = s.get (pt F.PORT_MAC n)) →
    u.rxPath n (u.arrival n) bs = (.flow fr, tag) → fr.port = n → s.bit F.GATE_CTRL = true → s.classify fr = some fl →
    parseSec fr = some sec → lenOk fr sec = true → u.stage4 (s.viewFlow fl) sec = .inr k →
    (if algGmac sec.alg then u.runEngines.gate.gmac else u.runEngines.gate.hmac).admits (fePrio (s.viewFlow fl).e) = true →
    Completes (.frameRx (n.castLE (by decide)) bs true dt uncorr) s fun t =>
      t.gate.inflight = s.gate.inflight ++ [⟨s.gate.seq, fr, fl, (s.viewFlow fl).e, sec, k, (s.keyE k).material⟩]
      ∧ t.gate.flows = s.gate.flows ∧ t.gate.keys = s.gate.keys)
  ∧ (∀ (s : State) (i dt : Nat) (f : Inflight),
    let u := s.elapse dt
    s.gate.inflight[i]? = some f → s.inTurn i f = f → s.gate.changes = [] → (s.keyE f.key).st ≠ 2 →
    (timeValid s.tq = true → keyInTime (s.keyE f.key) (u.nowNs / 1000000000) = true) →
    Config.checkValue f.sec.alg f.material f.sec.iv f.sec.span ≠ f.sec.tag →
    Completes (.verifyComplete i dt) s fun t => t.gate.inflight = s.gate.inflight.eraseIdx i
      ∧ t.get F.GATE_CNT_TAG = satAdd F.GATE_CNT_TAG.width (s.get F.GATE_CNT_TAG) 1 ∧ (t.flow f.flow).rep = (s.flow f.flow).rep)
  ∧ (∀ (s : State) (i dt p cnt : Nat) (f : Inflight),
    let u := s.elapse dt
    let tol := feTsTol f.entry * 1000000
    s.gate.inflight[i]? = some f → s.inTurn i f = f → s.gate.changes = [] → (s.keyE f.key).st ≠ 2 →
    (timeValid s.tq = true → keyInTime (s.keyE f.key) (u.nowNs / 1000000000) = true ∧ u.nowNs ≤ f.sec.ts + tol ∧
      f.sec.ts ≤ u.nowNs + tol) →
    Config.checkValue f.sec.alg f.material f.sec.iv f.sec.span = f.sec.tag → feTemplate f.entry = false → f.fr.kind ≠ 4 →
    framePos f.fr f.entry (s.flow f.flow).rep = (p, cnt) →
    replayCheck (s.flow f.flow).rep p cnt f.sec.ts (timeValid s.tq) = .new →
    Completes (.verifyComplete i dt) s fun t => t.gate.inflight = s.gate.inflight.eraseIdx i
      ∧ (t.flow f.flow).rep = replayCommit (s.flow f.flow).rep p cnt f.sec.ts false
      ∧ t.get F.GATE_CNT_ACCEPT = satAdd F.GATE_CNT_ACCEPT.width (s.get F.GATE_CNT_ACCEPT) 1
      ∧ (feQuar f.entry = false →
          ∃ m, t.yard.queue = s.yard.queue ++ [⟨f.fr, f.flow, f.entry, s.beat, s.tq, !timeValid s.tq, s.yardOn, m, []⟩]))

/-- A position that was committed is never new again. For every replay state and every frame position p that covers
n ≤ 16 positions and is new: after the commit (R97) the same frame is a repeat, top does not fall, every
position that the window covered as received and still covers stays received, and the bitmap stays within its 64
bits. (03_check_gate.md R97) -/
def Obligations.ReplayWindow : Prop :=
  ∀ (r : Replay) (p n ts ts' : Nat) (valid : Bool), r.bitmap < 2 ^ 64 → 0 < n → n ≤ 16 →
    replayCheck r p n ts valid = .new →
    let r' := replayCommit r p n ts false
    r'.active = true ∧ r'.bitmap < 2 ^ 64 ∧ (r.active = true → r.top ≤ r'.top) ∧ p + n - 1 ≤ r'.top
      ∧ replayCheck r' p n ts' valid = .repeated
      ∧ ∀ x, r.active = true → x ≤ r.top → r.top - x < 64 → bitOf r.bitmap (r.top - x) = true → r'.top - x < 64 →
          bitOf r'.bitmap (r'.top - x) = true

/-- Flow groups: enabling the yard and access to group entries. A write of MYARD_CTRL.EN = 1 from 0 while PD14 is ON
(else it changes nothing) runs the yard when every valid entry is in range and the rings fit, and refuses it
with ALLOC_ERR and source 106 when they do not; EN = 0 discards every slab. READ and READ_STATS place the entry
and its counters in the data registers. While EN = 0, WRITE stores an entry that is valid and agrees with its
flows, with the sizes derived and the other hardware fields kept, and answers ERR 2 otherwise; INVALIDATE clears
VALID. While EN = 1 both answer ERR 1 and change nothing. (04_marshalling_yard.md R107, R108, R128, R133, R135,
R136) -/
def Obligations.GroupAccess : Prop :=
  (∀ (m : Master) (s : State) (d : Nat), Reaches s m 0x500000 → bitOf d 0 = true → s.bit F.MYARD_CTRL = false →
    s.domState 14 = 0 →
    let valid := s.groupList.filter fun n => geValid (s.group n).e
    let u := s.each valid fun n t => t.setGroup n fun x => { x with e := geDerive t.rate (setLe x.e 0 1 (clearBit (geFlags x.e) 1)) }
    Completes (.myardEnable m d) s fun t =>
      ((∀ n ∈ valid, geOk (u.group n).e = true) →
        (valid.map fun n => ringBytes (u.group n).e).sum ≤ 131072 * s.get F.MYARD_CAP_BANKS → (u.allocAll [] valid).2 = true →
        t.get F.MYARD_CTRL = 1 ∧ t.get F.MYARD_STATUS_RUNNING = 1 ∧ t.get F.MYARD_STATUS_ALLOC_ERR = 0)
      ∧ ((∃ n ∈ valid, geOk (u.group n).e = false) ∨
          131072 * s.get F.MYARD_CAP_BANKS < (valid.map fun n => ringBytes (u.group n).e).sum →
        t.get F.MYARD_CTRL = 0 ∧ t.get F.MYARD_STATUS_ALLOC_ERR = 1 ∧ t.isPending 106 = true))
  ∧ (∀ (m : Master) (s : State) (d : Nat), Reaches s m 0x500000 → bitOf d 0 = true → s.bit F.MYARD_CTRL = false →
    s.domState 14 ≠ 0 → Completes (.myardEnable m d) s fun t => t.get F.MYARD_CTRL = 0 ∧ t.yard = s.yard ∧ OnlyFields [] s t)
  ∧ (∀ (m : Master) (s : State) (d : Nat), Reaches s m 0x500000 → bitOf d 0 = false → s.bit F.MYARD_CTRL = true →
    Completes (.myardEnable m d) s fun t => t.get F.MYARD_CTRL = 0 ∧ t.get F.MYARD_STATUS_RUNNING = 0
      ∧ ∀ g ∈ s.groupList, (t.group g).wins = [] ∧ (t.group g).members = [])
  ∧ (∀ (m : Master) (s : State) (i : Nat), Reaches s m 0x500024 → s.bit F.MYARD_GACC_CMD_BUSY = false → i < 8 →
    Completes (.myardRead m) s (fun t =>
      t.get (F.MYARD_GACC_DATAn.idx i) = leAt (geBytes (s.group (s.get F.MYARD_GACC_IDX)).e) (4 * i) 4 % 2 ^ 32)
    ∧ Completes (.myardReadStats m) s (fun t =>
      t.get (F.MYARD_GACC_DATAn.idx i) =
        leAt ((s.group (s.get F.MYARD_GACC_IDX)).stats.flatMap (leBytes 4)) (4 * i) 4 % 2 ^ 32))
  ∧ (∀ (m : Master) (s : State), Reaches s m 0x500024 → s.bit F.MYARD_GACC_CMD_BUSY = false → s.bit F.MYARD_CTRL = false →
    let n := s.get F.MYARD_GACC_IDX
    let e := geKeepHw (s.group n).e (s.getBytes F.MYARD_GACC_DATAn 8)
    Completes (.myardWrite m) s (fun t =>
      (geValid e = true → geOk e = true → (s.gate.flows.all fun f =>
          !(feValid f.2.e && feGroup f.2.e == n) || flowFits f.2.e e) = true →
        t.group n = { GroupEnt.empty with e := geDerive s.rate e } ∧ t.get F.MYARD_GACC_CMD_ERR = 0)
      ∧ (geValid e = true → geOk e = false → t.yard = s.yard ∧ t.get F.MYARD_GACC_CMD_ERR = 2))
    ∧ Completes (.myardInvalidate m) s (fun t => geValid (t.group n).e = false ∧ t.get F.MYARD_GACC_CMD_ERR = 0))
  ∧ (∀ (m : Master) (s : State) (i : Instr), i = .myardWrite m ∨ i = .myardInvalidate m → Reaches s m 0x500024 →
    s.bit F.MYARD_GACC_CMD_BUSY = false → s.bit F.MYARD_CTRL = true →
    Completes i s fun t => t.get F.MYARD_GACC_CMD_ERR = 1 ∧ t.yard = s.yard)

/-- The yard places a sample once into its open window. A waiting frame that was accepted while the yard ran, with a
member index in a live group of a sampled kind, and whose one sample instant belongs to an open window k with
kind 0 or 1: when the slot is empty its data is written to the slot, its presence bit is set and PLACED counts;
when the window is past, the sample is refused as LATE; when it lies ahead, as FUTURE. A frame accepted while
the yard was disabled is counted in MYARD_CNT_OFF. In each case the frame leaves the queue and no byte of yard
memory outside the slab changes. (04_marshalling_yard.md R109, R118, R121, R124, R133) -/
def Obligations.SamplePlacement : Prop :=
  ∀ (s : State) (i : Nat) (h : Handover), s.yard.queue[i]? = some h →
    (h.on = false → geKind (s.group (feGroup h.entry)).e ≠ 2 → Completes (.samplePlace i) s fun t => t.yard = { s.yard with queue := s.yard.queue.eraseIdx i }
      ∧ t.get F.MYARD_CNT_OFF = satAdd F.MYARD_CNT_OFF.width (s.get F.MYARD_CNT_OFF) 1)
    ∧ (∀ (m : Nat) (w : Win) (k slot : Nat) (d : List Byte) (u : Bool),
      let g := feGroup h.entry
      let e := (s.group g).e
      let pa := slabAddr e k + presOfs e + 8 * (m * presWords e + slot / 64)
      let da := slabAddr e k + dataOfs e + m * slabStride e + slot * geElem e
      h.on = true → h.gone = [] → g ≠ 0xFFFF → geValid e = true → geWithdrawn e = false → tqRuns h.tq = true →
      h.member = some m → geKind e ≤ 1 → s.samples g h = .inr [.put k slot d u] →
      (k ≤ h.beat → h.beat < k + 1 + geLag e → s.win g k = some w → w.closed = false → m < geMax e → slot < geSlots e →
        bitOf (s.yLe pa 8) (slot % 64) = false → Completes (.samplePlace i) s fun t =>
          t.yard.queue = s.yard.queue.eraseIdx i
          ∧ t.yBytes da (geElem e) = (d ++ List.replicate (geElem e - d.length) 0).take (geElem e)
          ∧ bitOf (t.yLe pa 8) (slot % 64) = true
          ∧ t.get F.MYARD_CNT_PLACED = satAdd F.MYARD_CNT_PLACED.width (s.get F.MYARD_CNT_PLACED) 1
          ∧ ∀ a, (a < slabAddr e k ∨ slabAddr e k + slabSize e ≤ a) → t.yByte a = s.yByte a)
      ∧ (k + 1 + geLag e ≤ h.beat → Completes (.samplePlace i) s fun t => t.yard.queue = s.yard.queue.eraseIdx i
          ∧ t.get F.MYARD_CNT_LATE = satAdd F.MYARD_CNT_LATE.width (s.get F.MYARD_CNT_LATE) 1)
      ∧ (h.beat < k → Completes (.samplePlace i) s fun t => t.yard.queue = s.yard.queue.eraseIdx i
          ∧ t.get F.MYARD_CNT_FUTURE = satAdd F.MYARD_CNT_FUTURE.width (s.get F.MYARD_CNT_FUTURE) 1))

/-- The Loft starts, records and retires segments. An allowed write of LOFT_CTRL.EN with no failed half starts
initialisation, and a refused one sets CFG_ERR; initialisation ends with RUNNING set, the live segments counted
and the errors met on the way counted. While running, the oldest buffered entry goes to the open segment that
has room for it and is counted with its bytes; a segment with a region that neither passed the test nor was
repaired leaves the ring; a region that passed, or was repaired, keeps its content. (05_loft.md R139, R141,
R144, R160, R161, R162) -/
def Obligations.LoftRecording : Prop :=
  (∀ (m : Master) (s : State) (d : Nat), Reaches s m 0x600000 → bitOf d 0 = true → s.bit F.LOFT_CTRL = false →
    Completes (.loftEnable m d false false) s fun t =>
      (s.halvesOk (s.get F.LOFT_CFG_HALVES) = true → s.get F.LOFT_CFG_PIN_MAX ≤ 75 →
        t.get F.LOFT_CTRL = 1 ∧ t.get F.LOFT_STATUS_INIT_BUSY = 1 ∧ t.get F.LOFT_STATUS_CFG_ERR = 0
        ∧ t.loft.halves = s.get F.LOFT_CFG_HALVES)
      ∧ (s.halvesOk (s.get F.LOFT_CFG_HALVES) = false ∨ 75 < s.get F.LOFT_CFG_PIN_MAX →
        t.get F.LOFT_CTRL = 0 ∧ t.get F.LOFT_STATUS_CFG_ERR = 1 ∧ t.loft = s.loft))
  ∧ (∀ s : State, s.bit F.LOFT_STATUS_INIT_BUSY = true → s.loft.segs = [] →
    ∀ (ce : Nat) (ue : List Nat),
    Completes (.loftInitDone ce ue) s fun t => t.get F.LOFT_STATUS_INIT_BUSY = 0 ∧ t.get F.LOFT_STATUS_RUNNING = 1
      ∧ t.loft.kept = true ∧ t.get F.LOFT_CNT_CE = satAdd F.LOFT_CNT_CE.width (s.get F.LOFT_CNT_CE) ce
      ∧ t.get F.LOFT_CNT_UE = satAdd F.LOFT_CNT_UE.width (s.get F.LOFT_CNT_UE) ue.length
      ∧ (ue = [] → t.get F.LOFT_RING_SEGMENTS = ringSegs s.loft.halves ∧ t.get F.LOFT_HEAD = 0))
  ∧ (∀ (s : State) (beat n : Nat) (e : List Byte) (rest : List (Nat × List Byte)), s.loft.buf = (beat, e) :: rest →
    s.bit F.LOFT_STATUS_RUNNING = true → s.loft.openSeg = some n → (s.seg n).closed = false →
    (s.seg n).used + e.length ≤ segBytes →
    Completes .loftRecordWrite s fun t => t.loft.buf = rest ∧ (t.seg n).ents = (s.seg n).ents ++ [e]
      ∧ (t.seg n).used = (s.seg n).used + e.length ∧ (t.seg n).tLast = entArr e
      ∧ t.get F.LOFT_CNT_BYTES = satAdd F.LOFT_CNT_BYTES.width (s.get F.LOFT_CNT_BYTES) e.length)
  ∧ (∀ (s : State) (idx : Nat), s.bit F.LOFT_STATUS_RUNNING = true → s.testable false idx = true →
    Completes (.loftTestStep false idx false false) s fun t => (t.seg (idx / 16)).retired = true ∧ t.isPending 107 = true
      ∧ t.loft.tested = idx ∧ t.get F.LOFT_CNT_SEG_RETIRED = satAdd F.LOFT_CNT_SEG_RETIRED.width (s.get F.LOFT_CNT_SEG_RETIRED) 1)
  ∧ (∀ (s : State) (hist : Bool) (idx : Nat) (pass repaired : Bool), s.bit F.LOFT_STATUS_RUNNING = true → s.testable hist idx = true →
    pass = true ∨ repaired = true →
    Completes (.loftTestStep hist idx pass repaired) s fun t =>
      t.loft = { s.loft with tested := t.loft.tested, passAt := t.loft.passAt } ∧ OnlyFields [] { s with loft := t.loft } t)

/-- Freezes are taken, read, exported and released. While no freeze command is busy: TRIGGER puts the lowest free
slot into COLLECTING with the arguments written and returns its number, or answers ERR 1 when no slot is free or
a span exceeds 60 s; RELEASE frees a HELD slot that is not being exported and answers ERR 2 otherwise; READ_SLOT
places the slot's record in the data registers. GO on a HELD slot queues its export and on any other ends with
ERR 1; the export that runs ends with its slot marked EXPORTED and LOFT_EXP_SEQ raised, or, where a write faults
or its slice is not bound, with ERR 2 and neither. (05_loft.md R147, R150, R151, R152, R154, R165) -/
def Obligations.LoftFreezes : Prop :=
  (∀ (m : Master) (s : State) (i : Nat), Reaches s m 0x600030 → s.bit F.LOFT_FRZ_CMD_BUSY = false →
    (List.range 16).find? (fun j => (s.frz j).st == 0) = some i → s.get (F.LOFT_FRZ_ARG01.idx 0) ≤ 60000000 →
    s.get (F.LOFT_FRZ_ARG01.idx 1) ≤ 60000000 →
    Completes (.triggerLoft m) s fun t => t.get F.LOFT_FRZ_CMD_SLOT = i ∧ t.get F.LOFT_FRZ_CMD_ERR = 0 ∧ (t.frz i).st = 1
      ∧ (t.frz i).reason = s.get F.LOFT_FRZ_ARG2 % 65536 ∧ (t.frz i).pre = s.get (F.LOFT_FRZ_ARG01.idx 0)
      ∧ (t.frz i).post = s.get (F.LOFT_FRZ_ARG01.idx 1) ∧ t.isPending 107 = true)
  ∧ (∀ (m : Master) (s : State), Reaches s m 0x600030 → s.bit F.LOFT_FRZ_CMD_BUSY = false →
    (List.range 16).find? (fun j => (s.frz j).st == 0) = none →
    Completes (.triggerLoft m) s fun t => t.get F.LOFT_FRZ_CMD_ERR = 1 ∧ t.loft = s.loft ∧ t.isPending 107 = true)
  ∧ (∀ (m : Master) (s : State) (i : Fin 16), Reaches s m 0x600030 → s.bit F.LOFT_FRZ_CMD_BUSY = false →
    Completes (.releaseLoft m i) s (fun t =>
      ((s.frz i).st = 2 → s.exporting i = false → t.frz i = FrzSlot.free ∧ t.get F.LOFT_FRZ_CMD_ERR = 0 ∧ t.isPending 107 = true)
      ∧ ((s.frz i).st ≠ 2 ∨ s.exporting i = true → t.get F.LOFT_FRZ_CMD_ERR = 2 ∧ t.loft = s.loft))
    ∧ Completes (.readSlot m i) s (fun t => t.get F.LOFT_FRZ_CMD_SLOT = i ∧ t.loft = s.loft
      ∧ ∀ j, j < 8 → t.get (F.LOFT_FRZ_DATAn.idx j) = leAt (s.frz i).bytes (4 * j) 4 % 2 ^ 32))
  ∧ (∀ (m : Master) (s : State) (d : Nat), Reaches s m 0x600060 → s.bit F.LOFT_EXP_CMD_BUSY = false → bitOf d 4 = true →
    Completes (.loftExportGo m d) s fun t =>
      ((s.frz (bitsOf d 0 4)).st = 2 → t.get F.LOFT_EXP_CMD_BUSY = 1 ∧ t.get F.LOFT_EXP_CMD_ERR = 0
        ∧ t.get F.LOFT_STATUS_EXP_BUSY = 1
        ∧ t.loft.exports = s.loft.exports ++ [⟨bitsOf d 0 4, bitsOf d 16 1, bitsOf d 8 8, s.get F.LOFT_EXP_ADDR,
            s.get F.LOFT_EXP_LEN, s.get F.LOFT_EXP_MAN, s.get F.LOFT_EXP_START, none, s.clk⟩])
      ∧ ((s.frz (bitsOf d 0 4)).st ≠ 2 → t.get F.LOFT_EXP_CMD_BUSY = 0 ∧ t.get F.LOFT_EXP_CMD_ERR = 1 ∧ t.loft = s.loft))
  ∧ (∀ (s : State) (x : ExpReq), s.loft.exports = [x] → x.cmd = none →
    ∀ (fault : Option Nat) (ce : Nat) (ue : List (Nat × List Byte)),
    Completes (.loftExportComplete fault ce ue) s fun t => t.loft.exports = [] ∧ t.get F.LOFT_EXP_CMD_BUSY = 0
      ∧ t.get F.LOFT_STATUS_EXP_BUSY = 0 ∧ t.isPending 107 = true
      ∧ (fault = none → (x.scope = 1 → s.get (sl F.SLICE_STATUS_STATE x.slice) ≠ 0) → t.get F.LOFT_EXP_CMD_ERR = 0
        ∧ bitOf (t.frz x.slot).flags 2 = true ∧ t.get F.LOFT_EXP_SEQ = (s.get F.LOFT_EXP_SEQ + 1) % 2 ^ F.LOFT_EXP_SEQ.width)
      ∧ (fault ≠ none ∨ (x.scope = 1 ∧ s.get (sl F.SLICE_STATUS_STATE x.slice) = 0) → t.get F.LOFT_EXP_CMD_ERR = 2
        ∧ t.get F.LOFT_EXP_SEQ = s.get F.LOFT_EXP_SEQ ∧ t.loft.slots = s.loft.slots))

/-- The saturating and the accumulator instructions of Xdlp. For a stall that issues QADD, QSUB, QMUL, QADD16,
QSUB16, QMUL16, QABS or QNEG, its command completes: rd takes the exact result clipped to 32 bits (each half to
16), SAT is set when it was clipped, the pc advances by the instruction's length, and no register field and no
part of the device but the pool changes. With rd = x0 the result is discarded. For a stall that issues CMAC,
CMACJ, CMSU or CMSUJ on ACC0 to ACC3, the parts of the accumulator take the exact complex sum clipped to 48 bits
and SAT is set when it was clipped; ACLR clears the accumulator; ARDRE, ARDIM and APK16 put the rounded, clipped
parts into rd, SAT being set when they were clipped. The other accumulators and the other registers stay, and no
register field changes. (06_stalls_sheds.md R181, R182, R184) -/
def Obligations.XdlpArithmetic : Prop :=
  (∀ (s u : State) (p : Fin 68) (l : Fin 16) (dt len rd a b : Nat),
    let c := u.coreOf p l
    (Issues s p l dt len (.q .qadd rd a b) u → Completes (.qadd p l dt) s fun t =>
        Retired c (t.coreOf p l) len rd (BitVec.ofInt 32 (satS 32 ((c.rx a).toInt + (c.rx b).toInt)).1)
          ((satS 32 ((c.rx a).toInt + (c.rx b).toInt)).2) ∧ OnlyFields [] { u with pool := t.pool } t)
    ∧ (Issues s p l dt len (.q .qsub rd a b) u → Completes (.qsub p l dt) s fun t =>
        Retired c (t.coreOf p l) len rd (BitVec.ofInt 32 (satS 32 ((c.rx a).toInt - (c.rx b).toInt)).1)
          ((satS 32 ((c.rx a).toInt - (c.rx b).toInt)).2) ∧ OnlyFields [] { u with pool := t.pool } t)
    ∧ (Issues s p l dt len (.q .qmul rd a b) u → Completes (.qmul p l dt) s fun t =>
        Retired c (t.coreOf p l) len rd (BitVec.ofInt 32 (satS 32 (rnd ((c.rx a).toInt * (c.rx b).toInt) 31)).1)
          ((satS 32 (rnd ((c.rx a).toInt * (c.rx b).toInt) 31)).2) ∧ OnlyFields [] { u with pool := t.pool } t)
    ∧ (Issues s p l dt len (.q .qadd16 rd a b) u → Completes (.qadd16 p l dt) s fun t =>
        Retired c (t.coreOf p l) len rd (packHalves (satS 16 (lo16 (c.rx a) + lo16 (c.rx b))).1 (satS 16 (hi16 (c.rx a) + hi16 (c.rx b))).1)
          ((satS 16 (lo16 (c.rx a) + lo16 (c.rx b))).2 || (satS 16 (hi16 (c.rx a) + hi16 (c.rx b))).2) ∧ OnlyFields [] { u with pool := t.pool } t)
    ∧ (Issues s p l dt len (.q .qsub16 rd a b) u → Completes (.qsub16 p l dt) s fun t =>
        Retired c (t.coreOf p l) len rd (packHalves (satS 16 (lo16 (c.rx a) - lo16 (c.rx b))).1 (satS 16 (hi16 (c.rx a) - hi16 (c.rx b))).1)
          ((satS 16 (lo16 (c.rx a) - lo16 (c.rx b))).2 || (satS 16 (hi16 (c.rx a) - hi16 (c.rx b))).2) ∧ OnlyFields [] { u with pool := t.pool } t)
    ∧ (Issues s p l dt len (.q .qmul16 rd a b) u → Completes (.qmul16 p l dt) s fun t =>
        Retired c (t.coreOf p l) len rd (packHalves (satS 16 (rnd (lo16 (c.rx a) * lo16 (c.rx b)) 15)).1 (satS 16 (rnd (hi16 (c.rx a) * hi16 (c.rx b)) 15)).1)
          ((satS 16 (rnd (lo16 (c.rx a) * lo16 (c.rx b)) 15)).2 || (satS 16 (rnd (hi16 (c.rx a) * hi16 (c.rx b)) 15)).2) ∧ OnlyFields [] { u with pool := t.pool } t)
    ∧ (Issues s p l dt len (.q .qabs rd a b) u → Completes (.qabs p l dt) s fun t =>
        Retired c (t.coreOf p l) len rd (BitVec.ofInt 32 (satS 32 (if (c.rx a).toInt < 0 then -(c.rx a).toInt else (c.rx a).toInt)).1)
          ((satS 32 (if (c.rx a).toInt < 0 then -(c.rx a).toInt else (c.rx a).toInt)).2) ∧ OnlyFields [] { u with pool := t.pool } t)
    ∧ (Issues s p l dt len (.q .qneg rd a b) u → Completes (.qneg p l dt) s fun t =>
        Retired c (t.coreOf p l) len rd (BitVec.ofInt 32 (satS 32 (-(c.rx a).toInt)).1)
          ((satS 32 (-(c.rx a).toInt)).2) ∧ OnlyFields [] { u with pool := t.pool } t))
  ∧ (∀ (s u : State) (p : Fin 68) (l : Fin 16) (dt len rd a b i h : Nat),
    let c := u.coreOf p l
    let z := c.acc.getD i (0, 0)
    (i < c.acc.length →
      (Issues s p l dt len (.c .cmac i a b) u → Completes (.cmac p l dt) s fun t =>
          let re := satS 48 (z.1 + (lo16 (c.rx a) * lo16 (c.rx b) - hi16 (c.rx a) * hi16 (c.rx b)))
          let im := satS 48 (z.2 + (lo16 (c.rx a) * hi16 (c.rx b) + hi16 (c.rx a) * lo16 (c.rx b)))
          Retired c { t.coreOf p l with acc := c.acc } len 0 0 (re.2 || im.2) ∧ (t.coreOf p l).acc = c.acc.set i (re.1, im.1)
          ∧ OnlyFields [] { u with pool := t.pool } t)
      ∧ (Issues s p l dt len (.c .cmacj i a b) u → Completes (.cmacj p l dt) s fun t =>
          let re := satS 48 (z.1 + (lo16 (c.rx a) * lo16 (c.rx b) + hi16 (c.rx a) * hi16 (c.rx b)))
          let im := satS 48 (z.2 + (hi16 (c.rx a) * lo16 (c.rx b) - lo16 (c.rx a) * hi16 (c.rx b)))
          Retired c { t.coreOf p l with acc := c.acc } len 0 0 (re.2 || im.2) ∧ (t.coreOf p l).acc = c.acc.set i (re.1, im.1)
          ∧ OnlyFields [] { u with pool := t.pool } t)
      ∧ (Issues s p l dt len (.c .cmsu i a b) u → Completes (.cmsu p l dt) s fun t =>
          let re := satS 48 (z.1 - (lo16 (c.rx a) * lo16 (c.rx b) - hi16 (c.rx a) * hi16 (c.rx b)))
          let im := satS 48 (z.2 - (lo16 (c.rx a) * hi16 (c.rx b) + hi16 (c.rx a) * lo16 (c.rx b)))
          Retired c { t.coreOf p l with acc := c.acc } len 0 0 (re.2 || im.2) ∧ (t.coreOf p l).acc = c.acc.set i (re.1, im.1)
          ∧ OnlyFields [] { u with pool := t.pool } t)
      ∧ (Issues s p l dt len (.c .cmsuj i a b) u → Completes (.cmsuj p l dt) s fun t =>
          let re := satS 48 (z.1 - (lo16 (c.rx a) * lo16 (c.rx b) + hi16 (c.rx a) * hi16 (c.rx b)))
          let im := satS 48 (z.2 - (hi16 (c.rx a) * lo16 (c.rx b) - lo16 (c.rx a) * hi16 (c.rx b)))
          Retired c { t.coreOf p l with acc := c.acc } len 0 0 (re.2 || im.2) ∧ (t.coreOf p l).acc = c.acc.set i (re.1, im.1)
          ∧ OnlyFields [] { u with pool := t.pool } t)
      ∧ (Issues s p l dt len (.aclr i) u → Completes (.aclr p l dt) s fun t =>
          Retired c { t.coreOf p l with acc := c.acc } len 0 0 false ∧ (t.coreOf p l).acc = c.acc.set i (0, 0)
          ∧ OnlyFields [] { u with pool := t.pool } t))
    ∧ (Issues s p l dt len (.r .ardre rd i h) u → Completes (.ardre p l dt) s fun t =>
        Retired c (t.coreOf p l) len rd (BitVec.ofInt 32 (satS 32 (rnd z.1 h)).1) (satS 32 (rnd z.1 h)).2)
    ∧ (Issues s p l dt len (.r .ardim rd i h) u → Completes (.ardim p l dt) s fun t =>
        Retired c (t.coreOf p l) len rd (BitVec.ofInt 32 (satS 32 (rnd z.2 h)).1) (satS 32 (rnd z.2 h)).2)
    ∧ (Issues s p l dt len (.r .apk16 rd i h) u → Completes (.apk16 p l dt) s fun t =>
        Retired c (t.coreOf p l) len rd (packHalves (satS 16 (rnd z.1 h)).1 (satS 16 (rnd z.2 h)).1)
          ((satS 16 (rnd z.1 h)).2 || (satS 16 (rnd z.2 h)).2)))

/-- DLP_FLAGS.SAT is set by every clipped result and stays until written zero. For every core and instruction: when
a saturating operation, an accumulation or an accumulator read changes a result by clipping it, SAT is set
afterwards; SAT that is set stays set through every Xdlp, computation and slab-load result, and through every
CSR instruction unless that instruction writes CSR DLP_FLAGS (0x806) with bit 0 zero. (06_stalls_sheds.md R184) -/
def Obligations.SaturationFlagSticks : Prop :=
  ∀ (c c' : Core) (len : Nat) (rv : Rv) (e : CsrEnv) (op rd rs1 n : Nat) (useImm : Bool),
    (c.xdlp len rv = some c' →
      (bitOf c.dflags 0 = true → bitOf c'.dflags 0 = true)
      ∧ (match rv with
          | .q o _ a b => (o.eval (c.rx a) (c.rx b)).2 = true → bitOf c'.dflags 0 = true
          | .c o i a b => let t := o.term (c.rx a) (c.rx b)
            let z := c.getAcc i
            (satS 48 (z.1 + t.1)).1 ≠ z.1 + t.1 ∨ (satS 48 (z.2 + t.2)).1 ≠ z.2 + t.2 → bitOf c'.dflags 0 = true
          | .r o _ i h => (o.eval (c.getAcc i) h).2 = true → bitOf c'.dflags 0 = true
          | _ => True))
    ∧ (c.compute len rv = some c' → bitOf c.dflags 0 = true → bitOf c'.dflags 0 = true)
    ∧ (bitOf c.dflags 0 = true → bitOf c.woob.dflags 0 = true)
    ∧ (c.csrOp e len op rd useImm rs1 n = some c' → bitOf c.dflags 0 = true →
        bitOf c'.dflags 0 = true ∨ (n = 0x806 ∧ (op = 1 ∨ rs1 ≠ 0) ∧ bitOf c'.dflags 0 = false))

/-- Computation, traps, CSRs and fences of a stall. For a stall that issues: an integer operation puts its result
into rd; JAL links and jumps; a taken branch jumps; an illegal encoding ends the item as FAULT with cause 2, and
EBREAK with cause 3, once the store buffer is empty and the local memory is ON; a fetch with an uncorrectable
error ends the item in the same way, and one that is corrected executes as if it had none; a CSR that U mode may
read goes to rd, and one that it may not read ends the item as FAULT with cause 2; FENCE waits for an empty
store buffer, and FENCE.I then also empties the instruction cache. (06_stalls_sheds.md R170, R171, R173, R177,
R180, R182, R187, R191) -/
def Obligations.StallExecution : Prop :=
  ∀ (s u : State) (p : Fin 68) (l : Fin 16) (dt len rd a b : Nat) (imm : Word),
    let k := 16 * p.val + l.val
    let c := u.coreOf p l
    (∀ o : Alu, Issues s p l dt len (.alu o rd a b) u → Completes (.rv32Compute p l dt) s fun t =>
      Retired c (t.coreOf p l) len rd (o.eval (c.rx a) (c.rx b)) false ∧ OnlyFields [] { u with pool := t.pool } t)
    ∧ (Issues s p l dt len (.jal rd imm) u → Completes (.rv32Compute p l dt) s fun t =>
      (t.coreOf p l).pc = c.pc + imm ∧ (rd ≠ 0 → (t.coreOf p l).rx rd = c.pc + BitVec.ofNat 32 len))
    ∧ (∀ cond, Issues s p l dt len (.branch cond a b imm) u → Completes (.rv32Compute p l dt) s fun t =>
      (t.coreOf p l).pc = (if branchTaken cond (c.rx a) (c.rx b) then c.pc + imm else c.pc + BitVec.ofNat 32 len)
      ∧ (t.coreOf p l).x = c.x)
    ∧ (Issues s p l dt len .illegal u → u.saveReady k = true →
      Completes (.rv32Compute p l dt) s fun t => Ended t p l 2 2)
    ∧ (∀ err v, (s.elapse dt).canIssue k = true → (s.elapse dt).fetchReady k = true → (s.elapse dt).fetchError k err = (v, true) →
      v.saveReady k = true → Completes (.rv32Compute p l dt err) s fun t => Ended t p l 2 2)
    ∧ (∀ err v, (s.elapse dt).canIssue k = true → (s.elapse dt).fetchReady k = true → (s.elapse dt).fetchError k err = (v, false) →
      exec (.rv32Compute p l dt err) s = exec (.rv32Compute p l 0) v)
    ∧ (Issues s p l dt len .ebreak u → u.saveReady k = true →
      Completes (.ebreak p l dt) s fun t => Ended t p l 2 3)
    ∧ (∀ (n : Nat) (v : Word), Issues s p l dt len (.csr 2 rd false 0 n) u → c.csrRead (u.csrEnv k) n = some v →
      Completes (.csrAccess p l dt) s fun t => Retired c (t.coreOf p l) len rd v false)
    ∧ (Issues s p l dt len (.csr 1 0 false a 0x806) u → Completes (.csrAccess p l dt) s fun t =>
      (t.coreOf p l).dflags = (c.rx a).toNat % 4 ∧ (t.coreOf p l).pc = c.pc + BitVec.ofNat 32 len)
    ∧ (∀ op n, Issues s p l dt len (.csr op rd false a n) u → c.csrRead (u.csrEnv k) n = none → u.saveReady k = true →
      Completes (.csrAccess p l dt) s fun t => Ended t p l 2 2)
    ∧ (Issues s p l dt len .fence u → Completes (.fence p l dt) s fun t =>
      if (u.stall k).sb.isEmpty then Retired c (t.coreOf p l) len 0 0 false else t.coreOf p l = c)
    ∧ (Issues s p l dt len .fenceI u → Completes (.fenceI p l dt) s fun t =>
      if (u.stall k).sb.isEmpty then Retired c (t.coreOf p l) len 0 0 false ∧ (t.stall k).icache = []
      else t.coreOf p l = c)

/-- Loads of a stall and the return of their data. For a stall that issues a load outside the semaphore range: a
misaligned address ends the item as FAULT with cause 4; a buffered store of the same address and size forwards
its data at once; with no overlapping store, an access that the guard allows to a memory that answers becomes
the pending load. The return of granted data without an error, after any wait for the bank, writes the sign- or
zero-extended value to rd, ends the load and advances the pc. LSH, LSW and LSP outside the window return 0 and
set WOOB, and inside it load from the address of R185. (06_stalls_sheds.md R176, R179, R185, R186) -/
def Obligations.StallLoads : Prop :=
  ∀ (s u : State) (p : Fin 68) (l : Fin 16) (dt len rd a : Nat) (imm : Word),
    let k := 16 * p.val + l.val
    let c := u.coreOf p l
    (∀ (fp sg : Bool) (size : Nat),
      let ad := c.rx a + imm
      Issues s p l dt len (.load fp rd a imm size sg) u → isSem ad = false →
      (ad.toNat % size ≠ 0 → u.saveReady k = true →
        Completes (.loadWord p l dt) s fun t => Ended t p l 2 4)
      ∧ (∀ e, ad.toNat % size = 0 → overlap (u.stall k).sb ad.toNat size = some e → e.addr = ad → e.size = size → fp = false →
        sg = false → Completes (.loadWord p l dt) s fun t => Retired c (t.coreOf p l) len rd (BitVec.ofNat 32 e.data) false)
      ∧ (ad.toNat % size = 0 → overlap (u.stall k).sb ad.toNat size = none → (u.stallVerdict k ad.toNat 0).1.cause = 0 →
        u.memReady (u.stallTarget k ad.toNat) = .yes → Completes (.loadWord p l dt) s fun t =>
          (t.stall k).load = some ⟨fp, rd, ad, size, sg, none, true, len⟩ ∧ t.coreOf p l = c))
    ∧ (∀ (d : PendLoad) (waits : Nat), (s.stall k).load = some d → d.granted = true → d.fp = false → d.bit = none →
      Completes (.loadDataReturn p l .none dt waits) s fun t => (t.stall k).load = none
        ∧ Retired (s.coreOf p l) (t.coreOf p l) d.len d.rd
            (let v := leNat (s.readTarget (s.stallTarget k d.addr.toNat) d.size)
             if d.signed then sext (8 * d.size) v else BitVec.ofNat 32 v) false)
    ∧ (∀ (o : Lop) (i : Instr), (o = .lsh ∧ i = .lsh p l dt) ∨ (o = .lsw ∧ i = .lsw p l dt) ∨ (o = .lsp ∧ i = .lsp p l dt) →
      Issues s p l dt len (.l o rd a imm) u →
      (c.slabEA o a imm = none → Completes i s fun t => (rd ≠ 0 → (t.coreOf p l).rx rd = 0)
        ∧ bitOf (t.coreOf p l).dflags 1 = true ∧ (t.coreOf p l).pc = c.pc + BitVec.ofNat 32 len ∧ (t.stall k).load = (u.stall k).load))
    ∧ (∀ ea, c.slabEA .lsh a imm = some ea → Issues s p l dt len (.l .lsh rd a imm) u → isSem ea = false → ea.toNat % 2 = 0 →
      overlap (u.stall k).sb ea.toNat 2 = none → (u.stallVerdict k ea.toNat 0).1.cause = 0 →
      u.memReady (u.stallTarget k ea.toNat) = .yes → Completes (.lsh p l dt) s fun t =>
        (t.stall k).load = some ⟨false, rd, ea, 2, true, none, true, len⟩ ∧ t.coreOf p l = c)
    ∧ (∀ ea, c.slabEA .lsw a imm = some ea → Issues s p l dt len (.l .lsw rd a imm) u → isSem ea = false → ea.toNat % 4 = 0 →
      overlap (u.stall k).sb ea.toNat 4 = none → (u.stallVerdict k ea.toNat 0).1.cause = 0 →
      u.memReady (u.stallTarget k ea.toNat) = .yes → Completes (.lsw p l dt) s fun t =>
        (t.stall k).load = some ⟨false, rd, ea, 4, false, none, true, len⟩ ∧ t.coreOf p l = c)
    ∧ (∀ ea, c.slabEA .lsp a imm = some ea → Issues s p l dt len (.l .lsp rd a imm) u → isSem ea = false → ea.toNat % 4 = 0 →
      overlap (u.stall k).sb ea.toNat 4 = none → (u.stallVerdict k ea.toNat 0).1.cause = 0 →
      u.memReady (u.stallTarget k ea.toNat) = .yes → Completes (.lsp p l dt) s fun t =>
        (t.stall k).load = some ⟨false, rd, ea, 4, false, some ((c.rx a).toNat % 32), true, len⟩ ∧ t.coreOf p l = c)

/-- Stores enter the buffer and drain in order; a read acquires a semaphore. For a stall that issues a store outside
the semaphore range: a misaligned address ends the item as FAULT with cause 6, and with fewer than four stores
buffered the store enters the buffer behind them and the pc advances. The head of a buffer that the guard allows
and whose memory answers leaves the buffer, and its bytes then stand at the place it names. A word read, with no
other access to semaphores of the shed in its cycle, of a free semaphore that is enabled and owned by the item's
slice acquires it and returns 1, or 3 when its orphan mark stood. (06_stalls_sheds.md R178, R191, R199) -/
def Obligations.StallStores : Prop :=
  ∀ (s u : State) (p : Fin 68) (l : Fin 16) (dt len r a : Nat) (imm : Word),
    let k := 16 * p.val + l.val
    let c := u.coreOf p l
    let ad := c.rx a + imm
    (∀ (fp : Bool) (size : Nat), Issues s p l dt len (.store fp r a imm size) u →
      (ad.toNat % size ≠ 0 → u.saveReady k = true →
        Completes (.storeWord p l dt) s fun t => Ended t p l 2 6)
      ∧ (ad.toNat % size = 0 → isSem ad = false → (u.stall k).sb.length < 4 → Completes (.storeWord p l dt) s fun t =>
        (t.stall k).sb = (u.stall k).sb ++ [⟨ad, size, (if fp then c.rf r else c.rx r).toNat % 2 ^ (8 * size)⟩]
        ∧ t.coreOf p l = c.next len ∧ OnlyFields [] { u with pool := t.pool } t))
    ∧ (∀ (waits : Nat) (e : SbEnt) (rest : List SbEnt),
      let tg := s.stallTarget k e.addr.toNat
      (s.stall k).sb = e :: rest → (s.stallVerdict k e.addr.toNat 1).1.cause = 0 → s.memReady tg = .yes →
      ((∃ j o, tg = .localMem j o) ∨ (∃ q o, tg = .shedMem q o) ∨ ∃ h, tg = .hist h) →
      Completes (.storeDrain p l dt waits) s fun t => (t.stall k).sb = rest ∧ t.readTarget tg e.size = leBytes e.size e.data)
    ∧ (
      let n := (ad.toNat - 0x200000) / 4
      let orph := bitOf (u.get (sh F.SHED_SEM_ORPH p)) n
      Issues s p l dt len (.load false r a imm 4 true) u → isSem ad = true → ad.toNat % 4 = 0 → (u.stall k).sb = [] →
      u.semEvents p u.pending = [] → bitOf (u.get (sh F.SHED_SEM_EN p)) n = true → Table.find n (u.shed p).holders = none →
      u.semOwner p n = ((u.stall k).item.map itSlice).getD 0 → Completes (.semaphoreAcquire p l dt) s fun t =>
        Table.find n (t.shed p).holders = some l.val ∧ bitOf (t.get (sh F.SHED_SEM_HELD p)) n = true
        ∧ bitOf (t.get (sh F.SHED_SEM_ORPH p)) n = false
        ∧ Retired c (t.coreOf p l) len r (BitVec.ofNat 32 (1 + 2 * b2n orph)) false)

/-- A write to a semaphore releases it for its holder only. For a stall that issues a store of any size and data to
an aligned address of semaphore n once its store buffer is empty: when the stall holds n, n is released;
otherwise no holder changes and SHED_CNT_SEM_BADREL counts; where the release of this very write was made
earlier in its cycle, for a read that R201 puts behind it, nothing more happens. In every case the store retires
and writes no other register field and no memory. (06_stalls_sheds.md R200) -/
def Obligations.SemaphoreRelease : Prop :=
  ∀ (s u : State) (p : Fin 68) (l : Fin 16) (dt len r a size : Nat) (imm : Word) (fp : Bool),
    let k := 16 * p.val + l.val
    let c := u.coreOf p l
    let ad := c.rx a + imm
    let n := (ad.toNat - 0x200000) / 4
    Issues s p l dt len (.store fp r a imm size) u → isSem ad = true → ad.toNat % size = 0 → (u.stall k).sb = [] →
    Completes (.semaphoreRelease p l dt) s fun t => Retired c (t.coreOf p l) len 0 0 false
      ∧ (u.semWasEarly p n l.val = true → t.shed p = u.shed p ∧ OnlyFields [] { u with pool := t.pool } t)
      ∧ (u.semWasEarly p n l.val = false → Table.find n (u.shed p).holders = some l.val →
          Table.find n (t.shed p).holders = none ∧ bitOf (t.get (sh F.SHED_SEM_HELD p)) n = false
          ∧ OnlyFields [sh F.SHED_SEM_HELD p] { u with pool := t.pool } t)
      ∧ (u.semWasEarly p n l.val = false → Table.find n (u.shed p).holders ≠ some l.val → t.shed p = u.shed p
          ∧ t.get (sh F.SHED_CNT_SEM_BADREL p)
              = satAdd (sh F.SHED_CNT_SEM_BADREL p).width (u.get (sh F.SHED_CNT_SEM_BADREL p)) 1
          ∧ OnlyFields [sh F.SHED_CNT_SEM_BADREL p] { u with pool := t.pool } t)

/-- The services that an item calls. For a stall with an item, an empty store buffer and its local memory ON that
issues ECALL: a7 = 0 ends the item as DONE and a7 = 3 as FAILED with the code in a0, as does the exit stub with
DONE; a7 = 1 with a record beyond U scratch returns 1 or 2 and queues nothing, and one within it of clean
scratch returns what the output store answers for its bytes; a7 = 2 returns device time in a0 to a2; any other
number returns 0xFFFFFFFF and counts in SHED_CNT_BADSVC. TIME, OUTPUT and the unknown service go on at pc + 4.
(06_stalls_sheds.md R190, R192, R195, R249, R251) -/
def Obligations.StallServices : Prop :=
  ∀ (s u : State) (p : Fin 68) (l : Fin 16) (dt len : Nat) (i : Item),
    let k := 16 * p.val + l.val
    let c := u.coreOf p l
    let v := u.trapSave k 8 0
    u.saveReady k = true → (u.stall k).item = some i →
    (Issues s p l dt len .ecall u →
      ((c.rx 17).toNat = 0 → Completes (.doneSvc p l none dt) s fun t => Ended t p l 0 ((c.rx 10).toNat % 256))
      ∧ ((c.rx 17).toNat = 3 → Completes (.failSvc p l none dt) s fun t => Ended t p l 1 ((c.rx 10).toNat % 256))
      ∧ ((c.rx 17).toNat = 2 → Completes (.timeSvc p l none dt) s fun t => (t.coreOf p l).pc = c.pc + 4
          ∧ (t.coreOf p l).rx 10 = BitVec.ofNat 32 (u.nowNs % 1000000000)
          ∧ (t.coreOf p l).rx 11 = BitVec.ofNat 32 (u.nowNs / 1000000000 % 2 ^ 32)
          ∧ (t.coreOf p l).rx 12 = BitVec.ofNat 32 (u.nowNs / 1000000000 / 2 ^ 32 % 65536))
      ∧ (3 < (c.rx 17).toNat → Completes (.badService p l none dt) s fun t => (t.coreOf p l).pc = c.pc + 4
          ∧ (t.coreOf p l).rx 10 = 0xFFFFFFFF
          ∧ t.get (sh F.SHED_CNT_BADSVC p) = satAdd (sh F.SHED_CNT_BADSVC p).width (u.get (sh F.SHED_CNT_BADSVC p)) 1)
      ∧ ((c.rx 17).toNat = 1 → 9216 < (c.rx 11).toNat ∨ 0xEF00 < (c.rx 10).toNat + (c.rx 11).toNat →
          Completes (.outputSvc p l none dt) s fun t => (t.coreOf p l).pc = c.pc + 4
            ∧ ((t.coreOf p l).rx 10 = 1 ∨ (t.coreOf p l).rx 10 = 2) ∧ t.sealSt.store = u.sealSt.store)
      ∧ (∀ b, (c.rx 17).toNat = 1 → (c.rx 11).toNat ≤ 9216 → (c.rx 10).toNat + (c.rx 11).toNat ≤ 0xEF00 →
          v.scratchRead k (c.rx 10).toNat (c.rx 11).toNat = (v, b) →
          let o := v.output i (c.rx 11).toNat (b ++ List.replicate (16 - b.length) 0)
          Completes (.outputSvc p l none dt) s fun t => (t.coreOf p l).pc = c.pc + 4
            ∧ (t.coreOf p l).rx 10 = BitVec.ofNat 32 o.2
            ∧ t.sealSt.store = o.1.sealSt.store))
    ∧ ((s.elapse dt).canIssue k = true → (s.elapse dt).fetch k = (u, .stub) →
      Completes (.doneSvc p l none dt) s fun t => Ended t p l 0 ((c.rx 10).toNat % 256))

/-- Sheds start, initialise and stop; counters clear; semaphores are forced. EN = 1 on a shed that is off and whose
service position is free starts its enable sequence, which ends with cleared memories and its usable stalls
idle, or with ROM_ERR and source 109 + p when its ROM is bad; EN = 0 stops its stalls. CNT_CLR clears every
counter of the shed and nothing else. SEM_FORCE releases each held semaphore named, orphaned.
(06_stalls_sheds.md R202, R205, R206, R208) -/
def Obligations.ShedControl : Prop :=
  (∀ (m : Master) (s : State) (p : Fin 68) (d : Nat), Reaches s m (0x800000 + 0x1000 * p) →
    (bitOf d 0 = true → bitOf d 1 = false → s.bit (sh F.SHED_CTRL_EN p) = false → s.posFree p = true →
      Completes (.shedEnable m p d) s fun t => t.get (sh F.SHED_CTRL_EN p) = 1 ∧ t.get (sh F.SHED_STATUS_RUNNING p) = 1
        ∧ t.get (sh F.SHED_STATUS_INIT_BUSY p) = 1 ∧ t.get (sh F.SHED_STATUS_ROM_ERR p) = 0
        ∧ OnlyFields [sh F.SHED_CTRL_EN p, sh F.SHED_STATUS_RUNNING p, sh F.SHED_STATUS_INIT_BUSY p, sh F.SHED_STATUS_ROM_ERR p] s t)
    ∧ (bitOf d 0 = true → bitOf d 1 = false → s.bit (sh F.SHED_CTRL_EN p) = false → s.posFree p = false →
      Completes (.shedEnable m p d) s fun t => OnlyFields [] s t)
    ∧ (bitOf d 0 = false → s.bit (sh F.SHED_CTRL_EN p) = true →
      Completes (.shedEnable m p d) s fun t => t.get (sh F.SHED_CTRL_EN p) = 0 ∧ t.get (sh F.SHED_STATUS_RUNNING p) = 0
        ∧ ∀ l : Fin 16, t.get (stl F.SHED_STALL_STATn_STATE (16 * p.val + l.val)) = 0)
    ∧ Completes (.cntClr m p) s (fun t => (∀ f ∈ shedCounters, t.get (sh f p) = 0)
        ∧ OnlyFields (shedCounters.map fun f => sh f p) s t))
  ∧ (∀ (s : State) (p : Fin 68), s.bit (sh F.SHED_STATUS_INIT_BUSY p) = true →
    Completes (.shedInitDone p true) s (fun t => t.get (sh F.SHED_STATUS_INIT_BUSY p) = 0 ∧ (t.shed p).mem = []
      ∧ ∀ l : Fin 16, (t.stall (16 * p.val + l.val)).mem = []
        ∧ t.get (stl F.SHED_STALL_STATn_STATE (16 * p.val + l.val)) = (if bitOf (s.get (sh F.SHED_STALL_OK p)) l then 1 else 5))
    ∧ Completes (.shedInitDone p false) s (fun t => t.get (sh F.SHED_STATUS_INIT_BUSY p) = 0 ∧ t.get (sh F.SHED_CTRL_EN p) = 0
      ∧ t.get (sh F.SHED_STATUS_ROM_ERR p) = 1 ∧ t.isPending (109 + p) = true))
  ∧ (∀ (m : Master) (s : State) (p : Fin 68) (d n : Nat), Reaches s m (0x80004C + 0x1000 * p) → n < 32 → bitOf d n = true →
    (Table.find n (s.shed p).holders).isSome = true →
    Completes (.semForce m p d) s fun t => Table.find n (t.shed p).holders = none ∧ bitOf (t.get (sh F.SHED_SEM_HELD p)) n = false
      ∧ bitOf (t.get (sh F.SHED_SEM_ORPH p)) n = true)

/-- Power states of shed banks and stall memories. A write of SHED_BANK_PWR puts each bank into the state its field
names, but for the value 3 and for OFF on a live bank, which stays as it was and sets PWR_REFUSED; a write of
SHED_STALL_PWR does the same for the stalls' memories, and a memory that goes OFF loses its content. A memory
that woke is ON. A bank, or the memory of a stall without an item, that has been idle for BANK_IDLE beats under
power control goes to RETAIN. (06_stalls_sheds.md R203, R204, 17_power_energy.md R510) -/
def Obligations.SramStates : Prop :=
  (∀ (m : Master) (s : State) (p : Fin 68) (d : Nat) (b : Fin 16), Reaches s m (0x800018 + 0x1000 * p) →
    let v := bitsOf d (2 * b) 2
    Completes (.bankPwrWrite m p d) s fun t =>
      (v ≠ 3 → (v = 2 → bitOf (s.get (sh F.SHED_BANK_LIVE p)) b = false) → t.bankState p b = v)
      ∧ (v = 3 → t.bankState p b = s.bankState p b)
      ∧ (v = 2 → bitOf (s.get (sh F.SHED_BANK_LIVE p)) b = true →
          t.bankState p b = s.bankState p b ∧ t.get (sh F.SHED_STATUS_PWR_REFUSED p) = 1)
      ∧ OnlyFields [sh F.SHED_BANK_PWR p, sh F.SHED_STATUS_PWR_REFUSED p] { s with pool := t.pool } t)
  ∧ (∀ (m : Master) (s : State) (p : Fin 68) (d : Nat) (l : Fin 16), Reaches s m (0x800050 + 0x1000 * p) →
    let v := bitsOf d (2 * l) 2
    Completes (.stallPwrWrite m p d) s fun t =>
      t.ramState (16 * p.val + l.val) = (if v = 3 then s.ramState (16 * p.val + l.val) else v)
      ∧ (v = 2 → (t.stall (16 * p.val + l.val)).mem = [])
      ∧ OnlyFields [sh F.SHED_STALL_PWR p] { s with pool := t.pool } t)
  ∧ (∀ (s : State) (p : Fin 68) (b : Fin 16) (dt : Nat),
    ((s.shed p).waking.contains b.val = true →
      Completes (.sramWakeDone p (b.castLE (by decide)) dt) s fun t => t.bankState p b = 0 ∧ (t.shed p).waking.contains b.val = false)
    ∧ ((s.shed p).stallWaking.contains b.val = true →
      Completes (.sramWakeDone p (b.addNat 16) dt) s fun t => t.ramState (16 * p.val + b.val) = 0
        ∧ (t.shed p).stallWaking.contains b.val = false))
  ∧ (∀ (s : State) (p : Fin 68) (b : Fin 16) (dt : Nat), s.bit F.PWR_CTRL = true → s.shedRuns p = true →
    ((s.shed p).waking.contains b.val = false → bitOf (s.get (sh F.SHED_BANK_LIVE p)) b = true → s.bankState p b = 0 →
      s.get F.PWR_POLICY_BANK_IDLE + Table.at 0 b.val (s.shed p).bankBeat ≤ s.beat →
      Completes (.bankIdleExpiry p (b.castLE (by decide)) dt) s fun t => t.bankState p b = 1)
    ∧ (s.ramState (16 * p.val + b.val) = 0 → (s.stall (16 * p.val + b.val)).item = none →
      s.get F.PWR_POLICY_BANK_IDLE + (s.stall (16 * p.val + b.val)).handBeat ≤ s.beat →
      Completes (.bankIdleExpiry p (b.addNat 16) dt) s fun t => t.ramState (16 * p.val + b.val) = 1))

/-- The Groom hands an item to its stall. While dispatch is open, when the dispatch round picks an item for an idle
stall of a shed in service, the stall holds the item with its tier and the time of the hand-over, stands in RUN
at the item's entry point with sp and a0 at the entry block and ra at the exit stub, has an empty store buffer
and no pending load, and GROOM_CNT_DISPATCHED counts; the item is no longer ready. (07_groom_dispatch.md R230,
R231, 06_stalls_sheds.md R188) -/
def Obligations.HandOverItem : Prop :=
  ∀ (s : State) (dt tier x k : Nat) (i : Item),
    let u := s.elapse dt
    let v := ((u.sweep u.groom.ready.length).joinPool).markCap
    u.dispatching = true → v.nextHand = some (i, tier, x) → v.stallPhys x = some k →
    Completes (.handOver dt) s fun t =>
      (∃ j, (t.stall k).item = some j ∧ j.seq = i.seq ∧ j.d = i.d ∧ j.tier = tier ∧ j.stall = some x ∧ j.handAt = s.clk + dt)
      ∧ (t.stall k).core.pc = BitVec.ofNat 32 (dEntry i.d) ∧ (t.stall k).core.rx 2 = 0xEF00 ∧ (t.stall k).core.rx 10 = 0xEF00
      ∧ (t.stall k).core.rx 1 = 0x30000 ∧ (t.stall k).sb = [] ∧ (t.stall k).load = none
      ∧ t.get (stl F.SHED_STALL_STATn_STATE k) = 2
      ∧ t.get F.GROOM_CNT_DISPATCHED = satAdd F.GROOM_CNT_DISPATCHED.width (v.get F.GROOM_CNT_DISPATCHED) 1
      ∧ ∀ j ∈ t.groom.ready, j.seq ≠ i.seq

/-- The Groom's enable, item table, flow records and latches. EN = 1 starts the Groom when every valid descriptor is
one that R212 admits and MIN_Q is in range, and sets CFG_ERR otherwise; EN = 0 drops its ready items. While EN =
0, WRITE stores a platform descriptor that is not refused and answers ERR 2 with the code of R212 otherwise, and
INVALIDATE clears VALID; while EN = 1 both answer ERR 1. READ places the entry or the flow record in the data
registers, WRITE of a flow record sets STATE_LEN and HOME within their ranges, MOVE queues the move it finds
room for, and the statistics and borrow log indexes latch their entries. (07_groom_dispatch.md R210, R212, R217,
R236, R245, R247) -/
def Obligations.GroomTables : Prop :=
  (∀ (m : Master) (s : State) (d : Nat), Reaches s m 0x700000 →
    (bitOf d 0 = true → s.bit F.GROOM_CTRL = false → s.groomOk = true →
      Completes (.groomEnable m d) s fun t => t.get F.GROOM_CTRL = 1 ∧ t.get F.GROOM_STATUS_RUNNING = 1
        ∧ t.get F.GROOM_STATUS_CFG_ERR = 0 ∧ t.groom.ready = [] ∧ t.groom.items = s.groom.items)
    ∧ (bitOf d 0 = true → s.bit F.GROOM_CTRL = false → s.groomOk = false →
      Completes (.groomEnable m d) s fun t => t.get F.GROOM_CTRL = 0 ∧ t.get F.GROOM_STATUS_CFG_ERR = 1
        ∧ OnlyFields [F.GROOM_STATUS_CFG_ERR] s t)
    ∧ (bitOf d 0 = false → Completes (.groomEnable m d) s fun t => t.get F.GROOM_CTRL = 0 ∧ t.get F.GROOM_STATUS_RUNNING = 0
        ∧ t.groom.ready = []))
  ∧ (∀ (m : Master) (s : State), Reaches s m 0x700034 →
    let n := s.get F.GROOM_IACC_IDX
    let d := s.getBytes F.GROOM_IACC_DATAn 16
    (∀ i, i < 16 → Completes (.groomIaccRead m) s fun t => t.groom = s.groom
      ∧ t.get (F.GROOM_IACC_DATAn.idx i) = leAt (s.itemEntry n) (4 * i) 4 % 2 ^ 32)
    ∧ (s.bit F.GROOM_CTRL = false → n < 32768 → (dValid d = true → s.descRefusal false false d = 0) →
      Completes (.groomIaccWrite m) s fun t => Table.at [] n t.groom.items = d ∧ t.get F.GROOM_IACC_CMD_ERR = 0)
    ∧ (s.bit F.GROOM_CTRL = false → n < 32768 → dValid d = true → s.descRefusal false false d ≠ 0 →
      Completes (.groomIaccWrite m) s fun t => t.groom = s.groom ∧ t.get F.GROOM_IACC_CMD_ERR = 2
        ∧ t.get F.GROOM_IACC_CMD_CODE = s.descRefusal false false d ∧ t.get F.GROOM_STATUS_ACC_ERR = 1)
    ∧ (s.bit F.GROOM_CTRL = false → n < 32768 →
      Completes (.groomIaccInvalidate m) s fun t => dValid (Table.at [] n t.groom.items) = false ∧ t.get F.GROOM_IACC_CMD_ERR = 0)
    ∧ (s.bit F.GROOM_CTRL = true ∨ 32768 ≤ n → ∀ i, i = .groomIaccWrite m ∨ i = .groomIaccInvalidate m →
      Completes i s fun t => t.groom = s.groom ∧ t.get F.GROOM_IACC_CMD_ERR = 1 ∧ t.get F.GROOM_STATUS_ACC_ERR = 1))
  ∧ (∀ (m : Master) (s : State), Reaches s m 0x700084 →
    let f := s.get F.GROOM_FACC_IDX
    let b := s.getBytes F.GROOM_FACC_DATAn 4
    (∀ i, i < 4 → Completes (.groomFaccRead m) s fun t => t.groom = s.groom
      ∧ t.get (F.GROOM_FACC_DATAn.idx i) = leAt (s.flowRec f).bytes (4 * i) 4 % 2 ^ 32)
    ∧ (s.bit F.GROOM_CTRL = false → leAt b 4 2 ≤ 1024 → leAt b 6 1 < 64 ∨ leAt b 6 1 = 0x7F → leAt b 9 1 = 0 →
      Completes (.groomFaccWrite m) s fun t => t.flowRec f = { s.flowRec f with len := leAt b 4 2, home := leAt b 6 1 }
        ∧ t.get F.GROOM_FACC_CMD_ERR = 0)
    ∧ (s.bit F.GROOM_CTRL = true → Completes (.groomFaccWrite m) s fun t => t.groom = s.groom ∧ t.get F.GROOM_FACC_CMD_ERR = 3)
    ∧ (∀ (dest : Fin 128) (pos ofs : Nat), (s.flowRec f).movePending = false → (s.flowRec f).pageValid = true →
      s.movable (s.flowRec f).pos = true →
      s.choosePos (if dest.val = 0x7F then (s.flowRec f).home else dest) (64 * (s.flowRec f).len)
        (fun p => p != (s.flowRec f).pos && s.takesPage p && (dest.val == 0x7F || dest.val == p)) = some (pos, ofs) →
      Completes (.movePage m dest) s fun t => t.groom.moves = s.groom.moves ++ [⟨f, pos, ofs, false⟩]
        ∧ (t.flowRec f).movePending = true ∧ t.get F.GROOM_FACC_CMD_ERR = 0)
    ∧ (∀ dest : Fin 128, (s.flowRec f).movePending = true → Completes (.movePage m dest) s fun t =>
        t.groom = s.groom ∧ t.get F.GROOM_FACC_CMD_ERR = 1))
  ∧ (∀ (m : Master) (s : State) (n : Fin 256) (i : Nat), Reaches s m 0x7000A0 → i < 16 →
    Completes (.sstatLatch m n) s fun t => t.get F.GROOM_SSTAT_IDX = n
      ∧ t.get (F.GROOM_SSTAT_DATAn.idx i) = (Table.at (List.replicate 16 0) n.val s.groom.stats).getD i 0 % 2 ^ 32)
  ∧ (∀ (m : Master) (s : State) (n : Fin 8192) (i : Nat), Reaches s m 0x700108 → i < 4 →
    Completes (.blogLatch m n) s fun t => t.get F.GROOM_BLOG_IDX = n
      ∧ t.get (F.GROOM_BLOG_DATAn.idx i) = leAt (Table.at (leBytes 16 0) n.val s.groom.blog) (4 * i) 4 % 2 ^ 32)

/-- The guards start only on a legal configuration; regions change while EN = 0. EN = 1 starts the guards when every
colour lies in 0x02 to 0xFE and every valid region keeps R375, and otherwise sets CFG_ERR and leaves EN = 0; EN
= 0 stops them. While EN = 0 and REGION is 4 or above, WRITE stores an entry that is not valid or keeps R375,
answers ERR 2 for any other, and INVALIDATE clears VALID; READ places the entry in the data registers. While EN
= 1 both answer ERR 1, and REGION below 4 is ERR 3; a refused operation leaves every region as it was.
(12_guards_colours.md R375, R385, R386) -/
def Obligations.GuardTables : Prop :=
  let legal (s : State) : Prop :=
    (∀ n, n < 256 → ∀ c, c = s.scrCol n ∨ c = s.histCol n ∨ c = s.stateCol n → 2 ≤ c ∧ c ≤ 0xFE)
      ∧ ∀ r ∈ s.guard.regions, reValid r.2 = true → reOk r.2 = true
  (∀ (m : Master) (s : State) (d : Nat), Reaches s m 0xD00000 →
    (bitOf d 0 = true → s.bit F.GUARD_CTRL = false → legal s →
      Completes (.guardEnable m d) s fun t => t.get F.GUARD_CTRL = 1 ∧ t.get F.GUARD_STATUS_RUNNING = 1
        ∧ t.get F.GUARD_STATUS_CFG_ERR = 0
        ∧ OnlyFields [F.GUARD_CTRL, F.GUARD_STATUS_RUNNING, F.GUARD_STATUS_CFG_ERR] s t)
    ∧ (bitOf d 0 = true → s.bit F.GUARD_CTRL = false → ¬legal s →
      Completes (.guardEnable m d) s fun t => t.get F.GUARD_CTRL = 0 ∧ t.get F.GUARD_STATUS_CFG_ERR = 1
        ∧ OnlyFields [F.GUARD_STATUS_CFG_ERR] s t)
    ∧ (bitOf d 0 = false → Completes (.guardEnable m d) s fun t => t.get F.GUARD_CTRL = 0 ∧ t.get F.GUARD_STATUS_RUNNING = 0
        ∧ OnlyFields [F.GUARD_CTRL, F.GUARD_STATUS_RUNNING] s t))
  ∧ (∀ (m : Master) (s : State), Reaches s m 0xD00024 →
    let e := s.getBytes F.GUARD_RACC_DATAn 4
    (4 ≤ s.get F.GUARD_RACC_IDX_REGION → ∀ i, i < 4 → Completes (.guardRaccRead m) s fun t => t.guard = s.guard
      ∧ t.get F.GUARD_RACC_CMD_ERR = 0
      ∧ t.get (F.GUARD_RACC_DATAn.idx i) = leAt (Table.at [] s.raccKey s.guard.regions) (4 * i) 4 % 2 ^ 32)
    ∧ (s.bit F.GUARD_CTRL = false → 4 ≤ s.get F.GUARD_RACC_IDX_REGION → (reValid e = true → reOk e = true) →
      Completes (.guardRaccWrite m) s fun t => Table.at [] s.raccKey t.guard.regions = e ∧ t.get F.GUARD_RACC_CMD_ERR = 0
        ∧ (∀ k, k ≠ s.raccKey → Table.at [] k t.guard.regions = Table.at [] k s.guard.regions)
        ∧ OnlyFields [F.GUARD_RACC_CMD_ERR] { s with guard := t.guard } t)
    ∧ (s.bit F.GUARD_CTRL = false → 4 ≤ s.get F.GUARD_RACC_IDX_REGION → reValid e = true → reOk e = false →
      Completes (.guardRaccWrite m) s fun t => t.guard = s.guard ∧ t.get F.GUARD_RACC_CMD_ERR = 2
        ∧ t.get F.GUARD_STATUS_ACC_ERR = 1)
    ∧ (s.bit F.GUARD_CTRL = false → 4 ≤ s.get F.GUARD_RACC_IDX_REGION →
      Completes (.guardRaccInvalidate m) s fun t => reValid (Table.at [] s.raccKey t.guard.regions) = false
        ∧ t.get F.GUARD_RACC_CMD_ERR = 0
        ∧ ∀ k, k ≠ s.raccKey → Table.at [] k t.guard.regions = Table.at [] k s.guard.regions)
    ∧ (s.bit F.GUARD_CTRL = true → ∀ i, i = .guardRaccWrite m ∨ i = .guardRaccInvalidate m →
      Completes i s fun t => t.guard = s.guard ∧ t.get F.GUARD_RACC_CMD_ERR = 1 ∧ t.get F.GUARD_STATUS_ACC_ERR = 1)
    ∧ (s.bit F.GUARD_CTRL = false → s.get F.GUARD_RACC_IDX_REGION < 4 →
      ∀ i, i = .guardRaccRead m ∨ i = .guardRaccWrite m ∨ i = .guardRaccInvalidate m →
      Completes i s fun t => t.guard = s.guard ∧ t.get F.GUARD_RACC_CMD_ERR = 3 ∧ t.get F.GUARD_STATUS_ACC_ERR = 1))

/-- Tags are read and filled, reports popped, slice policies written. Tag READ returns the tag of the granule that
SEL and OFS name; FILL gives that granule the colour written when the range is aligned, lies inside the memory
and, in the yard, touches no group's ring, and answers ERR 2 there. REP_POP discards the oldest report record
and no other, and REP_CNT counts those left. A write of a slice policy sets COUNT_MAX and ACTION, and with CLR
zeroes COUNT and ARMED. (12_guards_colours.md R382, R383, R384, R386) -/
def Obligations.TagsAndReports : Prop :=
  (∀ (m : Master) (s : State) (c : Nat) (tgt : Target) (size g : Nat), Reaches s m 0xD0004C → s.tagMem = some (tgt, size, g) →
    let o := s.get F.GUARD_TAG_OFS
    let n := s.get F.GUARD_TAG_LEN
    let ring := s.get F.GUARD_TAG_SEL_MEM = 0 ∧ ∃ k ∈ s.liveGroups,
      geBase (s.group k).e < o + n ∧ o < geBase (s.group k).e + ringBytes (s.group k).e
    (o % g = 0 → o < size → Completes (.tagRead m c) s fun t => t.get F.GUARD_TAG_CMD_COLOUR = s.tagOf tgt % 256
      ∧ t.get F.GUARD_TAG_CMD_ERR = 0 ∧ OnlyFields [F.GUARD_TAG_CMD_ERR, F.GUARD_TAG_CMD_COLOUR] s t)
    ∧ (o % g = 0 → n % g = 0 → o + n ≤ size → 0 < n → ¬ring → Completes (.fillTags m c) s fun t => t.tagOf tgt = c % 256
      ∧ t.get F.GUARD_TAG_CMD_ERR = 0)
    ∧ (o % g = 0 → n % g = 0 → o + n ≤ size → ring → Completes (.fillTags m c) s fun t => t.get F.GUARD_TAG_CMD_ERR = 2
      ∧ t.yard = s.yard ∧ t.get F.GUARD_STATUS_ACC_ERR = 1)
    ∧ (o % g ≠ 0 → ∀ i, i = .tagRead m c ∨ i = .fillTags m c → Completes i s fun t => t.get F.GUARD_TAG_CMD_ERR = 1
      ∧ OnlyFields [F.GUARD_TAG_CMD_ERR, F.GUARD_TAG_CMD_COLOUR, F.GUARD_STATUS_ACC_ERR] s t))
  ∧ (∀ (m : Master) (s : State) (d : Nat) (r : GuardRep) (rest : List GuardRep), Reaches s m 0xD00064 → bitOf d 0 = true →
    s.guard.reports = r :: rest → Completes (.repPop m d) s fun t => t.guard = { s.guard with reports := rest }
      ∧ t.get F.GUARD_REP_CNT = rest.length % 2 ^ F.GUARD_REP_CNT.width
      ∧ ∀ q, rest.head? = some q → ∀ i, i < 8 → t.get (F.GUARD_REP_DATAn.idx i) = leAt q.bytes (4 * i) 4 % 2 ^ 32)
  ∧ (∀ (m : Master) (s : State) (n : Fin 256) (d : Nat), Reaches s m (0xD00800 + 4 * n) →
    Completes (.polClr m n d) s fun t => t.get (F.GUARD_POLn_COUNT_MAX.idx n) = bitsOf d 16 8
      ∧ t.get (F.GUARD_POLn_ACTION.idx n) = bitsOf d 0 2
      ∧ (bitOf d 15 = true → t.get (F.GUARD_POLn_COUNT.idx n) = 0 ∧ t.get (F.GUARD_POLn_ARMED.idx n) = 0)
      ∧ OnlyFields ([F.GUARD_POLn_COUNT_MAX.idx n, F.GUARD_POLn_ACTION.idx n] ++
          if bitOf d 15 then [F.GUARD_POLn_COUNT.idx n, F.GUARD_POLn_ARMED.idx n] else []) s t)

/-- Publications and templates change while EN = 0; EN = 1 checks them. EN = 1 starts the block when every valid
publication keeps R253 and R254: the hardware's 24 bytes of every valid entry are zeroed and bit 0 of
SEAL_IV_FIXED is the strap; otherwise CFG_ERR is set and EN stays as it is. EN = 0 stops every repetition. READ
places the entry in the data registers. While EN = 0, WRITE stores a legal entry but for the hardware's bytes,
INVALIDATE clears VALID, and a write of TACC_DATA stores four template bytes and advances the offset by 4; while
EN = 1 both answer ERR 1 and the template write is ignored. (08_seal_emit.md R253, R254, R262, R276, R277) -/
def Obligations.SealTables : Prop :=
  (∀ (m : Master) (s : State) (d : Nat), Reaches s m 0x900000 →
    (bitOf d 0 = true → s.sealOk = true →
      Completes (.sealEnable m d) s fun t => t.get F.SEAL_CTRL = 1 ∧ t.get F.SEAL_STATUS_RUNNING = 1
        ∧ t.get F.SEAL_STATUS_CFG_ERR = 0 ∧ t.sealSt.reps = [] ∧ t.get F.SEAL_IV_FIXED % 2 = b2n s.pair.strapB
        ∧ ∀ p ∈ t.sealSt.pubs, puValid p.2 = true → puSeqA p.2 = 0 ∧ puSeqB p.2 = 0 ∧ puDcrc p.2 = 0)
    ∧ (bitOf d 0 = true → s.sealOk = false →
      Completes (.sealEnable m d) s fun t => t.get F.SEAL_CTRL = s.get F.SEAL_CTRL ∧ t.get F.SEAL_STATUS_CFG_ERR = 1
        ∧ OnlyFields [F.SEAL_STATUS_CFG_ERR] s t)
    ∧ (bitOf d 0 = false → Completes (.sealEnable m d) s fun t => t.get F.SEAL_CTRL = 0 ∧ t.get F.SEAL_STATUS_RUNNING = 0
        ∧ t.sealSt = { s.sealSt with reps := [] }))
  ∧ (∀ (m : Master) (s : State), Reaches s m 0x900034 →
    let p := s.get F.SEAL_PACC_IDX
    let e := s.getBytes F.SEAL_PACC_DATAn 16
    (∀ i, i < 16 → Completes (.sealRead m) s fun t => t.sealSt = s.sealSt
      ∧ t.get (F.SEAL_PACC_DATAn.idx i) = leAt (s.pubBytes p) (4 * i) 4 % 2 ^ 32)
    ∧ (s.bit F.SEAL_CTRL = false → (puValid e = true → puOk e = true) →
      Completes (.sealWrite m) s fun t => t.pub p = setLe e 32 24 (leAt (s.pub p) 32 24) ∧ t.get F.SEAL_PACC_CMD_ERR = 0
        ∧ OnlyFields [F.SEAL_PACC_CMD_ERR] { s with sealSt := t.sealSt } t)
    ∧ (s.bit F.SEAL_CTRL = false → puValid e = true → puOk e = false →
      Completes (.sealWrite m) s fun t => t.sealSt = s.sealSt ∧ t.get F.SEAL_PACC_CMD_ERR = 2 ∧ t.get F.SEAL_STATUS_PACC_ERR = 1)
    ∧ (s.bit F.SEAL_CTRL = false →
      Completes (.sealInvalidate m) s fun t => puValid (t.pub p) = false ∧ t.get F.SEAL_PACC_CMD_ERR = 0)
    ∧ (s.bit F.SEAL_CTRL = true → ∀ i, i = .sealWrite m ∨ i = .sealInvalidate m →
      Completes i s fun t => t.sealSt = s.sealSt ∧ t.get F.SEAL_PACC_CMD_ERR = 1 ∧ t.get F.SEAL_STATUS_PACC_ERR = 1))
  ∧ (∀ (m : Master) (s : State) (d : Nat), Reaches s m 0x900084 →
    let o := s.get F.SEAL_TACC_ADDR
    (s.bit F.SEAL_CTRL = false →
      Completes (.taccDataWrite m d) s fun t => Memory.bytes 0 t.sealSt.tpl o 4 = leBytes 4 d
        ∧ t.get F.SEAL_TACC_ADDR = (o + 4) % 2 ^ F.SEAL_TACC_ADDR.width
        ∧ ∀ a, a < o ∨ o + 4 ≤ a → Memory.byte 0 t.sealSt.tpl a = Memory.byte 0 s.sealSt.tpl a)
    ∧ (s.bit F.SEAL_CTRL = true → Completes (.taccDataWrite m d) s fun t => t.sealSt = s.sealSt ∧ OnlyFields [] s t))

/-- A frame is built with its key, or fails; GOOSE repetitions keep their curve. While the block runs, the engine
takes the next frame to build, of the highest egress queue and first in order. With a key that may serve it and
a span that fits, the frame of a beat not yet released holds the built bytes and the key's invocation is
counted; without such a key it fails with KEYFAIL, and SEAL_CNT_KEYFAIL counts. A repetition that falls due with
a usable key raises sqNum by one, wrapping from 0xFFFFFFFF to 1, leaves stNum, and sets the next due time by the
curve; one that falls due in the cycle of the next edge or behind it waits there, to go behind the frames
released at it (R273). (08_seal_emit.md R261, R263, R268, R269, R270, R271, R273) -/
def Obligations.FramesBuilt : Prop :=
  (∀ (s : State) (dt i : Nat) (f : SFrame) (bs : List Byte),
    let u := s.elapse dt
    let iv := if algGmac (puAlg (s.pub f.pub)) then beBytes 4 (s.get F.SEAL_IV_FIXED) ++ beBytes 8 (s.keyE (puKey (s.pub f.pub))).count
      else []
    s.bit F.SEAL_CTRL = true → s.nextBuild = some i → s.sealSt.frames[i]? = some f → f.released = false →
    u.egressKeyOk (s.pub f.pub) = true → u.formed f iv = some bs →
    Completes (.frameBuildDone dt) s fun t => t.sealSt = { s.sealSt with
        frames := s.sealSt.frames.set i { f with st := 1, iv := iv, frame := bs } }
      ∧ (algGmac (s.keyE (puKey (s.pub f.pub))).alg = true →
          (t.keyE (puKey (s.pub f.pub))).count = (s.keyE (puKey (s.pub f.pub))).count + 1))
  ∧ (∀ (s : State) (dt i : Nat) (f : SFrame), s.bit F.SEAL_CTRL = true → s.nextBuild = some i → s.sealSt.frames[i]? = some f →
    f.released = false → (s.elapse dt).egressKeyOk (s.pub f.pub) = false →
    Completes (.frameBuildDone dt) s fun t => t.sealSt = { s.sealSt with frames := s.sealSt.frames.set i { f with st := 3 } }
      ∧ t.get F.SEAL_CNT_KEYFAIL = satAdd F.SEAL_CNT_KEYFAIL.width (s.get F.SEAL_CNT_KEYFAIL) 1 ∧ t.get F.SEAL_STATUS_KEYFAIL = 1)
  ∧ (∀ (s : State) (dt : Nat) (p : Fin 8192) (r : Repeat),
    let u := s.elapse dt
    let e := s.pub p
    let sq := if puSeqB e = 0xFFFFFFFF then 1 else puSeqB e + 1
    s.bit F.SEAL_CTRL = true → Table.find p.val s.sealSt.reps = some r → r.due ≤ s.clk + dt →
    r.frame.pub = p → u.egressKeyOk e = true → u.edgeHere = false → s.sealSt.repWait = [] →
    let iv := if algGmac (puAlg e) then beBytes 4 (s.get F.SEAL_IV_FIXED) ++ beBytes 8 (s.keyE (puKey e)).count else []
    (u.formed { r.frame with rep := r.k, seqB := sq, ttl := ttlOf (r.interval / 1000), st := 0, released := true } iv).isSome = true →
    Completes (.gooseRepetition p dt) s fun t => puSeqB (t.pub p) = sq ∧ puSeqA (t.pub p) = puSeqA e
      ∧ puLastBeat (t.pub p) = s.beat % 2 ^ 64
      ∧ Table.find p.val t.sealSt.reps = some ⟨r.frame, r.due + r.interval, r.k + 1,
          min (r.interval / 1000 * s.get (F.SEAL_CURVEc_A_MULT.idx (puCurve e))) (s.get (F.SEAL_CURVEc_B.idx (puCurve e)) * 1000) * 1000⟩
      ∧ t.get F.SEAL_CNT_REPEAT = satAdd F.SEAL_CNT_REPEAT.width (s.get F.SEAL_CNT_REPEAT) 1)
  ∧ (∀ (s : State) (dt : Nat) (p : Fin 8192) (r : Repeat),
    let u := s.elapse dt
    u.edgeHere = true → Table.find p.val s.sealSt.reps = some r → r.due ≤ u.clk → u.clk - r.due ≤ u.nowNs - edgeNs s.rate s.bt.next →
    Completes (.gooseRepetition p dt) s fun t => t.sealSt = { s.sealSt with repWait := s.sealSt.repWait ++ [p.val] }
      ∧ OnlyFields [] { s with clk := t.clk, dev := t.dev, sealSt := t.sealSt } t)

/-- Doorbells, fetching, staged delivery and the enable of a slice's queues. A doorbell write sets its index; a head
written that leaves its queue non-empty raises the slice's vector. A command is fetched when the queue holds one
and the bucket admits it: SQ_HEAD advances, SLICE_CNT_CMD counts and the entry waits. A DMA fault of a queue
ends the slice's queues, sets DMA_FAULT and raises the slice's source. What is staged is delivered while its
queue has room. EN = 1 starts queues whose configuration is in range and otherwise sets CFG_ERR; EN = 0 ends
them. (11_slices.md R346, R347, R350, R353, R361, R363, R369, R483) -/
def Obligations.SliceQueues : Prop :=
  (∀ (m : Master) (s : State) (n : Fin 256) (d : Nat),
    (Reaches s m (winAddr n 0x1000) → Completes (.sqTailDoorbell m n d) s fun t => t.get (sl F.SLICE_SQ_TAIL n) = d % 2 ^ 32
      ∧ OnlyFields [sl F.SLICE_SQ_TAIL n] s t)
    ∧ (Reaches s m (winAddr n 0x1008) → Completes (.drHeadDoorbell m n d) s fun t => t.get (sl F.SLICE_DR_HEAD n) = d % 2 ^ 32
      ∧ OnlyFields [sl F.SLICE_DR_HEAD n] s t)
    ∧ (Reaches s m (winAddr n 0x1004) → Completes (.cqHeadDoorbell m n d) s fun t => t.get (sl F.SLICE_CQ_HEAD n) = d % 2 ^ 32
      ∧ (s.host.fn = .d0 → bitOf (s.msixWord (4 * n + 3)) 0 = false →
          s.get (sl F.SLICE_CQ_TAIL n) % 2 ^ s.get (sl F.SLICE_CQ_SIZE n) ≠ d % 2 ^ 32 % 2 ^ s.get (sl F.SLICE_CQ_SIZE n) →
          .msix n (s.msixWord (4 * n) + 2 ^ 32 * s.msixWord (4 * n + 1)) (s.msixWord (4 * n + 2)) ∈ t.out)
      ∧ OnlyFields [sl F.SLICE_CQ_HEAD n] s t)
    ∧ (Reaches s m (winAddr n 0x100C) → Completes (.evrHeadDoorbell m n d) s fun t => t.get (sl F.SLICE_EVR_HEAD n) = d % 2 ^ 32
      ∧ OnlyFields [sl F.SLICE_EVR_HEAD n] s t))
  ∧ (∀ (s : State) (n : Fin 256) (e : List Byte) (dt : Nat),
    let size := 2 ^ s.get (sl F.SLICE_SQ_SIZE n)
    s.sliceOpen n = true → s.get (sl F.SLICE_SQ_HEAD n) % size ≠ s.get (sl F.SLICE_SQ_TAIL n) % size → e.length = 128 →
    1000000 ≤ (s.slice n).bucket + (s.clk + dt - (s.slice n).bucketAt) * s.get (sl F.SLICE_RATE_CMD_RATE n) →
    (∀ x ∈ (s.slice n).fetched ++ [e], sqOk x = true) →
    Completes (.commandFetch n (some e) dt) s fun t => (t.slice n).fetched = (s.slice n).fetched ++ [e]
      ∧ t.get (sl F.SLICE_SQ_HEAD n) = (s.get (sl F.SLICE_SQ_HEAD n) + 1) % size % 2 ^ 32
      ∧ t.get (sl F.SLICE_CNT_CMD n) = satAdd 64 (s.get (sl F.SLICE_CNT_CMD n)) 1)
  ∧ (∀ (s : State) (n : Fin 256) (q : Fin 3) (dt : Nat), s.sliceOpen n = true →
    Completes (.stagedDelivery n (some q) dt) s fun t => t.get (sl F.SLICE_CTRL_EN n) = 0 ∧ t.get (sl F.SLICE_STATUS_RUNNING n) = 0
      ∧ t.get (sl F.SLICE_STATUS_DMA_FAULT n) = 1 ∧ t.isPending (192 + n) = true)
  ∧ (∀ (s : State) (n : Fin 256) (dt : Nat) (e : Cqe), s.cqRoom n = true → (s.slice n).lost = 0 → (s.slice n).cqStage = [e] →
    e.typ ≠ 6 → Completes (.stagedDelivery n none dt) s fun t => (t.slice n).cqStage = [] ∧ Posts t n e)
  ∧ (∀ (m : Master) (s : State) (n : Fin 256) (d : Nat), Reaches s m (winAddr n 0) →
    (bitOf d 0 = true → s.bit (sl F.SLICE_CTRL_EN n) = false → s.windowOk n = true → Completes (.sliceEnable m n d) s fun t =>
      t.get (sl F.SLICE_CTRL_EN n) = 1 ∧ t.get (sl F.SLICE_STATUS_RUNNING n) = 1 ∧ t.get (sl F.SLICE_STATUS_CFG_ERR n) = 0
        ∧ t.get (sl F.SLICE_SQ_HEAD n) = 0 ∧ t.get (sl F.SLICE_CTRL_WAKE_EN n) = b2n (bitOf d 1))
    ∧ (bitOf d 0 = true → s.bit (sl F.SLICE_CTRL_EN n) = false → s.windowOk n = false → Completes (.sliceEnable m n d) s fun t =>
      t.get (sl F.SLICE_CTRL_EN n) = 0 ∧ t.get (sl F.SLICE_STATUS_CFG_ERR n) = 1)
    ∧ (bitOf d 0 = false → Completes (.sliceEnable m n d) s fun t => t.get (sl F.SLICE_CTRL_EN n) = 0
        ∧ t.get (sl F.SLICE_STATUS_RUNNING n) = 0
        ∧ OnlyFields [sl F.SLICE_CTRL_EN n, sl F.SLICE_STATUS_RUNNING n, sl F.SLICE_CTRL_WAKE_EN n] s t))

/-- A slice's commands on work, flows and items. For the oldest fetched command of a slice: SUBMIT of a descriptor
that is not refused adds an item to the ready list. With no frame under way FLOW_INSTALL of an entry that keeps
its rules sets the runtime flow, FLOW_REMOVE clears its VALID, REPLAY_RESET its replay state, and FLOW_SET_NEXT
sets KEY_NEXT of an owned flow; each answers OK, and NOT_OWNER for a flow of another slice. FLOW_STATS answers
the ten counters. ITEM_WRITE of a legal descriptor and ITEM_INVALIDATE wait for the next edge, and a refused
descriptor is answered with the code of R212. (11_slices.md R349, R351, 07_groom_dispatch.md R210, R212, R246,
03_check_gate.md R94, R98, R104) -/
def Obligations.SliceFlowsAndItems : Prop :=
  ∀ (s : State) (n : Fin 256) (dt : Nat) (e : List Byte) (rest : List (List Byte)),
    let f := rtFlow n (sqArg e 0 % 256)
    let g := sqArg e 0 % 131072
    let d := sqBody e 64
    let fe := feKeepHw (s.flow f).e d
    let quiet := s.gate.inflight = [] ∧ s.gate.changes = []
    (s.Heads n 0x01 e rest → s.descRefusal true false d = 0 → s.role ≠ 1 → s.role ≠ 2 → s.role ≠ 6 → dSlice d = n →
      Completes (.submit n dt) s fun t => t.groom.ready = s.groom.ready ++ [s.newItem s.beat d none]
        ∧ t.groom.nextSeq = s.groom.nextSeq + 1)
    ∧ (s.Heads n 0x01 e rest → s.descRefusal true false d ≠ 0 → Completes (.submit n dt) s fun t => t.groom.ready = s.groom.ready
        ∧ ∃ r, t.groom.results = s.groom.results ++ [r] ∧ r.slice = n.val)
    ∧ (s.Heads n 0x10 e rest → quiet → s.feAccept f fe = true →
      (feValid fe = true → feSlice fe = n ∧ feKeyCur fe / 256 = n ∧ (feNextValid fe = true → feKeyNext fe / 256 = n)
        ∧ (feGroup fe = 0xFFFF ∨ (feGroup fe < 4096 ∧ geValid (s.group (feGroup fe)).e = true
            ∧ flowFits fe (s.group (feGroup fe)).e = true))) →
      Completes (.flowInstall n dt) s fun t => t.flow f = { FlowEnt.empty with e := fe } ∧ (s.CqReady n → Answers t n e 0 []))
    ∧ (s.Heads n 0x10 e rest → feValid fe = true → feSlice fe ≠ n →
      Completes (.flowInstall n dt) s fun t => t.gate = s.gate ∧ (s.CqReady n → Answers t n e 2 []))
    ∧ (s.Heads n 0x11 e rest → quiet → Completes (.flowRemove n dt) s fun t => feValid (t.flow f).e = false
        ∧ (s.CqReady n → Answers t n e 0 []))
    ∧ (s.Heads n 0x12 e rest → quiet → s.ownsFlow n g = true → Completes (.flowSetNext n dt) s fun t =>
        feKeyNext (t.flow g).e = 256 * n + sqArg e 1 % 256 ∧ feNextValid (t.flow g).e = true ∧ (s.CqReady n → Answers t n e 0 []))
    ∧ (s.Heads n 0x12 e rest → s.ownsFlow n g = false → Completes (.flowSetNext n dt) s fun t => t.gate = s.gate
        ∧ (s.CqReady n → Answers t n e 2 []))
    ∧ (s.Heads n 0x13 e rest → s.CqReady n → Completes (.flowStats n dt) s fun t => t.gate = s.gate
        ∧ if s.ownsFlow n g then Answers t n e 0 ((s.flow g).stats.flatMap (leBytes 4)) else Answers t n e 2 [])
    ∧ (s.Heads n 0x14 e rest → quiet → Completes (.replayReset n dt) s fun t => (t.flow f).rep = Replay.empty
        ∧ (t.flow f).e = (s.flow f).e ∧ (s.CqReady n → Answers t n e 0 []))
    ∧ (s.Heads n 0x20 e rest → (dValid d = true → dSlice d = n ∧ s.descRefusal false true d = 0) →
      Completes (.itemWrite n dt) s fun t => t.groom = { s.groom with
        writes := s.groom.writes ++ [(rtItem n + sqArg e 0 % 128, d, n.val, sqId e, sqQuiet e)] })
    ∧ (s.Heads n 0x20 e rest → dValid d = true → dSlice d = n → s.descRefusal false true d ≠ 0 →
      Completes (.itemWrite n dt) s fun t => t.groom = s.groom
        ∧ (s.CqReady n → Answers t n e 4 (leBytes 1 (s.descRefusal false true d))))
    ∧ (s.Heads n 0x21 e rest → Completes (.itemInvalidate n dt) s fun t => ∃ i, dValid i = false ∧
        t.groom = { s.groom with writes := s.groom.writes ++ [(rtItem n + sqArg e 0 % 128, i, n.val, sqId e, sqQuiet e)] })

/-- A slice's commands on keys, history and the Loft, and their completion. KEY_LOAD hands its block to the vault
and waits; KEY_RETIRE retires a loaded key; KEY_META answers the metadata. HIST_READ, HIST_WRITE and
PROGRAM_LOAD start when their range is right (and, for the writes, while the slice is not held), and are
answered otherwise. A HIST_WRITE whose granules are all granted stores the host's bytes; a HIST_READ that is
granted sends them. LOFT_FREEZE answers the slot taken, LOFT_EXPORT of a HELD slot waits, LOFT_RELEASE frees a
slot, LOFT_SLOT answers its record; slots of others answer NOT_OWNER. (11_slices.md R349, R351,
13_vault_keys_rng.md R399, R403, 05_loft.md R147, R150, R151, R152, 12_guards_colours.md R373, R378) -/
def Obligations.SliceKeysHistoryLoft : Prop :=
  ∀ (s : State) (n : Fin 256) (dt : Nat) (e : List Byte) (rest : List (List Byte)),
    let k := 256 * n.val + sqArg e 0 % 256
    let i := sqArg e 0 % 16
    let len := sqArg e 2 % 2 ^ 32
    let inRange := sqArg e 0 % 256 = 0 ∧ len % 256 = 0 ∧ len ≤ 0x1000000 ∧ sqArg e 0 + len ≤ histSize
    let u := (s.elapse dt).setSlice n fun x => { x with fetched := rest }
    let c : InProg := ⟨sqOp e, sqId e, sqQuiet e, sqArg e 0, sqArg e 1, len, [], s.clk + dt⟩
    (s.Heads n 0x30 e rest → s.vault.cur.isSome = true → Completes (.keyLoad n dt) s fun t =>
      (t.slice n).inProg = (s.slice n).inProg ++ [c] ∧ t.vault.cur = s.vault.cur
        ∧ ∃ v, t.vault.queue = s.vault.queue ++ [v] ∧ v.by' = .slice n (sqId e) (sqQuiet e) ∧ v.op = 1 ∧ leAt v.block 2 2 = k
            ∧ leAt v.block 8 8 = sqArg e 1 ∧ leAt v.block 16 4 = len)
    ∧ (s.Heads n 0x31 e rest → Completes (.keyRetire n dt) s fun t => (t.keyE k).st = (if (s.keyE k).st = 0 then 0 else 3)
        ∧ (s.CqReady n → Answers t n e 0 []))
    ∧ (s.Heads n 0x32 e rest → s.CqReady n → Completes (.keyMeta n dt) s fun t => t.gate = s.gate ∧ Answers t n e 0 (s.keyE k).bytes)
    ∧ (s.Heads n 0x40 e rest → inRange → Completes (.histRead n dt) s fun t => (t.slice n).inProg = (s.slice n).inProg ++ [c])
    ∧ (s.Heads n 0x41 e rest → inRange → s.sliceHeld n = false → Completes (.histWrite n dt) s fun t =>
        (t.slice n).inProg = (s.slice n).inProg ++ [c])
    ∧ (s.Heads n 0x42 e rest → inRange → s.sliceHeld n = false → Completes (.programLoad n dt) s fun t =>
        (t.slice n).inProg = (s.slice n).inProg ++ [c])
    ∧ (s.Heads n 0x41 e rest → s.CqReady n → ¬inRange → Completes (.histWrite n dt) s fun t => Answers t n e 1 [] ∧ t.loft = s.loft)
    ∧ (s.Heads n 0x41 e rest → s.CqReady n → inRange → s.sliceHeld n = true → Completes (.histWrite n dt) s fun t =>
        Answers t n e 3 [] ∧ t.loft = s.loft)
    ∧ (s.Heads n 0x50 e rest → s.CqReady n →
      let r := (u.freezeRequest 2 (some n) (sqArg e 0 % 2 ^ 32) (sqArg e 0 / 2 ^ 32) (sqArg e 1 % 65536) u.nowNs u.beat).2
      Completes (.loftFreeze n dt) s fun t => (∀ j, r = some j → Answers t n e 0 (leBytes 1 j) ∧ (t.frz j).st = 1)
        ∧ (r = none → Answers t n e 9 (leBytes 1 1)))
    ∧ (s.Heads n 0x51 e rest → s.slotForeign n i = false → (s.frz i).st = 2 → Completes (.loftExport n dt) s fun t =>
        t.loft.exports = s.loft.exports ++ [⟨i, 1, n, sqArg e 1, leAt e 32 4, sqArg e 2, leAt e 36 8,
          some (sqId e, sqQuiet e), s.clk + dt⟩])
    ∧ (s.Heads n 0x52 e rest → s.CqReady n → s.slotForeign n i = false → Completes (.loftRelease n dt) s fun t =>
        if (s.frz i).st = 2 ∧ s.exporting i = false then t.frz i = FrzSlot.free ∧ Answers t n e 0 []
        else t.loft = s.loft ∧ Answers t n e 9 (leBytes 1 2))
    ∧ (s.Heads n 0x53 e rest → s.CqReady n → s.slotForeign n i = false → Completes (.loftSlot n dt) s fun t =>
        t.loft = s.loft ∧ Answers t n e 0 (s.frz i).bytes)
    ∧ (∀ p, p = (0x51, Instr.loftExport n dt) ∨ p = (0x52, Instr.loftRelease n dt) ∨ p = (0x53, Instr.loftSlot n dt) →
      s.Heads n p.1 e rest → s.CqReady n → s.slotForeign n i = true → Completes p.2 s fun t => t.loft = s.loft ∧ Answers t n e 2 [])
    ∧ (∀ (w : InProg) (data : List Byte) (ce : Nat) (ue : List Nat),
      (s.slice n).inProg.find? (fun c => decide (0x40 ≤ c.op ∧ c.op ≤ 0x42) && decide (c.a2 < 2 ^ 32)) = some w → w.op = 0x41 →
      w.a2 % 256 = 0 → w.a2 ≤ data.length → (s.elapse dt).histGranted n w.a0 w.a2 = w.a2 / 256 →
      Completes (.dmaCommandDone n data dt ce ue) s fun t =>
        Memory.bytes 0 t.loft.hist (n * histSize + w.a0) w.a2 = data.take w.a2
          ∧ (t.slice n).inProg = (s.slice n).inProg.erase w
          ∧ ∀ a, a < n * histSize + w.a0 ∨ n * histSize + w.a0 + w.a2 ≤ a → Memory.byte 0 t.loft.hist a = Memory.byte 0 s.loft.hist a)
    ∧ (∀ (w : InProg) (data : List Byte) (ce : Nat) (ue : List Nat),
      let base := n * histSize + w.a0
      let bad := ue.filter fun i => decide (256 * i < w.a2)
      (s.slice n).inProg.find? (fun c => decide (0x40 ≤ c.op ∧ c.op ≤ 0x42) && decide (c.a2 < 2 ^ 32)) = some w → w.op = 0x40 →
      0 < w.a2 → w.a2 ≤ data.length →
      (s.elapse dt).dmaAccess 0x492 (some n) 0 (histBase + w.a0) w.a2 = (s.elapse dt, w.a2, true) →
      Completes (.dmaCommandDone n data dt ce ue) s fun t =>
        .dmaWrite (some n.val) w.a1 (Memory.bytes 0 (s.blankHist base bad).loft.hist base w.a2) ∈ t.out ∧ t.loft.hist = s.loft.hist
          ∧ (ue = [] → t.loft = s.loft))

/-- Freeze, thaw, save, restore and clearing of a slice. While no command is busy: FREEZE takes a RUNNING slice to
FREEZING and THAW a FROZEN one to RUNNING, each in effect at the next edge. SAVE of a FROZEN slice with a
migration key goes to SAVING and ends with the blob written, SAVED set and the slice FROZEN again; a buffer too
small is ERR 8, and any other state is ERR 1. RESTORE of a FROZEN slice on an ACTIVE or SOLO device goes to
RESTORING; a blob that is refused changes no item, key or history and ends with the cause, and one that is
accepted replaces the slice's item entries, sets RESTORED and leaves the slice FROZEN. The end of a clearing
leaves history zero and the slice FROZEN for a bind, UNBOUND for an unbind. (11_slices.md R343, R344, R354,
R356, R357, R358, R359, R360) -/
def Obligations.SliceMigration : Prop :=
  (∀ (m : Master) (s : State) (n : Fin 256), Reaches s m (winAddr n 0x64) → s.bit (sl F.SLICE_MIG_CMD_BUSY n) = false →
    (s.sliceState n = 1 → (∀ k ∈ s.sliceList, k < 256) → Completes (.freeze m n) s fun t => t.sliceState n = 2 ∧ (t.slice n).freezeIn = some s.bt.next)
    ∧ (s.sliceState n = 3 → Completes (.thaw m n) s fun t => t.sliceState n = 1 ∧ (t.slice n).thawIn = some s.bt.next)
    ∧ (s.sliceState n = 3 → s.runsItems = true → Completes (.saveSlice m n) s fun t =>
        if s.migKey.isSome then t.sliceState n = 4 ∧ t.get (sl F.SLICE_MIG_CMD_BUSY n) = 1 ∧ t.get (sl F.SLICE_MIG_CMD_ERR n) = 0
        else t.sliceState n = 3 ∧ t.get (sl F.SLICE_MIG_CMD_ERR n) = 9)
    ∧ (s.sliceState n ≠ 3 → Completes (.saveSlice m n) s fun t => t.get (sl F.SLICE_MIG_CMD_ERR n) = 1 ∧ t.isPending (192 + n) = true)
    ∧ (s.sliceState n = 3 → s.role = 4 ∨ s.role = 5 → Completes (.restoreSlice m n) s fun t => t.sliceState n = 5
        ∧ t.get (sl F.SLICE_MIG_CMD_BUSY n) = 1 ∧ t.get (sl F.SLICE_MIG_CMD_ERR n) = 0)
    ∧ (s.sliceState n ≠ 3 → Completes (.restoreSlice m n) s fun t => t.get (sl F.SLICE_MIG_CMD_ERR n) = 1
        ∧ t.isPending (192 + n) = true))
  ∧ (∀ (s : State) (n : Fin 256) (ce : Nat) (ue : List Nat) (dt : Nat),
    let bad := ue.filter fun i => decide (i < 262144)
    let u := (s.elapse dt).histErrors (n * histSize) ce bad
    s.sliceState n = 4 → ((s.slice n).inProg.find? fun c => c.op == 0x103).map (·.a0) = some s.role →
    Completes (.saveDone n none dt ce ue) s fun t => t.sliceState n = 3 ∧ t.get (sl F.SLICE_MIG_CMD_BUSY n) = 0
      ∧ t.isPending (192 + n) = true
      ∧ (s.migKey = none → t.get (sl F.SLICE_MIG_CMD_ERR n) = 9)
      ∧ ∀ id key, s.migKey = some (id, key) →
          let b := (u.blankHist (n * histSize) bad).migBlob n id key
          if s.get (sl F.SLICE_MIG_LEN n) < b.length then t.get (sl F.SLICE_MIG_CMD_ERR n) = 8
          else t.get (sl F.SLICE_MIG_CMD_ERR n) = 0 ∧ t.get (sl F.SLICE_STATUS_SAVED n) = 1
            ∧ t.get (sl F.SLICE_MIG_DONE n) = b.length % 2 ^ 32 ∧ .dmaWrite (some n.val) (s.get (sl F.SLICE_MIG_ADDR n)) b ∈ t.out)
  ∧ (∀ (s : State) (n : Fin 256) (b : List Byte) (dt : Nat), s.sliceState n = 5 → s.role = 4 ∨ s.role = 5 →
    let r := ((s.elapse dt).addTo (sl F.SLICE_CNT_DMA_BYTES n) b.length).blobRefusal n b
    Completes (.restoreDone n b true dt) s fun t => t.sliceState n = 3 ∧ t.get (sl F.SLICE_MIG_CMD_BUSY n) = 0
      ∧ t.get (sl F.SLICE_MIG_CMD_ERR n) = r.1 % 2 ^ 7 ∧ t.isPending (192 + n) = true
      ∧ if r.1 = 0 then t.get (sl F.SLICE_STATUS_RESTORED n) = 1 ∧ (s.role = 4 → t.pair.soloAt.isSome = true)
          ∧ ∀ i, i < 128 → Table.at [] (rtItem n + i) t.groom.items =
              (let d := ((((migSections b).getD []).getD 3 []).drop (64 * i)).take 64; if d.all (· == 0) then [] else d)
        else t.gate = s.gate ∧ t.groom = s.groom ∧ t.loft = s.loft)
  ∧ (∀ (s : State) (n : Fin 256) (dt : Nat) (x : Option (Nat × Nat × Nat × Nat)), (s.slice n).clearing = some x →
    Completes (.sliceClearDone n dt) s fun t => (t.slice n).clearing = none ∧ t.get (sl F.SLICE_STATUS_INIT_BUSY n) = 0
      ∧ t.sliceState n = (if x.isSome then 3 else 0) ∧ t.isPending (192 + n) = true
      ∧ (∀ a, n * histSize ≤ a → a < n * histSize + histSize → Memory.byte 0 t.loft.hist a = 0)
      ∧ ∀ p tn c d, x = some (p, tn, c, d) → t.get (sl F.SLICE_ID_PASID n) = p % 2 ^ 20 ∧ t.get (sl F.SLICE_TENANT n) = tn % 2 ^ 64)

/-- Resets and power states of the PCIe function. PERST asserted, a function-level reset and a hot reset end every
slice's queues and clear the MSI-X table; PERST also takes the function to D3cold. With PERST_N high and
PE_REFCLK present the link trains, and once it is up and PD19 is ON the function is in D0. D3hot is entered from
D0 and left to D0. After every command the LTR value requested is the one that the staged slices ask for.
(11_slices.md R341, R363, R364, R365, R366, R367) -/
def Obligations.PcieStates : Prop :=
  (∀ (s : State) (dt : Nat),
    let ended (t : State) : Prop := t.host.msix = [] ∧ ∀ n, n < 256 → t.get (sl F.SLICE_CTRL_EN n) = 0
    Completes (.perstAssert dt) s (fun t => ended t ∧ t.host.fn = .d3cold ∧ t.host.perstN = false)
    ∧ Completes (.functionLevelReset dt) s (fun t => ended t ∧ t.host.fn = s.host.fn)
    ∧ Completes (.hotReset dt) s (fun t => ended t ∧ t.host.fn = s.host.fn)
    ∧ (s.host.fn = .d3cold → s.host.peRefclk = true → Completes (.perstDeassert dt) s fun t => t.host.fn = .training
        ∧ t.host.perstN = true)
    ∧ (s.host.fn = .d3cold → s.host.peRefclk = false → Completes (.perstDeassert dt) s fun t => t.host.fn = .d3cold
        ∧ t.host.perstN = true)
    ∧ (s.host.fn = .d3cold → s.host.perstN = true → Completes (.peRefclkChange true dt) s fun t => t.host.fn = .training
        ∧ t.host.peRefclk = true)
    ∧ Completes (.peRefclkChange false dt) s (fun t => t.host.fn = s.host.fn ∧ t.host.peRefclk = false)
    ∧ (s.host.fn = .training → s.host.peRefclk = true → s.domState 19 = 0 → s.domWaking 19 = false →
        Completes (.pcieLinkUp dt) s fun t => t.host.fn = .d0)
    ∧ (s.host.fn = .d0 → Completes (.d3hotEntry dt) s fun t => t.host.fn = .d3hot)
    ∧ (s.host.fn = .d3hot → Completes (.d0Entry dt) s fun t => t.host.fn = .d0)
    ∧ (s.Calm → Completes (.ltrSend dt) s fun t => t.host.ltrSent = s.ltrValue ∧ t.clk = s.clk + dt
        ∧ (s.ltrValue ≠ s.host.ltrSent → .ltr s.ltrValue ∈ t.out)))

/-- Slice MAC jobs: waiting, generation, verification and their bounds. MAC_JOB puts the job among those that wait.
When a job in service ends on an idle engine its status is posted to the slice with the result record and
GATE_CNT_JOBS counts: a job that fails its checks with that status; one whose data DMA faulted with 7; a
generation with 0, the invocation's IV and the tag of the data, raising the key's invocation count; a
verification with 0 when the tag agrees and 1 when it does not; a job that nothing let start within TMO µs with
8. (03_check_gate.md R99, R100, R101, 11_slices.md R348, R349) -/
def Obligations.MacJobs : Prop :=
  (∀ (s : State) (n : Fin 256) (dt : Nat) (e : List Byte) (rest : List (List Byte)), s.Heads n 0x02 e rest →
    Completes (.macJob n dt) s fun t => t.gate = { s.gate with jobs := t.gate.jobs, jobRr := t.gate.jobRr }
      ∧ t.gate.jobs.map MacJob.bare = (s.gate.jobs ++ [(⟨n, sqId e, sqQuiet e, sqBody e 64, s.clk + dt, false⟩ : MacJob)]).map MacJob.bare)
  ∧ (∀ (s : State) (i : Nat) (j : MacJob) (data : Option (List Byte)),
    let key := s.keyE (j.slice * 256 + leAt j.body 1 1)
    let res (t : State) (st : Nat) (iv tag : List Byte) : Prop := t.gate.jobs.map MacJob.bare = (s.gate.jobs.eraseIdx i).map MacJob.bare
      ∧ t.get F.GATE_CNT_JOBS = satAdd F.GATE_CNT_JOBS.width (s.get F.GATE_CNT_JOBS) 1
      ∧ Posts t j.slice ⟨3, j.cmdId, 0, 48, 0, macResult st (leAt j.body 2 1) iv tag, []⟩
    s.gate.jobs[i]? = some j → j.started = true → s.engineFree j s.clk = true → s.CqReady j.slice →
    (s.macCheck j key ≠ 0 → Completes (.macJobDone i data) s fun t => res t (s.macCheck j key) [] [] ∧ t.gate.keys = s.gate.keys)
    ∧ (s.macCheck j key = 0 → data = none → Completes (.macJobDone i data) s fun t => res t 7 [] [] ∧ t.gate.keys = s.gate.keys)
    ∧ (∀ d, s.macCheck j key = 0 → data = some d → d.length ≤ leAt j.body 4 4 → leAt j.body 0 1 = 1 →
      let iv := beBytes 4 s.gate.macFixed ++ beBytes 8 key.count
      Completes (.macJobDone i data) s fun t => res t 0 iv (Config.checkValue key.alg key.material iv d)
        ∧ (t.keyE (j.slice * 256 + leAt j.body 1 1)).count = key.count + 1)
    ∧ (∀ d, s.macCheck j key = 0 → data = some d → d.length ≤ leAt j.body 4 4 → leAt j.body 0 1 = 4 →
      Completes (.macJobDone i data) s fun t => t.gate.keys = s.gate.keys ∧
        if Config.checkValue key.alg key.material [] d = (j.body.drop 32).take (tagLenOf key.alg) then res t 0 [] [] else res t 1 [] []))
  ∧ (∀ (s : State) (i dt : Nat) (j : MacJob), s.gate.jobs[i]? = some j → s.CqReady j.slice →
    let late := j.at' + s.get F.GATE_JOB_CFG_TMO * 1000
    j.started = false → s.mayStart late j = false → late ≤ s.clk + dt →
    Completes (.macJobTimeout i dt) s fun t => t.gate = { s.gate with jobs := s.gate.jobs.eraseIdx i }
      ∧ Posts t j.slice ⟨3, j.cmdId, 0, 48, 0, macResult 8 (leAt j.body 2 1) [] [], []⟩)

/-- Public-key jobs are accepted, started, and bounded. A slice's PK_JOB and the platform's GO put the job among
those that wait; on an enabled vault in its ready state it starts on the lowest idle engine in service, and
while the life-cycle state forbids jobs it ends at once with status 13. A job not started within TMO ms ends
with 7; a job on an engine that outlasts its bound ends with 8 and VAULT_CNT_HOLD_TMO counts.
(14_pk_dual_control.md R422, R425, R428, R430, 13_vault_keys_rng.md R416) -/
def Obligations.PkJobsStart : Prop :=
  (∀ (s : State) (n : Fin 256) (dt : Nat) (e : List Byte) (rest : List (List Byte)),
    let j : PkJob := ⟨some n, sqId e, sqBody e 96, s.clk + dt⟩
    (s.Heads n 0x03 e rest → s.mayVault .pkJobs = true → s.get F.VAULT_PK_STATUS_ENG_OK ≠ 0 → s.bit F.VAULT_CTRL = false →
      Completes (.pkJob n dt) s fun t => t.vault = { s.vault with jobs := s.vault.jobs ++ [j] })
    ∧ (∀ k, s.Heads n 0x03 e rest → s.mayVault .pkJobs = true → s.get F.VAULT_PK_STATUS_ENG_OK ≠ 0 → s.bit F.VAULT_CTRL = true →
      s.vaultReady = true → s.vault.jobs = [] → s.pkMay j = true →
      ((List.range 8).filter fun x => s.engOk x && (s.eng x).run.isNone).head? = some k →
      Completes (.pkJob n dt) s fun t => t.vault.jobs = [] ∧ (t.eng k).run = some (j, s.clk + dt))
    ∧ (s.Heads n 0x03 e rest → s.mayVault .pkJobs = false → s.CqReady n → Completes (.pkJob n dt) s fun t =>
        t.vault.jobs = s.vault.jobs ∧ Posts t n ⟨4, sqId e, 0, 48, 0, pkResult (sqBody e 96) 13 0xFF 0 0 0, []⟩))
  ∧ (∀ (m : Master) (s : State) (d : Nat), Reaches s m 0xC00408 → bitOf d 0 = true → s.bit F.VAULT_PK_CMD_BUSY = false →
    s.mayVault .pkJobs = true → s.get F.VAULT_PK_STATUS_ENG_OK ≠ 0 → s.bit F.VAULT_CTRL = false →
    Completes (.pkCmdGo m d) s fun t => t.get F.VAULT_PK_CMD_BUSY = 1
      ∧ t.vault.jobs = s.vault.jobs ++ [⟨none, 0, s.getBytes F.VAULT_PK_DESCn 24, s.clk⟩])
  ∧ (∀ (s : State) (i dt n : Nat) (j : PkJob), s.vault.jobs[i]? = some j → j.slice = some n → s.CqReady n →
    s.get F.VAULT_PK_CFG_TMO * 1000000 ≤ s.clk + dt - j.at' →
    Completes (.pkJobTimeout i dt) s fun t => t.vault.jobs = s.vault.jobs.erase j
      ∧ Posts t n ⟨4, j.cmdId, 0, 48, 0, pkResult j.desc 7 0xFF 0 0 0, []⟩)
  ∧ (∀ (s : State) (e : Fin 8) (dt n t0 : Nat) (j : PkJob), (s.eng e).run = some (j, t0) → j.slice = some n → s.CqReady n →
    s.vault.jobs = [] → pkBound j.desc ≤ s.clk + dt - t0 →
    Completes (.holdBoundExpiry (some e) dt) s fun t => (t.eng e).run = none
      ∧ t.get F.VAULT_CNT_HOLD_TMO = satAdd F.VAULT_CNT_HOLD_TMO.width (s.get F.VAULT_CNT_HOLD_TMO) 1
      ∧ Posts t n ⟨4, j.cmdId, 0, 48, 0, pkResult j.desc 8 e 0 0 (min (s.clk + dt - t0) (2 ^ 32 - 1)), []⟩)

/-- What each public-key operation returns. The job of a slice on an engine ends with its result posted and its
engine free: BAD_JOB for a descriptor that is not one, LENGTH for wrong lengths, 6 for a refused DMA access.
SIGN with a usable key and entropy returns the signature, or SIG_FAULT (5) when the check before release fails;
VERIFY returns 0 or 1, and 10 for an invalid public key; KEYGEN the public form and a blob; DERIVE the shared
secret, or 10; ATTEST the attestation of its subject; RANDOM the bytes drawn. A key that is not usable ends with
its status and detail. (14_pk_dual_control.md R425, R426, R427, R428, R432, R433) -/
def Obligations.PkOperations : Prop :=
  ∀ (s : State) (e : Fin 8) (dt t0 n : Nat) (j : PkJob), (s.eng e).run = some (j, t0) → j.slice = some n → s.CqReady n →
  s.vault.jobs = [] →
  let u := s.elapse dt
  let ends (t : State) (st detail len : Nat) : Prop := (t.eng e).run = none ∧
    Posts t n ⟨4, j.cmdId, 0, 48, 0, pkResult j.desc st e detail len (min (s.clk + dt - t0) (2 ^ 32 - 1)), []⟩
  let gives (t : State) (out : List Byte) : Prop := ends t 0 0 out.length ∧
    (out ≠ [] → .dmaWrite (some n) (pjOut j.desc) out ∈ t.out)
  let alg := pjAlg j.desc
  (∀ (blob msg peer sig nonce : List Byte) (ok good : Bool) (i : Nat × Instr),
    i = (1, .pkSign e blob msg ok good dt) ∨ i = (2, .pkVerify e peer msg sig ok dt) ∨ i = (3, .pkKeygen e ok good dt)
      ∨ i = (4, .pkDerive e blob peer ok good dt) ∨ i = (5, .pkAttest e blob nonce ok good dt) ∨ i = (6, .pkRandom e ok dt) →
    pjOp j.desc = i.1 →
    (j.ok = false → Completes i.2 s fun t => ends t 2 0 0)
    ∧ (j.ok = true → pkLenOk j.desc = false → Completes i.2 s fun t => ends t 11 0 0)
    ∧ (j.ok = true → pkLenOk j.desc = true → s.bit F.VAULT_STATUS_KAT_FAIL = false → ok = false →
        Completes i.2 s fun t => ends t 6 0 0))
  ∧ (j.ok = true → pkLenOk j.desc = true → s.bit F.VAULT_STATUS_KAT_FAIL = false →
    (∀ blob msg : List Byte, pjOp j.desc = 1 →
      Completes (.pkSign e blob msg true true dt) s (fun t => match u.pkKey j blob 0 with
        | (_, .inl (st, c)) => ends t st c 0
        | (v, .inr key) => if (v.drbgReq j.inst).2 then gives t (Config.pkSignature alg (pjPre j.desc) key (msg.take (pjInLen j.desc))
            ((v.drbgReq j.inst).1.freeVal 512)) else ends t 9 0 0)
      ∧ Completes (.pkSign e blob msg true false dt) s (fun t => match u.pkKey j blob 0 with
        | (_, .inl (st, c)) => ends t st c 0
        | (v, .inr _) => if (v.drbgReq j.inst).2 then ends t 5 0 0 ∧ t.isPending 181 = true else ends t 9 0 0))
    ∧ (∀ peer msg sig : List Byte, pjOp j.desc = 2 → Completes (.pkVerify e peer msg sig true dt) s fun t =>
      if peerOk j.desc peer then ends t (if Config.pkVerifies alg (pjPre j.desc) peer (msg.take (pjInLen j.desc))
        (sig.take (sigLen alg)) then 0 else 1) 0 0 else ends t 10 0 0)
    ∧ (pjOp j.desc = 3 → s.vault.root.isSome = true → usageOk (algKtype alg) (pjUsage j.desc) = true →
      Completes (.pkKeygen e true true dt) s fun t =>
        let pub := Config.publicForm (algKtype alg) (Config.drawnKey (algKtype alg) ((u.drbgReq j.inst).1.freeVal 512))
        if (u.drbgReq j.inst).2 then ∃ blob, gives t (pub ++ List.replicate (up8 pub.length - pub.length) 0 ++ blob) else ends t 9 0 0)
    ∧ (pjOp j.desc = 3 → s.vault.root = none → Completes (.pkKeygen e true true dt) s fun t => ends t 3 5 0)
    ∧ (∀ blob peer : List Byte, pjOp j.desc = 4 → Completes (.pkDerive e blob peer true true dt) s fun t =>
      match u.pkKey j blob 1 with
      | (_, .inl (st, c)) => ends t st c 0
      | (v, .inr key) =>
        let secret := Config.sharedSecret alg key peer
        if peerOk j.desc peer = false ∨ (alg = 4 ∧ secret.all (· == 0) = true) then ends t 10 0 0
        else if (v.drbgReq j.inst).2 then gives t secret else ends t 9 0 0)
    ∧ (∀ blob nonce : List Byte, pjOp j.desc = 5 → Completes (.pkAttest e blob nonce true true dt) s fun t =>
      match u.pkSubject j blob with
      | .inl c => ends t 3 c 0
      | .inr x => match (u.attest x nonce).2 with
        | .inl c => if c = 20 then ends t 9 0 0 else ends t 3 c 0
        | .inr bs => gives t bs)
    ∧ (pjOp j.desc = 6 → Completes (.pkRandom e true dt) s fun t =>
        if (u.drbgReq j.inst).2 then gives t ((u.drbgReq j.inst).1.drawn (pjOutLen j.desc)) else ends t 9 0 0))

/-- Vault commands are issued in turn and end with their code and effect. A write of VAULT_CMD while none is busy
queues the command with its block; with nothing in service it is taken at once. At its end the command in
service leaves its code in VAULT_CMD_RES, BUSY clears, source 452 is pending and VAULT_CNT_CMDS counts. A
refusal of R404 changes no key. LOAD loads the key of a blob that opens and is admitted, with STATE LOADED, and
otherwise answers the code; RNG_READ writes the bytes drawn, or answers NO_ENTROPY (20); RESEED reseeds its
instance; SLOT_META returns the slot's record. EN = 1 runs the vault on a legal configuration.
(13_vault_keys_rng.md R394, R397, R399, R402, R403, R404, R409, R412, R413, R415, R623) -/
def Obligations.VaultCommands : Prop :=
  (∀ (m : Master) (s : State) (i : Nat × Instr),
    i = (1, .vaultLoad m) ∨ i = (2, .loadPlain m) ∨ i = (3, .generate m) ∨ i = (4, .wrapOut m) ∨ i = (5, .attest m) ∨ i = (6, .slotGen m)
      ∨ i = (7, .slotImport m) ∨ i = (8, .slotMeta m) ∨ i = (9, .rngRead m) ∨ i = (10, .reseed m) ∨ i = (11, .certRead m) →
    Reaches s m 0xC00030 → s.bit F.VAULT_CMD_BUSY = false →
    let c : VCmd := ⟨.ym, i.1, s.getBytes F.VAULT_CMD_DATAn 16, none⟩
    Completes i.2 s fun t => t.get F.VAULT_CMD_BUSY = 1
      ∧ (s.vault.cur.isSome = true → t.vault = { s.vault with queue := s.vault.queue ++ [c] })
      ∧ (s.vault.cur = none → s.vault.queue = [] → ∃ at', t.vault.cur = some { c with startAt := at' } ∧ t.vault.queue = []
          ∧ (s.vaultReady = true → at' = some s.clk)))
  ∧ (∀ (s : State) (c : VCmd) (t0 dt : Nat) (src : Option (List Byte)), s.vault.cur = some c → c.startAt = some t0 → c.by' = .ym →
    s.vault.queue = [] → ¬(c.op = 10 ∧ s.noEntropy = true) →
    let r := s.vcRefusal c
    let d := s.drbgReq 256
    let e := vcEntry c.block
    Completes (.vaultCmdDone src true dt) s fun t => t.vault.cur = none ∧ t.get F.VAULT_CMD_BUSY = 0 ∧ t.isPending 452 = true
      ∧ t.get F.VAULT_CNT_CMDS = satAdd F.VAULT_CNT_CMDS.width (s.get F.VAULT_CNT_CMDS) 1
      ∧ (r ≠ 0 → t.get F.VAULT_CMD_RES = r % 2 ^ 16 ∧ t.gate = s.gate)
      ∧ (r = 0 → c.op = 1 → ∀ b, src = some b → match s.openBlob .platform (e / 256) (b.take (vcSrcLen c.block)) with
          | .inl k => t.get F.VAULT_CMD_RES = k % 2 ^ 16 ∧ t.gate = s.gate
          | .inr mat =>
            let h := b.take (vcSrcLen c.block)
            let k := s.keyAdmit e (kbKtype h) (kbUsage h) (s.fingerprint mat)
            if k = 0 then t.get F.VAULT_CMD_RES = 0 ∧ (t.keyE e).st = 1 ∧ (t.keyE e).material = mat ∧ (t.keyE e).keyId = kbKeyId h
              ∧ (t.keyE e).alg = kbKtype h ∧ (t.keyE e).usage = kbUsage h
            else t.get F.VAULT_CMD_RES = k % 2 ^ 16 ∧ t.gate = s.gate)
      ∧ (r = 0 → c.op = 9 → if d.2 then t.get F.VAULT_CMD_RES = 0
            ∧ .dmaWrite none (vcDst c.block) (d.1.drawn (vcSrcLen c.block)) ∈ t.out
          else t.get F.VAULT_CMD_RES = 20)
      ∧ (r = 0 → c.op = 10 → t.get F.VAULT_CMD_RES = 0 ∧ (t.drbg e).ready = true ∧ (t.drbg e).count = 0
          ∧ (t.drbg e).fresh = true ∧ t.vault.pool = s.vault.pool.drop 512
          ∧ (512 ≤ s.vault.pool.length → (t.drbg e).seed = bitsNat (s.vault.pool.take 512)))
      ∧ (r = 0 → c.op = 8 → t.get F.VAULT_CMD_RES = 0 ∧ ∀ k, k < 8 →
          t.get (F.VAULT_CMD_OUTn.idx k) = leAt (((s.slot (vcSlot c.block)).rec' ++ leBytes 32 0).take 32) (4 * k) 4 % 2 ^ 32))
  ∧ (∀ (m : Master) (s : State) (d : Nat), Reaches s m 0xC00000 →
    (bitOf d 0 = true → s.bit F.VAULT_CTRL = false → s.vaultOk = true → Completes (.vaultEnable m d) s fun t =>
      t.get F.VAULT_CTRL = 1 ∧ t.get F.VAULT_STATUS_CFG_ERR = 0
        ∧ t.get F.VAULT_STATUS_RUNNING = b2n (!s.bit F.VAULT_STATUS_INIT_BUSY))
    ∧ (bitOf d 0 = true → s.bit F.VAULT_CTRL = false → s.vaultOk = false → Completes (.vaultEnable m d) s fun t =>
      t.get F.VAULT_CTRL = 0 ∧ t.get F.VAULT_STATUS_CFG_ERR = 1 ∧ OnlyFields [F.VAULT_STATUS_CFG_ERR] s t)
    ∧ (bitOf d 0 = false → Completes (.vaultEnable m d) s fun t => t.get F.VAULT_CTRL = 0 ∧ t.get F.VAULT_STATUS_RUNNING = 0
        ∧ OnlyFields [F.VAULT_CTRL, F.VAULT_STATUS_RUNNING] s t))

/-- The vault's start, its noise tests, reseeds, raw noise and the bound of a command. The end of the start sequence
without a failure clears INIT_BUSY and KAT_FAIL, sets RUNNING by EN, takes the voted root key when its check
value holds and admits every source whose start-up test passed. A run of CUT equal bits fails a source: its
counter and FAILED bit are set. The conditioned bits of a window without a failure are gathered, 32 at a time,
where its source is the one in use. After RETEST seconds a removed source runs its start-up test. A DRBG
instance near its limit is reseeded in the background, from the first 512 bits gathered. A raw-noise read
returns the bits where the life-cycle state permits it, else zero. A command that outlasts its bound ends with
code 22. (13_vault_keys_rng.md R388, R389, R406, R407, R408, R409, R410, R411, R412, R413, R416, R418, R419) -/
def Obligations.RandomSources : Prop :=
  (∀ (s : State) (dt : Nat), s.bit F.VAULT_STATUS_INIT_BUSY = true →
    Completes (.vaultStartDone none [] dt) s fun t => t.get F.VAULT_STATUS_INIT_BUSY = 0 ∧ t.get F.VAULT_STATUS_KAT_FAIL = 0
      ∧ t.get F.VAULT_STATUS_RUNNING = b2n (s.bit F.VAULT_CTRL)
      ∧ (let root := (rootVote s.vault.otpRoot).1
         if (Config.hmacSha256 root (ascii "DL-ROOT-KCV")).take 4 = leBytes 4 s.vault.otpKcv then
           t.vault.root = some root ∧ t.get F.VAULT_STATUS_ROOT_FAIL = 0
         else t.vault.root = none ∧ t.get F.VAULT_STATUS_ROOT_FAIL = 1 ∧ t.isPending 180 = true)
      ∧ ∀ i, i < 4 → s.startup i = true → t.inUse i = true)
  ∧ (∀ (s : State) (i : Fin 4) (r : Bool) (dt : Nat), (s.noise i).last = some r →
    s.get F.VAULT_RNG_CFG_RCT_CUT ≤ (s.noise i).run + 1 →
    Completes (.noiseHealthTest i [r] dt) s fun t => bitOf (t.get F.VAULT_RNG_STATUS_FAILED) i = true ∧ t.isPending 180 = true
      ∧ t.get (F.VAULT_CNT_RCTn.idx i) = satAdd F.VAULT_CNT_RCTn.width (s.get (F.VAULT_CNT_RCTn.idx i)) 1
      ∧ (s.pairedOrYard = true → t.inUse i = false))
  ∧ (∀ (s : State) (i : Fin 4) (r : Bool) (dt : Nat),
    let x := s.noise i
    let fb := xor (xor (xor (bitOf x.sreg 31) (bitOf x.sreg 21)) (xor (bitOf x.sreg 1) (bitOf x.sreg 0))) r
    x.pos = 1023 → (x.last = some r → x.run + 1 < s.get F.VAULT_RNG_CFG_RCT_CUT) → 1 < s.get F.VAULT_RNG_CFG_RCT_CUT →
    x.cnt + 1 < s.get F.VAULT_RNG_CFG_APT_CUT → s.startup i = false → s.get F.VAULT_RNG_STATUS_IN_USE = 2 ^ i.val →
    Completes (.noiseHealthTest i [r] dt) s fun t => (t.noise i).cond = [] ∧ (t.noise i).got.length < 32
      ∧ t.vault.pool ++ (t.noise i).got = s.vault.pool ++ x.got ++ x.cond.reverse ++ (if (x.sub + 1) % 16 = 0 then [fb] else []))
  ∧ (∀ (s : State) (i : Fin 4) (t0 dt : Nat), (s.noise i).removedAt = some t0 → s.startup i = false → s.inUse i = false →
    t0 + s.get F.VAULT_RNG_CFG_RETEST * 1000000000 ≤ s.clk + dt →
    Completes (.rngRetest i dt) s fun t => t.startup i = true ∧ (t.noise i).run = 0)
  ∧ (∀ (s : State) (i : Fin 258) (dt : Nat), (s.drbg i).ready = true → 2 ^ 20 - 65536 ≤ (s.drbg i).count → s.noEntropy = false →
    Completes (.drbgReseed i dt) s fun t => (t.drbg i).ready = true ∧ (t.drbg i).count = 0
      ∧ (t.drbg i).fresh = false ∧ t.vault.pool = s.vault.pool.drop 512
      ∧ (512 ≤ s.vault.pool.length → (t.drbg i).seed = bitsNat (s.vault.pool.take 512))
      ∧ t.get F.VAULT_CNT_RESEED = satAdd F.VAULT_CNT_RESEED.width (s.get F.VAULT_CNT_RESEED) 1)
  ∧ (∀ (m : Master) (s : State) (bits : Word), ReadReaches s m 0xC0010C →
    Completes (.rngRawRead m bits) s fun t => t.rdata = (if s.life = 0 ∨ s.life = 1 ∨ s.life = 3 then bits.toNat else 0)
      ∧ OnlyFields [] { s with rdata := t.rdata } t)
  ∧ (∀ (s : State) (c : VCmd) (t0 dt : Nat), s.vault.cur = some c → c.startAt = some t0 → c.by' = .ym → s.vault.queue = [] →
    vaultBound c.op ≤ s.clk + dt - t0 →
    Completes (.holdBoundExpiry none dt) s fun t => t.vault.cur = none ∧ t.get F.VAULT_CMD_RES = 22 ∧ t.get F.VAULT_CMD_BUSY = 0
      ∧ t.isPending 452 = true
      ∧ t.get F.VAULT_CNT_HOLD_TMO = satAdd F.VAULT_CNT_HOLD_TMO.width (s.get F.VAULT_CNT_HOLD_TMO) 1)

/-- Challenges open, expire and are cancelled; custodian entries are shown. While no envelope is in progress: with
fewer than 8 open challenges CHALLENGE opens one drawn from the vault DRBG, shows it and answers code 0, and
with 8 answers code 10; CANCEL closes them all. Challenges past their age are closed. A write of VAULT_CUST_IDX
shows that custodian entry. (14_pk_dual_control.md R436, R437, R439, R446) -/
def Obligations.ChallengesAndCustodians : Prop :=
  (∀ (m : Master) (s : State) (d : Nat), Reaches s m 0xC00504 → s.bit F.VAULT_DC_CMD_BUSY = false →
    let r := s.drbgReq 256
    let c := r.1.drawn 32
    (s.openChals.length < 8 → r.2 = true → Completes (.challenge m d) s fun t => t.vault.chals = s.openChals ++ [(c, s.vaultSecs)]
      ∧ t.get F.VAULT_DC_CMD_CODE = 0 ∧ t.isPending 454 = true
      ∧ t.get F.VAULT_DC_OPEN = (s.openChals.length + 1) % 2 ^ F.VAULT_DC_OPEN.width
      ∧ ∀ i, i < 8 → t.get (F.VAULT_DC_CHALn.idx i) = leAt c (4 * i) 4 % 2 ^ 32)
    ∧ (8 ≤ s.openChals.length → Completes (.challenge m d) s fun t => t.vault.chals = s.openChals ∧ t.get F.VAULT_DC_CMD_CODE = 10
      ∧ t.isPending 454 = true)
    ∧ Completes (.cancelChal m d) s (fun t => t.vault = { s.vault with chals := [] } ∧ t.get F.VAULT_DC_OPEN = 0
      ∧ t.get F.VAULT_DC_CMD_CODE = 0 ∧ t.isPending 454 = true))
  ∧ (∀ (s : State) (dt : Nat), Completes (.challengeExpiry dt) s fun t => t.vault = { s.vault with chals := (s.elapse dt).openChals }
      ∧ t.get F.VAULT_DC_OPEN = (s.elapse dt).openChals.length % 2 ^ F.VAULT_DC_OPEN.width
      ∧ OnlyFields [F.VAULT_DC_OPEN] { s with vault := t.vault, clk := t.clk, dev := t.dev } t)
  ∧ (∀ (m : Master) (s : State) (d : Nat), Reaches s m 0xC00600 →
    Completes (.custIdxWrite m d) s fun t => t.get F.VAULT_CUST_IDX = d % 32 ∧ t.vault = s.vault
      ∧ ∀ i, i < 32 → t.get (F.VAULT_CUST_DATAn.idx i) = leAt (Table.at [] (d % 32) s.vault.cust) (4 * i) 4 % 2 ^ 32)

/-- A dual-control envelope is checked, uses up its challenge, and has its operation's effect. An envelope that is
well formed, permitted and names an open challenge uses that challenge up. When its custodians or signatures
fail, it ends with the step's code and no other effect. When they hold, its operation runs: it ends with code 0
and the operation's effect, or with code 8 (for TRIP_SET 11 or 12) and a detail. Either end clears BUSY, sets
source 454 and raises source 181. (14_pk_dual_control.md R438, R439, R440, R441, R442, 11_slices.md R344,
15_lifecycle_tamper.md R452, R470, 16_events_ledger.md R494, 18_startup_image.md R544) -/
def Obligations.Envelopes : Prop :=
  ∀ (s : State) (dt a at' : Nat) (h : Bool) (e : List Byte) (c : List Byte × Nat),
  let u := s.elapse dt
  let v := u.setChals (u.vault.chals.erase c)
  let b := evBody e
  let sigs := sigSteps (s.evTable e) e
  let n := leAt b 0 1
  let ends (t : State) (code detail : Nat) : Prop := t.vault.envelope = none ∧ t.get F.VAULT_DC_CMD_BUSY = 0
    ∧ t.get F.VAULT_DC_CMD_CODE = code ∧ t.get F.VAULT_DC_DETAIL = detail % 2 ^ 16 ∧ t.isPending 454 = true ∧ t.isPending 181 = true
  s.vault.envelope = some (a, e.length, h, at') → s.lifeSt.trans = none → s.bit F.VAULT_CTRL = true →
  s.bit F.VAULT_STATUS_KAT_FAIL = false → s.get F.VAULT_PK_STATUS_ENG_OK ≠ 0 → s.vaultReady = true →
  evForm e e.length false = true → s.evMay e = true → u.evMatch e = some c →
  (∀ (src : Option (List Byte)) (ok : Bool) (i : Nat × Instr),
    i = (1, .imageAccept e dt) ∨ i = (2, .keyImport e src ok dt) ∨ i = (3, .sliceBind e dt) ∨ i = (4, .sliceUnbind e dt)
      ∨ i = (5, .tripSet e dt) ∨ i = (6, .lifeTransition e dt) ∨ i = (7, .tamperRearm e dt) ∨ i = (8, .ledgerClear e dt) →
    evOp e = i.1 → Completes i.2 s fun t =>
      (sigs ≠ 0 → ends t sigs 0 ∧ t.vault.chals = u.vault.chals.erase c ∧ t.boot = s.boot ∧ t.flash = s.flash ∧ t.lifeSt = s.lifeSt)
      ∧ (sigs = 0 → match i.1 with
        | 1 =>
          if (s.boot.img.map (·.slot)) = some n then ends t 8 1
          else if v.imageDigest n ≠ b.drop 8 then ends t 8 2
          else if s.bit F.GLB_BOOT_STATUS_TRIAL = true then ends t 8 3
          else if (v.formatBad n).isSome = true then ends t 8 0x101
          else if v.imageCause n ≠ 0 then ends t 8 (0x100 + v.imageCause n)
          else
            let r := if s.boot.record.isEmpty then splice blankRecord 256 (custBytes (v.imageCust n)) else s.boot.record
            let w := v.writeRecord (v.rcAccept r n)
            t.flash = w.1.flash ∧ if w.2 = true then ends t 0 0 ∧ t.isPending 186 = true else ends t 8 4
        | 2 =>
          let r := v.vaultRun ⟨.dc, leAt b 0 1, b, none⟩ src ok
          t.gate = r.1.gate ∧ if r.2 = 0 then ends t 0 0 else ends t 8 r.2
        | 3 => if s.sliceState n = 0 ∧ (s.slice n).clearing = none then
            ends t 0 0 ∧ (t.slice n).clearing = some (some (leAt b 4 4, leAt b 8 8, leAt b 16 2, leAt b 18 2))
              ∧ t.get (sl F.SLICE_STATUS_INIT_BUSY n) = 1
          else ends t 8 1 ∧ (t.slice n).clearing = (s.slice n).clearing
        | 4 => if s.sliceState n ≠ 0 ∧ leAt b 8 8 = s.tenant n then ends t 0 0 ∧ (t.slice n).clearing = some none
          else ends t 8 2 ∧ (t.slice n).clearing = (s.slice n).clearing
        | 5 =>
          let x := leAt b 0 2
          if s.tripEntry x = false then t.vault.trips = s.vault.trips ∧ t.get F.VAULT_DC_CMD_CODE = 8
          else if leAt b 8 8 < s.beat + 2 then ends t 11 0 ∧ t.vault.trips = s.vault.trips
          else if (b.drop 16).take 32 ≠ s.argsToBe x then ends t 12 0 ∧ t.vault.trips = s.vault.trips
          else if 16 ≤ s.vault.trips.length then ends t 8 3 ∧ t.vault.trips = s.vault.trips
          else ends t 0 0 ∧ t.vault.trips = s.vault.trips ++ [⟨leAt b 8 8, x, b.drop 48⟩]
        | 6 =>
          if transAllowed s.life n = false then ends t 8 1
          else if s.tokenOk n (b.drop 8) = false then ends t 8 2
          else if n = 2 ∧ ([2, 3, 4].all fun x => (s.digestOf x).isSome) = false then ends t 8 3
          else t.lifeSt.trans = some (n, true) ∧ t.vault.envelope = s.vault.envelope ∧ t.vault.submitted = e
        | 7 =>
          let d := s.rearmDetail (leAt b 0 4) (leAt b 8 4)
          if d ≠ 0 then ends t 8 d ∧ t.get F.TAMP_STICKY = s.get F.TAMP_STICKY
          else ends t 0 0 ∧ t.isPending 183 = true ∧ ∀ k, k < 25 → bitOf (leAt b 0 4) k = true →
            t.sticky k = false ∧ t.get (F.TAMP_RECn_CNT_COUNT.idx k) = 0
        | _ =>
          let last := leAt b 0 4
          let next := s.get F.LDG_NEXT
          if next ≤ last then ends t 8 1
          else if Config.sha384 ((List.range (last + 1)).flatMap s.slotBytes) ≠ b.drop 8 then ends t 8 2
          else if 8192 < next - last - 1 then ends t 8 3
          else if s.bit F.EVT_STATUS_CLEARING = true then ends t 8 4
          else if s.flashOk = false then ends t 8 5
          else ends t 0 0 ∧ t.bit F.EVT_STATUS_CLEARING = true))

/-- Life-cycle commands, OTP programming, grants and tamper sources. While no LIFE_CMD is in progress: TO_BENCH and
TO_SCRAP outside BLANK or during a transition answer ERR 1, with a wrong token ERR 2, and otherwise begin the
programming; SET_DIGEST stores a new digest in BENCH and answers ERR 1, 3, 4 or 5 otherwise; DBG_END ends the
grant. Programming that wrote every copy puts the target state in force, and programming that failed leaves the
state with ERR 5. A grant ends when its duration has passed. An enabled source with N = 1 triggers at an
occurrence: sticky bit, count, time, source 183, and its response; an occurrence of a disabled source shows LIVE
only. The loss of REFCLK is kept. TAMP_CTRL.EN starts on a legal configuration, sets CFG_ERR on another, and EN
= 0 is ignored in BENCH, FIELD and RETURN. (15_lifecycle_tamper.md R450, R451, R453, R462, R463, R464, R465,
R466, R472) -/
def Obligations.LifeCommandsAndTamper : Prop :=
  (∀ (m : Master) (s : State), Reaches s m 0x1000020 → s.bit F.LIFE_CMD_BUSY = false →
    let tok := s.getBytes F.LIFE_CMD_DATAn 8
    let d := s.getBytes F.LIFE_CMD_DATAn 16
    let k := leAt d 0 1
    (∀ i : Nat × Instr, i = (1, .toBench m) ∨ i = (4, .toScrap m) → Completes i.2 s fun t =>
      OnlyFields [F.LIFE_CMD_BUSY, F.LIFE_CMD_ERR] { s with lifeSt := t.lifeSt } t
      ∧ if s.life ≠ 0 ∨ s.lifeSt.trans.isSome then t.get F.LIFE_CMD_ERR = 1 ∧ t.lifeSt = s.lifeSt
        else if s.tokenOk i.1 tok = false then t.get F.LIFE_CMD_ERR = 2 ∧ t.lifeSt = s.lifeSt
        else t.get F.LIFE_CMD_ERR = 0 ∧ t.get F.LIFE_CMD_BUSY = 1 ∧ t.lifeSt = { s.lifeSt with trans := some (i.1, false) })
    ∧ (∀ ok : Bool, Completes (.setDigest m ok) s fun t =>
      (s.life = 1 → 2 ≤ k → k ≤ 5 → s.digestOf k = none → ok = true →
        t.get F.LIFE_CMD_ERR = 0 ∧ t.digestOf k = some (d.drop 16) ∧ (∀ j, j ≠ k → t.digestOf j = s.digestOf j)
          ∧ t.isPending 183 = true)
      ∧ (¬(s.life = 1 ∧ 2 ≤ k ∧ k ≤ 5 ∧ s.digestOf k = none ∧ ok = true) → t.otp = s.otp ∧
          t.get F.LIFE_CMD_ERR = if s.life ≠ 1 then 1 else if k < 2 ∨ 5 < k then 4 else if (s.digestOf k).isSome then 3 else 5))
    ∧ (s.lifeSt.grant ≠ none → Completes (.dbgEnd m) s fun t => t.lifeSt = { s.lifeSt with grant := none }
        ∧ t.get F.LIFE_DBG_LEVEL = 0 ∧ t.dbgLevel = dbgOpenLevel s.life ∧ t.isPending 183 = true))
  ∧ (∀ (s : State) (k : Nat) (dt : Nat), s.lifeSt.trans = some (k, false) →
    Completes (.otpTransitionDone none dt) s (fun t => t.life = k % 8 ∧ t.get F.LIFE_CMD_BUSY = 0 ∧ t.get F.LIFE_CMD_ERR = 0
      ∧ t.lifeSt.trans = none ∧ t.lifeSt.grant = none ∧ t.isPending 183 = true
      ∧ ∀ i, i < 3 → t.otp.copies.getD i 0 = s.otp.copies.getD i 0 ||| lifeCode k)
    ∧ ∀ f : Fin 3, Completes (.otpTransitionDone (some f) dt) s fun t => t.life = s.life ∧ t.get F.LIFE_CMD_BUSY = 0
        ∧ t.get F.LIFE_CMD_ERR = 5 ∧ t.lifeSt = { s.lifeSt with trans := none })
  ∧ (∀ (s : State) (k : Nat) (dt : Nat) (f : Option (Fin 3)), s.lifeSt.trans = some (k, true) →
    Completes (.otpTransitionDone f dt) s fun t => t.life = (if f.isSome then s.life else k % 8) ∧ t.lifeSt.trans = none
      ∧ t.vault.envelope = none ∧ t.get F.VAULT_DC_CMD_CODE = (if f.isSome then 8 else 0)
      ∧ t.get F.VAULT_DC_DETAIL = (if f.isSome then 4 else 0))
  ∧ (∀ (s : State) (t0 dur dt : Nat), s.lifeSt.grant = some (t0, dur) → Completes (.grantExpiry dt) s fun t =>
    if t0 + dur * 1000000000 ≤ s.clk + dt then
      t.lifeSt = { s.lifeSt with grant := none } ∧ t.dbgLevel = dbgOpenLevel s.life ∧ t.isPending 183 = true
    else t.lifeSt = s.lifeSt)
  ∧ (∀ (s : State) (n : Fin 32) (param dt en win r : Nat), n.val < 25 → bitOf (s.get F.TAMP_LIVE) n.val = false → s.lifeSt.mainOn = true →
    s.srcCfg n.val = (en, 1, win, r) → Completes (.tamperOccurrence (some n) param [] dt) s fun t =>
      bitOf (t.get F.TAMP_LIVE) n.val = true
      ∧ (en = 0 → t.lifeSt = s.lifeSt ∧ OnlyFields [F.TAMP_LIVE] { s with clk := t.clk, dev := t.dev } t)
      ∧ (en ≠ 0 → t.sticky n.val = true ∧ t.isPending 183 = true
          ∧ t.get (F.TAMP_RECn_CNT_COUNT.idx n.val) = satAdd 16 (s.get (F.TAMP_RECn_CNT_COUNT.idx n.val)) 1
          ∧ t.get (F.TAMP_RECn_CNT_PARAM.idx n.val) = param % 65536
          ∧ t.get (F.TAMP_RECn_LAST.idx n.val) = (s.elapse dt).mtcHigh
          ∧ (r = 1 ∨ r = 3 → t.bit F.TAMP_STATUS_ALERT = true) ∧ (r = 2 ∨ r = 3 → t.bit F.TAMP_STATUS_LOCKED = true)))
  ∧ (∀ (s : State) (ended : List (Fin 32)) (param dt : Nat), Completes (.tamperOccurrence none param ended dt) s fun t =>
    (∀ i ∈ ended, bitOf (t.get F.TAMP_LIVE) i.val = false) ∧ OnlyFields [F.TAMP_LIVE] { s with clk := t.clk, dev := t.dev } t)
  ∧ (∀ (s : State) (dt : Nat), Completes (.refclkLoss dt) s fun t => t.lifeSt = { s.lifeSt with refclkLost := true }
    ∧ OnlyFields [] { s with clk := t.clk, dev := t.dev, lifeSt := t.lifeSt } t)
  ∧ (∀ (m : Master) (s : State) (d : Nat), Reaches s m 0x1000000 → Completes (.tampEnable m d) s fun t =>
    (bitOf d 0 = true → s.bit F.TAMP_CTRL = false → s.tampOk = true → t.get F.TAMP_CTRL = 1 ∧ t.get F.TAMP_STATUS_RUNNING = 1
      ∧ t.get F.TAMP_STATUS_CFG_ERR = 0)
    ∧ (bitOf d 0 = true → s.bit F.TAMP_CTRL = false → s.tampOk = false → t.get F.TAMP_CTRL = 0 ∧ t.get F.TAMP_STATUS_CFG_ERR = 1)
    ∧ (bitOf d 0 = false → s.life = 1 ∨ s.life = 2 ∨ s.life = 3 → OnlyFields [] s t)
    ∧ (bitOf d 0 = false → ¬(s.life = 1 ∨ s.life = 2 ∨ s.life = 3) → t.get F.TAMP_CTRL = 0 ∧ t.get F.TAMP_STATUS_RUNNING = 0)
    ∧ OnlyFields [F.TAMP_CTRL, F.TAMP_STATUS_RUNNING, F.TAMP_STATUS_CFG_ERR] s t)

/-- TAP instructions: levels, boundary scan, challenge, response and register access. An instruction beyond the
level in force selects BYPASS (0xFF) and has no other effect; at or below it, its code stands in the instruction
register. IDCODE and DBG_STATUS shift out their words, SAMPLE/PRELOAD the pins; EXTEST and its pulse forms drive
the boundary register. DBG_CHAL replaces the open challenge by one drawn from the vault DRBG and shifts it out.
DBG_RESP uses the challenge up: a block that meets R461 puts its grant in force, any other is reported by source
183 and grants nothing. DBG_ACCESS below OBSERVE reads zero and has no effect; a read at OBSERVE or above clears
no register. (15_lifecycle_tamper.md R457, R459, R460, R461, 20_electrical_package.md R592, 19_registers.md
R555, R558) -/
def Obligations.TapInstructions : Prop :=
  ∀ s : State,
  let ir (code level : Nat) : Nat := if level ≤ s.dbgLevel then code else 0xFF
  (∀ p : Nat × Instr, p = (0x01, .idcode) ∨ p = (0x22, .dbgStatus) ∨ p = (0xFF, .bypass) ∨ p = (0x01, .tapReset) →
    Completes p.2 s fun t => t.lifeSt = { s.lifeSt with ir := p.1 } ∧ OnlyFields [] { s with lifeSt := t.lifeSt, rdata := t.rdata } t)
  ∧ Completes .idcode s (fun t => t.rdata = 0x19612 * 2 ^ 12 + Config.jedecCode % 2 ^ 11 * 2 + 1)
  ∧ Completes .dbgStatus s (fun t => t.rdata = s.lifeStateWord + s.lifeDbgWord * 2 ^ 32)
  ∧ (∀ p : Nat × Instr, p = (0x03, .clamp) ∨ p = (0x04, .highz) → Completes p.2 s fun t =>
    t.lifeSt = { s.lifeSt with ir := ir p.1 3 } ∧ OnlyFields [] { s with lifeSt := t.lifeSt } t)
  ∧ (∀ (v : Nat) (p : Nat × Instr), p = (0x00, .extest v) ∨ p = (0x05, .extestPulse v) ∨ p = (0x06, .extestTrain v) →
    Completes p.2 s fun t => t.lifeSt = { s.lifeSt with ir := ir p.1 3, bsr := if 3 ≤ s.dbgLevel then v else s.lifeSt.bsr }
      ∧ OnlyFields [] { s with lifeSt := t.lifeSt } t)
  ∧ (∀ pins v : Nat, Completes (.samplePreload pins v) s fun t => t.rdata = pins ∧ t.lifeSt = { s.lifeSt with ir := 0x02, bsr := v }
      ∧ OnlyFields [] { s with lifeSt := t.lifeSt, rdata := t.rdata } t)
  ∧ Completes .dbgChal s (fun t =>
    let r := s.drbgReq 256
    let c := r.1.drawn 32
    t.lifeSt = { s.lifeSt with ir := 0x20, chal := if r.2 = true then some c else none }
      ∧ t.rdata = if r.2 = true then leNat c else 0)
  ∧ (∀ b : List Byte, Completes (.dbgResp b) s fun t =>
    t.lifeSt.chal = none ∧ t.lifeSt.ir = 0x21 ∧ t.isPending 183 = true
      ∧ if s.grantFail b s.lifeSt.chal = 0 then
          t.lifeSt.grant = some (s.clk, leAt b 4 4) ∧ t.get F.LIFE_DBG_LEVEL = leAt b 2 1 % 4 ∧ t.get F.LIFE_DBG_OWNER = leAt b 3 1 % 2
            ∧ t.dbgLevel = max (dbgOpenLevel s.life) (leAt b 2 1 % 4)
        else t.lifeSt.grant = s.lifeSt.grant ∧ t.get F.LIFE_DBG_LEVEL = s.get F.LIFE_DBG_LEVEL)
  ∧ (∀ (wr ok : Bool) (a d : Nat), s.dbgLevel = 0 → Completes (.dbgAccess wr a d ok) s fun t =>
    t.rdata = 0 ∧ t.lifeSt = { s.lifeSt with ir := 0xFF } ∧ OnlyFields [] { s with lifeSt := t.lifeSt, rdata := t.rdata } t)
  ∧ (∀ (ok : Bool) (a d : Nat), 1 ≤ s.dbgLevel → a % 4 = 0 → s.domAccessible (s.regDomain a) = true → a ≠ 0xC0010C →
    Completes (.dbgAccess false a d ok) s fun t => t.lifeSt = { s.lifeSt with ir := 0x23 }
      ∧ OnlyFields [] { s with lifeSt := t.lifeSt, rdata := t.rdata, shadows := t.shadows } t)
  ∧ (∀ (ok : Bool) (a d : Nat), s.dbgLevel = 1 → a % 4 = 0 → Completes (.dbgAccess true a d ok) s fun t =>
    t.get F.GLB_ACC_STATUS_DBG_WRITE = 1 ∧ t.get F.GLB_ACC_ADDR_CAUSE = 3
      ∧ t.get F.GLB_ACC_CNT = satAdd 64 (s.get F.GLB_ACC_CNT) 1)

/-- Overlapping resets: the power-on reset governs. POR_N going low, in any state and so also during a warm reset,
begins a power-on reset that keeps every BK register. WRST_N going low during a power-on reset changes nothing
but the pin, and otherwise begins a warm reset. POR_N released while WRST_N is low leaves the device in reset;
the release of WRST_N then ends it as a power-on start, timed from that release, with the life-cycle vote of a
power-on start; while POR_N is low it ends nothing. POR_N released while WRST_N is high ends the reset.
(20_electrical_package.md R589) -/
def Obligations.ResetsOverlap : Prop :=
  let bk : List Fld := [F.IDENT_POH_H, F.IDENT_AGE_H, F.IDENT_ERASE_IMG, F.IDENT_ERASE_KEY, F.IDENT_ERASE_LDG, F.IDENT_ERASE_BOOT,
      F.IDENT_STATUS, F.EVT_STATUS_CLEARING, F.LDG_CLR_POS, F.TAMP_STATUS_VBAT_LOST, F.TAMP_STATUS_ALERT, F.TAMP_STATUS_LOCKED,
      F.TAMP_MTC, F.TAMP_STICKY, F.TAMP_CNT_INV]
    ++ (List.range 25).flatMap fun i => [F.TAMP_RECn_FIRST.idx i, F.TAMP_RECn_LAST.idx i, F.TAMP_RECn_CNT_COUNT.idx i,
      F.TAMP_RECn_CNT_PARAM.idx i]
  let started (s t : State) (por : Bool) (mode : Fin 4) (strapB flashOk : Bool) (at' : Nat) : Prop :=
    t.boot.inReset = none ∧ t.boot.relAt = at' ∧ t.boot.mode = mode.val ∧ t.pair.strapB = strapB ∧ t.flashOk = flashOk
      ∧ (por = true → ∀ st, lifeVote s.otp.copies = some st → t.life = st)
      ∧ (por = false → t.life = s.life)
  (∀ (s : State) (off : Bool) (lost : Option (BitVec 64)) (dt : Nat), Completes (.porAssert off lost dt) s fun t =>
    t.boot.inReset = some true ∧ t.boot.porN = false ∧ t.boot.wrstN = s.boot.wrstN ∧ t.get F.GLB_BOOT_STATUS_PHASE = 0
      ∧ t.get F.BEAT_CTRL_EN = 0 ∧ ∀ f ∈ bk, t.get f = s.get f)
  ∧ (∀ (s : State) (dt : Nat), Completes (.wrstAssert dt) s fun t =>
    (s.boot.inReset = some true → t.boot = { s.boot with wrstN := false }
      ∧ OnlyFields [] { s with clk := t.clk, dev := t.dev, boot := t.boot } t)
    ∧ (s.boot.inReset ≠ some true → t.boot.inReset = some false ∧ t.boot.wrstN = false ∧ t.boot.porN = s.boot.porN
      ∧ t.get F.GLB_BOOT_STATUS_PHASE = 0 ∧ t.get F.BEAT_CTRL_EN = 0))
  ∧ (∀ (s : State) (mode : Fin 4) (strapB flashOk : Bool) (dt : Nat), s.boot.porN = false →
    Completes (.porRelease mode strapB flashOk dt) s fun t =>
      (s.boot.wrstN = false → t.boot = { s.boot with porN := true }
        ∧ OnlyFields [] { s with clk := t.clk, dev := t.dev, boot := t.boot } t)
      ∧ (s.boot.wrstN = true → t.boot.porN = true ∧ started s t true mode strapB flashOk (s.clk + dt)))
  ∧ (∀ (s : State) (mode : Fin 4) (strapB flashOk : Bool) (dt : Nat) (por : Bool), s.boot.wrstN = false → s.boot.inReset = some por →
    Completes (.wrstRelease mode strapB flashOk dt) s fun t =>
      (s.boot.porN = false → t.boot = { s.boot with wrstN := true }
        ∧ OnlyFields [] { s with clk := t.clk, dev := t.dev, boot := t.boot } t)
      ∧ (s.boot.porN = true → t.boot.wrstN = true ∧ started s t por mode strapB flashOk (s.clk + dt)))

/-- The device restarts, loads an image or refuses it, and carries out image commands. 1 ms after SCRAP took effect,
and after REFCLK returns, the device restarts: SCRAP stays in phase 1, and without flash it is in NO_IMAGE.
BOOT_OPERATIONAL loads the first candidate: with every check, record and enable passing the device is
OPERATIONAL in phase 6 with that slot; otherwise cause and slot are reported by source 186 and, with no
candidate left, no slot loads. An image command is refused with its ERR, or becomes the one command in progress;
RESTART restarts at once, and is refused in SCRAP only. At its end: ERASE leaves the slot 0xFF, WRITE programs,
a DMA fault gives ERR 3 and a failure ERR 4, DIGEST shows the digest, CONFIRM (and the confirmation timer)
raises the floors and ends the trial, PREFER writes the record. (18_startup_image.md R523, R541, R542, R543,
R547, R548, R549, R553, 15_lifecycle_tamper.md R453, R456, R464) -/
def Obligations.StartsAndImages : Prop :=
  (∀ (s : State) (t0 dt : Nat), s.lifeSt.scrapAt = some t0 → s.life = 4 → Completes (.scrapReset dt) s fun t =>
    if t0 + 1000000 ≤ s.clk + dt then t.lifeSt.scrapAt = none ∧ t.get F.GLB_BOOT_STATUS_PHASE = 1 ∧ t.get F.BEAT_CTRL_EN = 0
    else t.lifeSt = s.lifeSt ∧ OnlyFields [] { s with clk := t.clk, dev := t.dev } t)
  ∧ (∀ (s : State) (dt : Nat), s.lifeSt.refclkLost = true → Completes (.refclkRecovered dt) s fun t =>
    t.lifeSt.refclkLost = false ∧ t.boot.relAt = s.clk + dt ∧ t.get F.BEAT_CTRL_EN = 0
      ∧ (s.life = 4 → t.get F.GLB_BOOT_STATUS_PHASE = 1)
      ∧ (s.life < 4 → s.boot.mode ≠ 3 → s.flashOk = false → t.get F.GLB_BOOT_STATUS_PHASE = 7 ∧ t.get F.GLB_BOOT_STATUS_NO_FLASH = 1))
  ∧ (∀ (s : State) (slot dt : Nat) (own : Bool) (rest : List (Nat × Bool)) (readOk fA fB : Bool) (bad : List (Fin 68)),
    s.boot.cands = (slot, own) :: rest → s.phase = 2 → s.bit F.VAULT_STATUS_INIT_BUSY = false →
    let hs := recSections (s.header slot)
    let a := (s.elapse dt).applySections slot false hs
    let b := a.1.enableAll first2
    let c := b.1.applySections slot true hs
    let d := c.1.enableAll (c.1.enables slot fA fB (bad.map (·.val)))
    Completes (.bootOperational readOk fA fB bad dt) s fun t =>
      let refused (cause : Nat) : Prop := t.isPending 186 = true ∧ (rest = [] → t.get F.GLB_BOOT_CAUSE_CAUSE = cause % 256
        ∧ t.get F.GLB_BOOT_CAUSE_SLOT = slot % 4 ∧ t.get F.GLB_BOOT_STATUS_OPERATIONAL = s.get F.GLB_BOOT_STATUS_OPERATIONAL)
      if readOk = false then refused 11
      else if (s.slotCause slot).1 ≠ 0 then refused (s.slotCause slot).1
      else if a.2 ≠ 0 then t.isPending 186 = true
      else if a.1.groupsOk = false then t.isPending 186 = true
      else if a.1.get F.TUDEL_CFG_DEVICE_ID ≠ hDevice (s.header slot) then t.isPending 186 = true
      else if b.2.isSome then t.isPending 186 = true
      else if c.2 ≠ 0 then t.isPending 186 = true
      else if d.2.isSome then t.isPending 186 = true
      else t.get F.GLB_BOOT_STATUS_OPERATIONAL = 1 ∧ t.get F.GLB_BOOT_STATUS_PHASE = 6 ∧ t.get F.GLB_BOOT_STATUS_SLOT = slot % 4
        ∧ t.boot.img.map (·.slot) = some slot ∧ t.boot.cands = [] ∧ t.isPending 186 = true)
  ∧ (∀ (m : Master) (s : State) (d : Nat), Reaches s m 0x120 → s.bit F.GLB_IMG_CMD_BUSY = false →
    let slot := bitsOf d 8 2
    let err (k : Nat) := s.imgErr k slot (s.get F.GLB_IMG_OFS) (s.get F.GLB_IMG_LEN) (s.get F.GLB_IMG_SRC) (bitOf d 5)
    (∀ i : Nat × Instr, i = (1, .eraseImg m d) ∨ i = (2, .imgWrite m d) ∨ i = (3, .imgDigest m d) ∨ i = (4, .confirm m d)
        ∨ i = (5, .preferImg m d) →
      Completes i.2 s fun t => t.get F.GLB_IMG_CMD_ERR = err i.1 ∧ t.get F.GLB_IMG_CMD_SLOT = slot
        ∧ (err i.1 ≠ 0 → t.boot = s.boot ∧ t.get F.GLB_IMG_CMD_BUSY = 0)
        ∧ (err i.1 = 0 → t.get F.GLB_IMG_CMD_BUSY = 1
            ∧ t.boot.cmd = some (i.1, slot, s.get F.GLB_IMG_SRC, s.get F.GLB_IMG_OFS, s.get F.GLB_IMG_LEN))
        ∧ OnlyFields [F.GLB_IMG_CMD_SLOT, F.GLB_IMG_CMD_HOST, F.GLB_IMG_CMD_ERR, F.GLB_IMG_CMD_BUSY] { s with boot := t.boot } t)
    ∧ Completes (.restartImg m d) s fun t => (s.life = 4 → t.get F.GLB_IMG_CMD_ERR = 7 ∧ t.boot = s.boot)
        ∧ (s.life ≠ 4 → t.boot.relAt = s.clk ∧ t.boot.cmd = none ∧ t.get F.BEAT_CTRL_EN = 0 ∧ t.lifeSt.grant = none))
  ∧ (∀ (s : State) (op slot src ofs len dt : Nat) (data : Option (List Byte)), s.boot.cmd = some (op, slot, src, ofs, len) →
    Completes (.imgCmdDone data false dt) s (fun t => t.boot = { s.boot with cmd := none } ∧ t.get F.GLB_IMG_CMD_BUSY = 0
      ∧ t.get F.GLB_IMG_CMD_ERR = 4 ∧ t.flash = s.flash)
    ∧ Completes (.imgCmdDone data true dt) s fun t => t.boot.cmd = none ∧ t.get F.GLB_IMG_CMD_BUSY = 0
      ∧ (op = 1 → slot < 2 → t.isPending 186 = true
          ∧ ∀ x, slotBase slot ≤ x → x < slotBase slot + slotSize → Memory.byte 0xFF t.flash x = 0xFF)
      ∧ (op = 2 → data = none → t.get F.GLB_IMG_CMD_ERR = 3 ∧ t.flash = s.flash)
      ∧ (op = 2 → slot < 2 → ∀ bs, data = some bs → t.get F.GLB_IMG_CMD_ERR = 0
          ∧ Memory.bytes 0xFF t.flash (slotBase slot + ofs) (min len bs.length)
            = ((bs.take len).zip (s.flashBytes (slotBase slot + ofs) (min len bs.length))).map fun p => p.1 &&& p.2)
      ∧ (op = 3 → t.get F.GLB_IMG_CMD_ERR = 0 ∧ t.flash = s.flash
          ∧ ∀ i, i < 12 → t.get (F.GLB_IMG_DIGESTn.idx i) = leAt (s.imageDigest slot) (4 * i) 4 % 2 ^ 32)
      ∧ (op = 4 → ∀ i, s.boot.img = some i → s.flashOk = true → t.otp.floor = max s.otp.floor (hFloor i.hdr)
          ∧ t.otp.fwFloor = max s.otp.fwFloor i.fwFloor
          ∧ if s.slot0Key.isSome then t.get F.GLB_IMG_CMD_ERR = 0 ∧ t.get F.GLB_BOOT_STATUS_TRIAL = 0 ∧ t.isPending 186 = true
            else t.get F.GLB_IMG_CMD_ERR = 4)
      ∧ (op = 5 → t.get F.GLB_IMG_CMD_ERR = if s.slot0Key.isSome ∧ s.flashOk = true then 0 else 4))
  ∧ (∀ (s : State) (i : ImgSt) (t0 dt : Nat), s.boot.img = some i → s.boot.opAt = some t0 → s.bit F.GLB_BOOT_STATUS_TRIAL = true →
    hAuto i.hdr = true → s.flashOk = true → Completes (.confirmAutoExpiry dt) s fun t =>
      if hConfirm i.hdr ≤ (s.clk + dt - t0) / 1000000000 then t.otp.floor = max s.otp.floor (hFloor i.hdr)
        ∧ (s.slot0Key.isSome → t.get F.GLB_BOOT_STATUS_TRIAL = 0 ∧ t.isPending 186 = true)
      else t.boot = s.boot ∧ t.otp = s.otp)

/-- Register writes and reads, refused accesses, shadows, the scrub and the check of INV fields. A write or read of
a size that R556 does not admit is refused with SIZE, and one whose domain does not answer with DOM_OFF; either
is recorded and counted, writes nothing else, and a refused read returns zero. A write that reaches a register
without a hook changes only that register's fields and WIGN: RO keeps, RW takes the bits, W1C clears them, and
RWD fields keep their value while the block is enabled. A read of the low word of an RLH register returns it and
latches the high word for that master only. A read clears RC fields. A read of an INV field that disagrees with
its shadow records it, counts it and triggers source 23; LIFE_STATE then reads SCRAP. A read by a master other
than the debug port, and the scrub, give every copy of a disagreeing TMR field the voted value and set VOTE.
(19_registers.md R555, R556, R558, R559, R562, R564, R566, 00_scope.md R12, 15_lifecycle_tamper.md R469) -/
def Obligations.RegisterAccess : Prop :=
  let plain (a : Nat) : Prop := ¬(0x80000 ≤ a ∧ a < 0x82028) ∧ ¬(0x300000 ≤ a ∧ a < 0x320000 ∧ a % 0x400 = 0x20) ∧ a ∉ [0x100030, 0x100034, 0x100038, 0x100050, 0x100054, 0xE00010, 0xC0010C]
  let recorded (s t : State) (m : Master) (wr : Bool) (a cause : Nat) (flag : Fld) : Prop :=
    t.get flag = 1 ∧ t.get F.GLB_ACC_ADDR_CAUSE = cause ∧ t.get F.GLB_ACC_ADDR_MASTER = m.code % 4 ∧ t.get F.GLB_ACC_ADDR_WRITE = b2n wr
      ∧ t.get F.GLB_ACC_ADDR_OFFSET = (if 0x4000000 ≤ a then a - 0x4000000 else a) % 2 ^ 26
      ∧ t.get F.GLB_ACC_CNT = satAdd 64 (s.get F.GLB_ACC_CNT) 1
      ∧ OnlyFields [flag, F.GLB_ACC_ADDR_MASTER, F.GLB_ACC_ADDR_WRITE, F.GLB_ACC_ADDR_BAR2, F.GLB_ACC_ADDR_CAUSE,
          F.GLB_ACC_ADDR_OFFSET, F.GLB_ACC_CNT] { s with rdata := t.rdata } t
  (∀ (m : Master) (s : State) (a d len : Nat) (whole ok : Bool), ¬(m = .debug ∧ s.dbgLevel = 0) →
    (writeSizeOk a len whole = false → Completes (.registerWrite m a d len whole ok) s fun t =>
      recorded s t m true a 1 F.GLB_ACC_STATUS_SIZE)
    ∧ (len = 4 → a % 4 = 0 → whole = true → m ≠ .debug → s.domAccessible (s.regDomain a) = false →
      Completes (.registerWrite m a d len whole ok) s fun t => recorded s t m true a 2 F.GLB_ACC_STATUS_DOM_OFF)
    ∧ (len = 4 → a % 4 = 0 → whole = true → Reaches s m a → ¬(0x80000 ≤ a ∧ a < 0x81080) →
      Table.find a (commandHooks (d % 2 ^ 32) ok) = none → instanceHook a (d % 2 ^ 32) = none →
      Completes (.registerWrite m a d len whole ok) s fun t =>
        (findReg a blocks = none → OnlyFields [] s t)
        ∧ ∀ r, findReg a blocks = some r →
          (r.block.wign = none ∨ s.gated r = false → OnlyFields r.fields s t)
          ∧ (∀ f ∈ r.fields, (r.fields.map Fld.key).Nodup → delivers f.key = false → s.gated r = false →
            (f.acc = .ro → t.get f = s.get f)
            ∧ (f.acc = .rw ∨ f.acc = .rwd → t.get f = fieldAfter f (s.get f) r.word (d % 2 ^ 32) % 2 ^ f.width)
            ∧ (f.acc = .w1c → t.get f = (s.get f - (s.get f &&& fieldAfter f 0 r.word (d % 2 ^ 32))) % 2 ^ f.width))
          ∧ (∀ w, s.gated r = true → r.block.wign = some w →
            let k := if r.block.gateMoves then r.inst else 0
            OnlyFields ((r.fields.filter fun f => f.acc != .rwd) ++ [w.1.shift k, w.2.shift k]) s t
            ∧ (delivers (w.1.shift k).key = false → (∃ f ∈ r.fields, s.rwdChanges r.word (d % 2 ^ 32) f = true) →
                t.get (w.1.shift k) = 1))))
  ∧ (∀ (m : Master) (s : State) (a len : Nat), m ≠ .debug →
    (readSizeOk a len = false → Completes (.registerReadRefused m a len) s fun t =>
      t.rdata = 0 ∧ recorded s t m false a 1 F.GLB_ACC_STATUS_SIZE)
    ∧ (0 < len → a % 4 + len ≤ 4 → s.domAccessible (s.regDomain (a / 4 * 4)) = false →
      Completes (.registerReadRefused m a len) s fun t => t.rdata = 0 ∧ recorded s t m false (a / 4 * 4) 2 F.GLB_ACC_STATUS_DOM_OFF))
  ∧ (∀ (m : Master) (s : State) (a dt : Nat) (r : Found) (f : Fld), ReadReaches s m a → a % 4 = 0 → plain a → findReg a blocks = some r →
    r.word = 0 → r.fields = [f] → f.acc = .rlh → f.prot ≠ .inv → s.badOf r.fields = [] → 32 < f.width → (s.elapse dt).refresh a = s.elapse dt →
    Completes (.lowWordRead m a dt) s fun t => t.rdata = s.get f % 2 ^ 32 ∧ t.shadow m (f.off + 4) = s.get f / 2 ^ 32
      ∧ (∀ m' b, ¬(m' = m ∧ b = f.off + 4) → m'.code < 4 → t.shadow m' b = s.shadow m' b)
      ∧ OnlyFields [] { s with clk := t.clk, dev := t.dev, rdata := t.rdata, shadows := t.shadows } t)
  ∧ (∀ (m : Master) (s : State) (a : Nat) (r : Found), ReadReaches s m a → a % 4 = 0 → plain a → findReg a blocks = some r →
    r.word = 0 → s.invBad r.fields = [] → s.badOf r.fields = [] → s.refresh a = s → (∀ f ∈ r.fields, f.acc = .rc ∨ f.acc = .ro ∨ f.acc = .rw) →
    Completes (.readClear m a) s fun t => t.rdata = s.readFields r.fields 0 % 2 ^ 32
      ∧ (∀ f ∈ r.fields, f.acc = .rc → delivers f.key = false → t.get f = 0)
      ∧ OnlyFields (r.fields.filter fun f => f.acc == .rc) { s with rdata := t.rdata } t)
  ∧ (∀ (m : Master) (s : State) (a : Nat) (r : Found), ReadReaches s m a → a % 4 = 0 → plain a → findReg a blocks = some r →
    s.badOf r.fields ≠ [] → Completes (.readClear m a) s fun t => t.get F.GLB_ACC_STATUS_VOTE = 1
      ∧ ∀ k ∈ s.badOf r.fields, Table.find k t.tmr = none)
  ∧ (∀ (m : Master) (s : State) (a : Nat) (r : Found) (f : Fld), ReadReaches s m a → a % 4 = 0 → plain a → findReg a blocks = some r →
    s.invBad r.fields = [f] → f.key ≠ F.TAMP_CNT_INV.key → (∀ g ∈ r.fields, g.acc ≠ .rc) → Completes (.invFieldRead m a) s fun t =>
      t.get F.TAMP_STATUS_INV_ERR = 1 ∧ t.get F.TAMP_CNT_INV = satAdd 64 (s.get F.TAMP_CNT_INV) 1 ∧ t.sticky 23 = true
        ∧ t.isPending 183 = true ∧ (a = 0x1000010 → f = F.LIFE_STATE_STATE → t.life = 4 ∧ t.rdata % 8 = 4))
  ∧ (∀ (s : State) (dt : Nat), (∀ k ∈ s.scrubKeys, ∃ f, fieldOfKey k = some f ∧ f.prot = .tmr) →
    Completes (.tmrScrub dt) s fun t => (∀ k ∈ s.scrubKeys, Table.find k t.tmr = none)
      ∧ (∀ k ∈ s.scrubKeys, ∀ f, fieldOfKey k = some f → delivers f.key = false → t.get f = s.get f % 2 ^ f.width)
      ∧ (s.scrubKeys ≠ [] → t.get F.GLB_ACC_STATUS_VOTE = 1))

/-- The memory test, row repair and the age counters. A write of MTEST_CTRL.EN starts the test on a legal
configuration, sets CFG_ERR on another and stops it with 0. A test step without a defect changes no content: it
ends at most the pass, whose seconds MTEST_PASS then shows. A defect in a unit with rows to spare counts as
found and as a row repair, and takes one more repair record while the area has room. When an hour has passed
POH_H rises by 1 and AGE_H by the advance of R606, and when AGE_LOG_H hours have passed an age record is raised
with source 185. (21_service_life.md R606, R607, R608, R609, R610, R613) -/
def Obligations.MemoryTestAndAge : Prop :=
  (∀ (m : Master) (s : State) (d : Nat), Reaches s m 0x1100000 → Completes (.mtestEnable m d) s fun t =>
    OnlyFields [F.MTEST_CTRL, F.MTEST_STATUS_RUNNING, F.MTEST_STATUS_CFG_ERR] { s with mtest := t.mtest } t
    ∧ (bitOf d 0 = false → t.get F.MTEST_CTRL = 0 ∧ t.get F.MTEST_STATUS_RUNNING = 0 ∧ t.mtest = s.mtest)
    ∧ (bitOf d 0 = true → s.bit F.MTEST_CTRL = false →
        if s.get F.MTEST_CFG_AGE_LOG_H = 0 ∨ s.get F.MTEST_CFG_CE_LIMIT = 0 ∨ s.get F.MTEST_CFG_PASS_M = 0 then
          t.get F.MTEST_STATUS_CFG_ERR = 1 ∧ t.get F.MTEST_CTRL = 0
        else t.get F.MTEST_CTRL = 1 ∧ t.get F.MTEST_STATUS_RUNNING = 1 ∧ t.get F.MTEST_STATUS_CFG_ERR = 0 ∧ t.mtest.passAt = s.clk))
  ∧ (∀ (s : State) (u : MemUnit) (last : Bool) (dt : Nat), s.mtest.found = [] → Completes (.mtestStep u none last dt) s fun t =>
    OnlyFields [F.MTEST_PASS] { s with clk := t.clk, dev := t.dev, mtest := t.mtest } t
    ∧ t.mtest.rows = s.mtest.rows ∧ t.mtest.found = []
    ∧ (last = true → s.bit F.MTEST_CTRL = true → (s.bt.deadline = false ∨ s.bt.decision ≠ none) →
        t.get F.MTEST_PASS = (s.clk + dt - s.mtest.passAt) / 1000000000 % 2 ^ 32 ∧ t.mtest.passAt = s.clk + dt))
  ∧ (∀ (s : State) (u : MemUnit) (o dt : Nat) (last : Bool), s.mtest.found = [] → s.bit F.MTEST_CTRL = true → s.rowsUsed u < 8 →
    s.bt.deadline = false → Completes (.mtestStep u (some o) last dt) s fun t => t.mtest.found = []
      ∧ t.get F.MTEST_CNT_FOUND = satAdd 64 (s.get F.MTEST_CNT_FOUND) 1
      ∧ t.get F.MTEST_CNT_ROWREP = satAdd 64 (s.get F.MTEST_CNT_ROWREP) 1
      ∧ t.isPending 185 = true ∧ t.loft = s.loft ∧ t.yard = s.yard ∧ t.pool = s.pool
      ∧ (s.get F.MTEST_REC < 2048 → t.get F.MTEST_REC = s.get F.MTEST_REC + 1 ∧ t.mtest.rows = rowAdd u s.mtest.rows)
      ∧ (2048 ≤ s.get F.MTEST_REC → t.get F.MTEST_STATUS_REC_FULL = 1 ∧ t.mtest.rows = s.mtest.rows))
  ∧ (∀ (s : State) (dt : Nat), Completes (.ageTick dt) s fun t =>
    let adv := if s.pwr.tempCnt = 0 then ageAdvance (toSigned 16 (s.get F.PWR_TEMP_TJ)) 1 else ageAdvance s.pwr.tempSum s.pwr.tempCnt
    if s.mtest.hourAt + 3600000000000 ≤ s.clk + dt then
      t.get F.IDENT_POH_H = satAdd 32 (s.get F.IDENT_POH_H) 1
      ∧ t.get F.IDENT_AGE_H = satAdd 32 (s.get F.IDENT_AGE_H) ((s.mtest.ageAcc + adv) / 256)
      ∧ t.mtest.ageAcc = (s.mtest.ageAcc + adv) % 256 ∧ t.mtest.hourAt = s.clk + dt ∧ t.pwr.tempCnt = 0
      ∧ OnlyFields [F.IDENT_POH_H, F.IDENT_AGE_H] { s with clk := t.clk, dev := t.dev, mtest := t.mtest, pwr := t.pwr } t
    else t.mtest = s.mtest ∧ OnlyFields [] { s with clk := t.clk, dev := t.dev } t)
  ∧ (∀ (s : State) (dt : Nat), Completes (.ageLogExpiry dt) s fun t =>
    if s.mtest.logAt + s.get F.MTEST_CFG_AGE_LOG_H * 3600000000000 ≤ s.clk + dt then
      t.isPending 185 = true ∧ t.mtest = { s.mtest with logAt := s.clk + dt }
        ∧ OnlyFields [] { s with clk := t.clk, dev := t.dev, mtest := t.mtest } t
    else t.mtest = s.mtest)

/-- Commands of the pair block, the frames it sends, and its timers. PAIR_CTRL.EN brings a legal configuration to
LISTEN (SOLO without pairing) with SYNC COLD, sets CFG_ERR on another, and EN = 0 ends in OFF; FAILED ignores
writes. HANDOVER is taken in ACTIVE only; HANDOVER_COLD with a STANDBY partner, for a whole second ahead; RESYNC
starts a pass where it may; FAILING leads to FAILED and is sent. A HELLO and a HEARTBEAT are sent when due. A
missed heartbeat and a lost link lose the partner: an ACTIVE device is to be SOLO, a HOT standby promotes: it
drops a delta received in part, keeps the one it has acknowledged, and runs the present beat again unless the
run deadline has passed. A resync pass with nothing left sends its end. A transition on ACT_IN_N clears
IL_QUIET; LISTEN ends in SOLO after LISTEN_TMO without one. A probe counts, and counts as failed when its answer
is wrong. The driver test drives the pin and back; a readback that differs is a fault. (09_pairing.md R279,
R283, R284, R289, R297, R299, R300, R301, R302, R305, R306, R308, R309, R311, R313) -/
def Obligations.PairCommandsAndLink : Prop :=
  (∀ (m : Master) (s : State) (d : Nat), Reaches s m 0xA00000 →
    (s.role = 6 → Completes (.pairEnable m d) s fun t => OnlyFields [] s t)
    ∧ (s.role ≠ 6 → bitOf d 0 = true → bitsOf d 2 4 = 0 → s.bit F.PAIR_CTRL_EN = false → s.pairOk = true →
      Completes (.pairEnable m d) s fun t => t.get F.PAIR_CTRL_EN = 1 ∧ t.get F.PAIR_STATUS_RUNNING = 1
        ∧ t.get F.PAIR_STATUS_CFG_ERR = 0 ∧ t.sync = 0 ∧ t.role = (if s.bit F.PAIR_CFG_MODE then 1 else 5) ∧ t.pair.actOut = some true)
    ∧ (s.role ≠ 6 → bitOf d 0 = true → bitsOf d 2 4 = 0 → s.bit F.PAIR_CTRL_EN = false → s.pairOk = false →
      Completes (.pairEnable m d) s fun t => t.get F.PAIR_CTRL_EN = 0 ∧ t.get F.PAIR_STATUS_CFG_ERR = 1
        ∧ OnlyFields [F.PAIR_STATUS_CFG_ERR] s t)
    ∧ (s.role ≠ 6 → bitOf d 0 = false → s.bit F.PAIR_CTRL_EN = true → Completes (.pairEnable m d) s fun t =>
      t.get F.PAIR_CTRL_EN = 0 ∧ t.role = 0 ∧ t.sync = 0 ∧ t.pair.actOut = none)
    ∧ (s.role ≠ 6 → Completes (.pairHandover m) s fun t =>
      (s.role = 4 → t.get F.PAIR_CTRL_HANDOVER = 1 ∧ OnlyFields [F.PAIR_CTRL_HANDOVER] s t)
      ∧ (s.role ≠ 4 → t.get F.PAIR_STATUS_HO_REFUSED = 1 ∧ OnlyFields [F.PAIR_STATUS_HO_REFUSED] s t))
    ∧ (s.role ≠ 6 → 0 < s.rate → Completes (.pairHandoverCold m) s fun t =>
      if (s.role = 4 ∨ s.role = 5) ∧ s.pair.pState = some 2 ∧ s.pair.lost = none then
        t.get F.PAIR_CTRL_HANDOVER_COLD = 1 ∧ ∃ b, t.pair.coldAt = some b ∧ s.beat < b ∧ b % s.rate = 0
      else t.get F.PAIR_STATUS_HO_REFUSED = 1 ∧ t.pair = s.pair)
    ∧ Completes (.pairResync m) s fun t =>
      (s.mayResync = true → t.pair.resync.isSome = true ∧ t.get F.PAIR_CNT_RESYNC = satAdd 64 (s.get F.PAIR_CNT_RESYNC) 1)
      ∧ (s.mayResync = false → OnlyFields [] s t))
  ∧ (∀ (s : State) (o : Option Master), (∀ m, o = some m → Reaches s m 0xA00000) → s.role ≠ 0 → s.role ≠ 6 →
    Completes (.pairFailing o) s fun t => t.role = 6 ∧ t.isPending 178 = true ∧ (s.bit F.PAIR_STATUS_LINK_UP = true → Sends t 9))
  ∧ (∀ (s : State) (dt : Nat), s.role ≠ 0 → s.bit F.PAIR_STATUS_LINK_UP = true →
    (s.pair.helloAt + (if s.role = 1 then 10000 else 1000000) ≤ s.clk + dt → Completes (.helloTx dt) s fun t =>
      Sends t 1 ∧ t.pair.helloAt = s.clk + dt ∧ t.pairSeq = (s.pairSeq + 1) % 2 ^ 32)
    ∧ (s.pair.lastTx + s.hbPeriod ≤ s.clk + dt → Completes (.heartbeatTx dt) s fun t =>
      Sends t 2 ∧ t.pair.lastTx = s.clk + dt ∧ t.pairSeq = (s.pairSeq + 1) % 2 ^ 32))
  ∧ (∀ (s : State) (dt : Nat), s.pair.lost = none → s.pair.pState ≠ none →
    s.pair.lastRx + s.get F.PAIR_HB_CFG_MISS * s.hbPeriod ≤ s.clk + dt → Completes (.heartbeatMiss dt) s fun t =>
      (s.role = 4 ∨ s.role = 5 → t.pair.lost = some 2 ∧ t.role = s.role ∧ t.isPending 178 = true
        ∧ t.get F.PAIR_CNT_LOST = satAdd 64 (s.get F.PAIR_CNT_LOST) 1 ∧ (s.role = 4 → t.pair.soloAt ≠ none))
      ∧ (s.role = 2 → s.sync = 2 → s.bit F.PAIR_STATUS_IL_QUIET = false → s.pair.strapOk = true → tqRuns s.tq = true →
        let rerun := s.bt.running && !s.bt.deadline
        t.role = 3 ∧ t.pair.lost = some 2 ∧ t.get F.PAIR_CNT_PROMOTE = satAdd 64 (s.get F.PAIR_CNT_PROMOTE) 1
          ∧ t.pair.rx = none ∧ t.pair.staged = s.pair.staged ∧ t.pair.promoLate = (s.bt.running && s.bt.deadline)
          ∧ t.get F.PAIR_CNT_RERUN = if rerun then satAdd 64 (s.get F.PAIR_CNT_RERUN) 1 else s.get F.PAIR_CNT_RERUN)
      ∧ (s.role = 2 → s.sync = 2 → s.bit F.PAIR_STATUS_IL_QUIET = true → t.role = 2 ∧ t.sync = 3))
  ∧ (∀ (s : State) (dt : Nat),
    (s.bit F.PAIR_STATUS_LINK_UP = false → s.domState 18 = 0 → s.lrefGone 0 = false → Completes (.pairLinkLock true dt) s fun t =>
      t.get F.PAIR_STATUS_LINK_UP = 1 ∧ t.pair.rxSeq = none ∧ t.role = s.role ∧ t.isPending 178 = true)
    ∧ (s.bit F.PAIR_STATUS_LINK_UP = true → s.role ≠ 2 → Completes (.pairLinkLock false dt) s fun t =>
      t.get F.PAIR_STATUS_LINK_UP = 0 ∧ t.isPending 178 = true
        ∧ (s.role = 4 → s.pair.lost = none → s.pair.pState ≠ none → t.pair.lost = some 1 ∧ t.pair.soloAt ≠ none)))
  ∧ (∀ (s : State) (x : RsTx) (dt : Nat), s.pair.resync = some x → s.role = 5 → x.ended = false → x.trail = [] → x.queue = [] →
    32 ≤ 1024 * s.get F.PAIR_RS_CFG - x.inBeat → s.bit F.PAIR_STATUS_LINK_UP = true → Completes (.resyncFrameSend dt) s fun t =>
      Sends t 8 ∧ t.get F.PAIR_RS_LEFT = 0 ∧ t.pair.resync = some { x with bytes := x.bytes + 32, inBeat := x.inBeat + 32, ended := true })
  ∧ (∀ (s : State) (dt : Nat), Completes (.actInTransition dt) s fun t => t.pair.actIn = (!s.pair.actIn) ∧ t.pair.quiet = 0
    ∧ t.pair.listenMoved = true ∧ t.get F.PAIR_STATUS_IL_QUIET = 0
    ∧ let u := s.elapse dt
      let inside := s.bt.running = true ∧ s.cutoffNs - 60 ≤ u.nowNs ∧ u.nowNs ≤ s.cutoffNs + 230
      (inside → t.pair.inWindow = true ∧ (s.role = 4 ∨ s.role = 5 → t.isPending 178 = true
          ∧ t.get F.PAIR_CNT_SPLIT = satAdd 64 (s.get F.PAIR_CNT_SPLIT) 1))
      ∧ (¬inside → t.pair.inWindow = s.pair.inWindow ∧ t.get F.PAIR_CNT_SPLIT = s.get F.PAIR_CNT_SPLIT))
  ∧ (∀ (s : State) (dt : Nat), s.role = 1 → Completes (.listenTmo dt) s fun t =>
    if s.clk + dt < s.pair.listenAt + s.get F.PAIR_HB_CFG_LISTEN_TMO * 100000000 then t.pair = s.pair ∧ t.role = 1
    else t.isPending 178 = true ∧ t.role = (if s.pair.listenMoved then 1 else 5))
  ∧ (∀ (s : State) (n dt : Nat) (ok : Bool), s.role = 2 → s.bit F.BEAT_CTRL_EN = true → s.bt.deadline = false →
    s.pair.probesDone < s.get F.PAIR_PROBE_CFG → (s.elapse dt).probeStall = some n → Completes (.probeDone ok dt) s fun t =>
      t.get F.PAIR_CNT_PROBES = satAdd 64 (s.get F.PAIR_CNT_PROBES) 1 ∧ t.pair.probesDone = s.pair.probesDone + 1
      ∧ t.get F.PAIR_CNT_PROBE_FAIL = (if ok then s.get F.PAIR_CNT_PROBE_FAIL else satAdd 64 (s.get F.PAIR_CNT_PROBE_FAIL) 1)
      ∧ (ok = false → t.pair.probeFail = true))
  ∧ (∀ (s : State) (rb : Bool),
    let lvl := !(s.pair.actOut.getD true)
    let driven (t : State) (on : Bool) : Prop := t.pair.actOut = some lvl ∧ t.pair.testing = on
      ∧ (rb ≠ lvl → t.get F.PAIR_STATUS_IL_RB_FAULT = 1 ∧ t.isPending 178 = true
          ∧ t.get F.PAIR_CNT_IL_FAULT = satAdd 64 (s.get F.PAIR_CNT_IL_FAULT) 1)
      ∧ (rb = lvl → OnlyFields [] { s with clk := t.clk, frac := t.frac, dev := t.dev, pair := t.pair } t)
    (s.role = 2 → s.pair.testing = false → Completes (.driverTest rb) s fun t => driven t true)
    ∧ (s.pair.testing = true → Completes (.driverTestEnd rb) s fun t => t.clk = s.clk + 1000 ∧ driven t false))

/-- Frames from the partner. A frame that passes the tests of R283 has its type's effect. HELLO in LISTEN: equal
straps keep LISTEN; an ACTIVE or SOLO partner makes a cold STANDBY, a STANDBY or FAILED one SOLO, and two
listeners follow PREFER. HEARTBEAT shows the health word and the skew. A delta of one frame is acknowledged by a
standby with its status; OK stages it, anything else counts as NACK and leaves the staged delta. An ACK of the
present beat is kept with its round trip, but that one in the cycle of the cut-off or after it decides nothing
(R260); OK makes a handover ready, another status counts. OUTCOME commits or drops the waiting PUBSTATE records.
A differing DIGEST counts. NOTICE installs an instance, RS_BEGIN makes the standby SYNCING, FAILING loses the
partner, SLICES sets the mask. (09_pairing.md R283, R284, R286, R287, R288, R291, R295, R296, R300, R303, R308,
R312) -/
def Obligations.PairFramesReceived : Prop :=
  ∀ (s u : State) (dt : Nat) (bs : List Byte) (f : PFrame),
  let r := f.pay
  (s.Receives dt 1 bs f u → s.role = 1 → Completes (.helloRx bs dt) s fun t =>
    let strap := beAt r 2 1
    let st := beAt r 3 1
    let same := strap = b2n s.pair.strapB
    t.get F.PAIR_PEER_DEVICE_ID = beAt r 0 2 ∧ t.get F.PAIR_STATUS_FOREIGN = b2n ((r.drop 16).take 48 != s.pair.sig)
      ∧ (same → t.role = 1 ∧ t.pair.strapOk = false)
      ∧ (¬same → t.pair.strapOk = true ∧ (st = 4 ∨ st = 5 → t.role = 2 ∧ t.sync = 0) ∧ (st = 2 ∨ st = 6 → t.role = 5)
          ∧ (st = 1 → beAt r 9 1 = s.get F.PAIR_CFG_PREFER →
              t.role = if b2n s.pair.strapB = s.get F.PAIR_CFG_PREFER then 5 else 2)))
  ∧ (s.Receives dt 2 bs f u → Completes (.heartbeatRx bs dt) s fun t =>
    let k : Int := (beAt r 0 6 * 1000000000 + beAt r 6 4 : Nat) + s.get F.PAIR_RTT / 2 - (s.elapse dt).nowNs
    t.get F.PAIR_PHEALTH = beAt r 12 4 ∧ t.get F.PAIR_SKEW = ofSigned 32 k ∧ t.pair.lastRx = s.clk + dt ∧ t.pair.lost = none
      ∧ (k.natAbs ≤ 40 → t.get F.PAIR_STATUS_SKEW_BAD = 0 ∧ t.pair.skewRun = 0)
      ∧ (40 < k.natAbs → t.get F.PAIR_CNT_SKEW = satAdd 64 (s.get F.PAIR_CNT_SKEW) 1 ∧ t.pair.skewRun = s.pair.skewRun + 1))
  ∧ (s.Receives dt 3 bs f u → s.role ≠ 2 → Completes (.deltaRx bs dt) s fun t => t.pair = u.pair
      ∧ OnlyFields [] { s with clk := t.clk, dev := t.dev, pair := t.pair } t)
  ∧ (s.Receives dt 3 bs f u → s.role = 2 → beAt r 0 1 = 0x10 → bitOf f.flags 0 = true →
    let l := (splitRecs r.length r).getD []
    let st := (u.setPair fun x => { x with rxBad := 0 }).ackStatus l (deltaWhole l)
    Completes (.deltaRx bs dt) s fun t => (∃ b, Output.pairTx 4 b ∈ t.out ∧ beAt b 16 1 = st ∧ beAt b 8 8 = f.beat)
      ∧ t.pair.rx = none
      ∧ (st = 0 → t.pair.staged = some (f.beat, ((l.drop 1).dropLast).filter fun x => recType x != 0x14 && recType x != 0x15))
      ∧ (st ≠ 0 → t.pair.staged = s.pair.staged ∧ t.get F.PAIR_CNT_NACK = satAdd 64 (s.get F.PAIR_CNT_NACK) 1))
  ∧ (s.Receives dt 4 bs f u → f.beat = s.beat → s.sealSt.endSent = true → s.sealSt.ack = none → s.pair.resync = none →
    Completes (.ackRx bs dt) s fun t =>
      let st := beAt r 0 1
      let late := s.bt.decision.isSome || (s.elapse dt).reached s.cutoffNs
      t.sealSt.ack = (if late then none else some st) ∧ t.get F.PAIR_RTT = min (s.clk + dt - s.pair.endAt) 65535 ∧ t.get F.PAIR_PHEALTH = beAt r 4 4
        ∧ (st = 0 → s.pair.hoSent = true → t.pair.hoOk = true)
        ∧ (st ≠ 0 → t.get F.PAIR_CNT_NACK = satAdd 64 (s.get F.PAIR_CNT_NACK) 1 ∧ (s.role = 4 → t.pair.soloAt ≠ none)
            ∧ (s.pair.hoSent = true → t.get F.PAIR_STATUS_HO_REFUSED = 1 ∧ t.get F.PAIR_CTRL_HANDOVER = 0)))
  ∧ (∀ l, s.Receives dt 5 bs f u → s.role = 2 → s.pair.pubWait = some (f.beat, l) → Completes (.outcomeRx bs dt) s fun t =>
    (beAt r 0 1 = 1 → t.pair.pubWait = none ∧ ∀ x, l = [x] → leAt (t.pub (beAt x 2 2)) 32 4 = beAt x 4 4
        ∧ leAt (t.pub (beAt x 2 2)) 48 8 = beAt x 24 8)
    ∧ (beAt r 0 1 = 2 → t.pair.pubWait = none ∧ t.sealSt = s.sealSt)
    ∧ (beAt r 0 1 ≠ 1 → beAt r 0 1 ≠ 2 → t.pair = u.pair))
  ∧ (∀ w, s.Receives dt 6 bs f u → s.role = 2 → r.length = 16 →
    (s.group (beAt r 0 2)).wins.find? (fun w => w.closed && w.k % 2 ^ 32 == beAt r 4 4) = some w →
    Completes (.digestRx bs dt) s fun t => t.get F.PAIR_CNT_DIGEST =
      if s.yLe (slabAddr (s.group (beAt r 0 2)).e w.k + 56) 8 = beAt r 8 8 then s.get F.PAIR_CNT_DIGEST
      else satAdd 64 (s.get F.PAIR_CNT_DIGEST) 1)
  ∧ (s.Receives dt 7 bs f u → s.role = 2 → r.length = 72 → recType r = 0x22 → feValid (r.drop 8) = true →
    (feValid (s.flow (beAt r 4 4)).e && feInstance (s.flow (beAt r 4 4)).e) = false → feTplRef (r.drop 8) ≠ beAt r 4 4 →
    Completes (.noticeRx bs dt) s fun t => (t.flow (beAt r 4 4)).e = r.drop 8
      ∧ t.get F.GATE_CNT_INST = satAdd F.GATE_CNT_INST.width (s.get F.GATE_CNT_INST) 1 ∧ t.isPending 105 = true)
  ∧ (s.Receives dt 8 bs f u → s.role = 2 → s.bit F.PAIR_STATUS_FOREIGN = false → r.length = 32 → recType r = 0x20 →
    Completes (.resyncRx bs dt) s fun t => t.sync = 1 ∧ t.pair.rsRx = some (1, true) ∧ t.pair.rsDone = false ∧ t.pair.staged = none)
  ∧ (s.Receives dt 9 bs f u → s.role = 4 ∨ s.role = 5 → s.pair.pState ≠ none → Completes (.failingRx bs dt) s fun t =>
    t.pair.lost = some 3 ∧ t.isPending 178 = true ∧ t.get F.PAIR_CNT_LOST = satAdd 64 (s.get F.PAIR_CNT_LOST) 1
      ∧ (s.role = 4 → t.pair.soloAt ≠ none))
  ∧ (s.Receives dt 10 bs f u → s.role = 2 → Completes (.slicesRx bs dt) s fun t =>
    ∀ i, i < 8 → t.get (F.PAIR_PFROZENn.idx i) = leAt r (4 * i) 4 % 2 ^ 32)

/-- The Tudel block's table, FREEZE frames and links. TUDEL_CTRL.EN starts the block and its enabled links on a
legal table, sets CFG_ERR on another, and EN = 0 disables all links. The access commands read, write and
invalidate a forwarding entry while the block is disabled; enabled, or with an illegal entry, they answer ERR
and change nothing. GO on a valid publication of class YARD sends one FREEZE frame under its next SEQ while the
device emits. A link goes from TRAINING to HELLO_WAIT at lock, to ALONE after TUDEL_TRAIN and back to TRAINING a
second later; a due HELLO is sent; a good HELLO brings HELLO_WAIT to UP, a miswired one to MISWIRED; loss of
lock or 400 µs of silence lead to TRAINING. Each change that R334 reports raises source 179. (10_yards_tudel.md
R324, R325, R326, R332, R334, R337, R338) -/
def Obligations.TudelTableAndLinks : Prop :=
  (∀ (m : Master) (s : State) (d : Nat), Reaches s m 0xB00000 →
    (bitOf d 0 = true → s.bit F.TUDEL_CTRL = false → s.tudelOk = true → Completes (.tudelEnable m d) s fun t =>
      t.get F.TUDEL_CTRL = 1 ∧ t.get F.TUDEL_STATUS_RUNNING = 1 ∧ t.get F.TUDEL_STATUS_CFG_ERR = 0
        ∧ ∀ j : Fin 8, t.lst j = if bitOf (s.get F.TUDEL_CFG_LINK_EN) j ∧ j.val ≠ s.get F.TUDEL_CFG_BOARD_POS then 1 else s.lst j)
    ∧ (bitOf d 0 = true → s.bit F.TUDEL_CTRL = false → s.tudelOk = false → Completes (.tudelEnable m d) s fun t =>
      t.get F.TUDEL_CTRL = 0 ∧ t.get F.TUDEL_STATUS_CFG_ERR = 1 ∧ OnlyFields [F.TUDEL_STATUS_CFG_ERR] s t)
    ∧ (bitOf d 0 = false → s.bit F.TUDEL_CTRL = true → Completes (.tudelEnable m d) s fun t =>
      t.get F.TUDEL_CTRL = 0 ∧ t.get F.TUDEL_STATUS_RUNNING = 0 ∧ ∀ j : Fin 8, t.lst j = 0))
  ∧ (∀ (m : Master) (s : State), Reaches s m 0xB00084 →
    let n := s.get F.TUDEL_FACC_IDX
    let e := s.getBytes F.TUDEL_FACC_DATAn 4
    Completes (.tudelFaccRead m) s (fun t => t.get F.TUDEL_FACC_CMD_ERR = 0 ∧ t.tud = s.tud
      ∧ ∀ i, i < 4 → t.get (F.TUDEL_FACC_DATAn.idx i) = leAt (s.fwd n) (4 * i) 4 % 2 ^ 32)
    ∧ Completes (.tudelFaccWrite m) s (fun t =>
      OnlyFields [F.TUDEL_FACC_CMD_ERR, F.TUDEL_STATUS_FACC_ERR] { s with tud := t.tud } t
      ∧ if s.bit F.TUDEL_CTRL = true then t.get F.TUDEL_FACC_CMD_ERR = 1 ∧ t.tud = s.tud
        else if fwValid e = true ∧ fwForm e = false then t.get F.TUDEL_FACC_CMD_ERR = 2 ∧ t.tud = s.tud
        else t.get F.TUDEL_FACC_CMD_ERR = 0 ∧ t.fwd n = e ∧ ∀ k, k ≠ n → t.fwd k = s.fwd k)
    ∧ Completes (.tudelFaccInvalidate m) s fun t =>
      if s.bit F.TUDEL_CTRL = true then t.get F.TUDEL_FACC_CMD_ERR = 1 ∧ t.tud = s.tud
      else t.get F.TUDEL_FACC_CMD_ERR = 0 ∧ fwValid (t.fwd n) = false ∧ ∀ k, k ≠ n → t.fwd k = s.fwd k)
  ∧ (∀ (m : Master) (s : State) (d : Nat), Reaches s m 0xB000A0 →
    let p := bitsOf d 0 13
    let q := puSeqA (s.pub p) + 2 ^ 32 * puSeqB (s.pub p) + 1
    let mayGo := puValid (s.pub p) = true ∧ puKind (s.pub p) = 6
    Completes (.tudelFrzGo m d) s fun t => t.get F.TUDEL_FRZ_CMD_PUB = p
      ∧ (bitOf d 31 = false → t.sealSt = s.sealSt)
      ∧ (bitOf d 31 = true → ¬mayGo → t.get F.TUDEL_STATUS_FACC_ERR = 1 ∧ t.sealSt = s.sealSt)
      ∧ (bitOf d 31 = true → mayGo → s.runsItems = false → t.sealSt = s.sealSt)
      ∧ (bitOf d 31 = true → mayGo → s.runsItems = true → ∃ f, t.sealSt.frames = s.sealSt.frames ++ [f] ∧ f.pub = p
          ∧ f.seqA = q % 2 ^ 32 ∧ f.seqB = q / 2 ^ 32 ∧ f.beat = s.beat))
  ∧ (∀ (s : State) (j : Fin 8) (dt : Nat),
    (s.lst j = 1 → Completes (.tudelLock j dt) s fun t => t.lst j = 2 ∧ (t.tLink j).since = s.clk + dt)
    ∧ (s.lst j = 1 → Completes (.tudelTrainTmo j dt) s fun t =>
        if (s.tLink j).since + s.get F.TUDEL_TRAIN * 1000000 ≤ s.clk + dt then t.lst j = 4 ∧ t.isPending 179 = true else t.lst j = 1)
    ∧ (s.lst j = 4 → Completes (.tudelAloneRetry j dt) s fun t =>
        t.lst j = if (s.tLink j).since + 1000000000 ≤ s.clk + dt then 1 else 4)
    ∧ ((s.lst j = 3 ∧ (s.tLink j).helloAt + 100000 ≤ s.clk + dt) ∨ (s.lst j = 2 ∧ (s.tLink j).helloAt + 10000 ≤ s.clk + dt) →
        Completes (.tudelHelloTx j dt) s fun t => (t.tLink j).helloAt = s.clk + dt ∧ t.lst j = s.lst j
          ∧ ∃ b, Output.tudelTx j 1 b ∈ t.out ∧ b.length = 22 ∧ beAt b 2 1 = s.get F.TUDEL_CFG_BOARD_POS % 256
              ∧ beAt b 4 4 = s.rate % 2 ^ 32)
    ∧ (∀ bs : List Byte, bs.length = 22 → s.lst j = 2 → Completes (.tudelHelloRx j bs true dt) s fun t =>
        t.get (F.TUDEL_LINKj_STATUS_PEER_POS.idx j) = beAt bs 2 1 % 2 ^ F.TUDEL_LINKj_STATUS_PEER_POS.width
        ∧ t.isPending 179 = true
        ∧ if s.helloTest j bs = 0 then t.lst j = 3
          else t.lst j = 5 ∧ t.get F.TUDEL_STATUS_MISWIRED = 1
            ∧ t.get (F.TUDEL_LINKj_STATUS_MISWIRE.idx j) = s.helloTest j bs)
    ∧ (∀ (bs : List Byte) (ok : Bool), ok = false ∨ bs.length ≠ 22 ∨ (s.lst j ≠ 2 ∧ s.lst j ≠ 3) →
        Completes (.tudelHelloRx j bs ok dt) s fun t => t.lst j = s.lst j ∧ (t.tLink j).rxAt = s.clk + dt
          ∧ t.get F.TUDEL_CNT_RX_DROP = satAdd 64 (s.get F.TUDEL_CNT_RX_DROP) 1)
    ∧ (∀ lock : Bool, s.lst j = 2 ∨ s.lst j = 3 → Completes (.tudelLinkLoss j lock dt) s fun t =>
        if lock = true ∨ (s.tLink j).rxAt + 400000 ≤ s.clk + dt then t.lst j = 1 ∧ t.isPending 179 = true else t.lst j = s.lst j))

/-- The phases of a beat, its emit decision and its edge. At the end of cut settle dispatch opens and every slab cut
at the beat's edge is closed. At the run deadline the item of every stall that stops ends; a stall that is late
keeps its item until the delta closes, when it ends, and the delta's lists are emptied. At the cut-off OFF,
LISTEN, STANDBY and FAILED decide to withhold and only STANDBY marks the beat so, PROMOTING and SOLO emit
unpaired (PROMOTING nothing when it was promoted at or after the run deadline), and ACTIVE emits only on an OK
acknowledgement of a whole delta; SOLO and ACTIVE toggle. PROMOTING toggles provisionally unless the partner
moved in the window. The gate is sampled as R290 says. At an edge of an otherwise idle device the beat number
advances, device time has reached the edge, the frequency adjustment that BEAT_FREQ_ADJ holds comes into force,
the run beat opens once its number is new, and the result of the run beat that ended is published: emitted only
with a decision and an open gate, and otherwise withheld but for a beat marked STANDBY (the model's choice,
assumption log 129). A disabled generator has no edges. (01_beat.md R16, R17, R22, R26, R29, R30, R35,
06_stalls_sheds.md R196, R198, 08_seal_emit.md R259, 09_pairing.md R289, R290, R298, 04_marshalling_yard.md
R126) -/
def Obligations.BeatPhases : Prop :=
  (∀ s : State, s.bt.running = true → s.bt.dispatchOpen = false → Completes .cutSettleEnd s fun t => t.bt.dispatchOpen = true
    ∧ ∀ gk ∈ s.cutSlabs s.beat, ∀ w ∈ (t.group gk.1).wins, w.k = gk.2 → w.closed = true)
  ∧ (∀ (s : State) (late : List Nat), s.bt.running = true → s.bt.deadline = false → s.bt.dispatchOpen = true →
    Completes (.runDeadline late) s fun t => t.bt.deadline = true
      ∧ (∀ k ∈ s.busyStalls, k ∉ late → (t.stall k).item = none)
      ∧ (∀ k ∈ s.busyStalls, k ∈ late → (t.stall k).item = (s.stall k).item ∧ (t.stall k).load = none)
      ∧ (s.standby = true → t.groom.ready = []))
  ∧ (∀ s : State, s.bt.running = true → s.bt.deltaClosed = false → s.bt.deadline = true → Completes .deltaClose s fun t =>
    t.bt.deltaClosed = true ∧ t.yard.recs = [] ∧ (∀ k ∈ s.busyStalls, (t.stall k).item = none)
      ∧ (s.runsItems = true → t.sealSt.store = [] ∧ t.sealSt.marks = [] ∧ t.sealSt.epochs = [] ∧ t.sealSt.changed = []))
  ∧ (∀ (s : State) (rb : Bool), s.bt.running = true → s.bt.deltaClosed = true → s.bt.decision = none →
    let toggles (t : State) : Prop := s.pair.coldAt ≠ some s.bt.next → t.pair.actOut = some (!(s.pair.actOut.getD true))
      ∧ (rb = !(s.pair.actOut.getD true) → t.pair.toggled = true)
    Completes (.ackCutoff rb) s fun t =>
      (s.role = 0 ∨ s.role = 1 ∨ s.role = 2 ∨ s.role = 6 → t.bt.decision = some false
        ∧ t.bt.res = { s.bt.res with standby := s.bt.res.standby || s.role == 2 } ∧ t.pair = { s.pair with stateAtC := s.role })
      ∧ (s.role = 3 → t.bt.decision = some (!s.pair.promoLate) ∧ t.bt.res.unpaired = true ∧ t.pair = { s.pair with stateAtC := 3 })
      ∧ (s.role = 5 → s.pair.resync = none → t.bt.decision = some true ∧ t.bt.res.unpaired = true ∧ t.pair.stateAtC = 5 ∧ toggles t)
      ∧ (s.role = 4 → (∃ n, s.pair.soloAt = some n ∧ n ≤ s.beat) → t.role = 5 ∧ t.bt.decision = some true ∧ t.pair.stateAtC = 5
          ∧ toggles t)
      ∧ (s.role = 4 → s.pair.soloAt = none → t.role = 4 ∧ t.pair.stateAtC = 4 ∧ toggles t
          ∧ t.bt.decision = some (decide (s.sealSt.oversize = false ∧ s.sealSt.endSent = true ∧ s.sealSt.ack = some 0))
          ∧ (s.sealSt.oversize = false → s.sealSt.endSent = true → s.sealSt.ack = none → t.bt.res.ackLate = true)
          ∧ (s.sealSt.oversize = true ∨ s.sealSt.endSent = false → t.bt.res.uncopied = true)))
  ∧ (∀ (s : State) (rb : Bool), s.role = 3 → s.bt.running = true → Completes (.provisionalToggle rb) s fun t => t.role = 3
    ∧ (s.pair.inWindow = true → t.pair = { s.pair with refrained := true })
    ∧ (s.pair.inWindow = false → t.pair.actOut = some (!(s.pair.actOut.getD true))
        ∧ (rb = !(s.pair.actOut.getD true) → t.pair.toggled = true)
        ∧ (rb ≠ !(s.pair.actOut.getD true) → t.pair.rbBad = true ∧ t.get F.PAIR_STATUS_IL_RB_FAULT = 1 ∧ t.isPending 178 = true)))
  ∧ (∀ s : State, s.bt.running = true → Completes .egressGateSample s fun t =>
    let open' := (s.life = 1 ∨ s.life = 2) ∧ (s.pair.stateAtC = 3 ∨ s.pair.stateAtC = 4 ∨ s.pair.stateAtC = 5)
      ∧ s.pair.toggled = true ∧ s.pair.rbBad = false ∧ s.pair.inWindow = false
    t.get F.PAIR_STATUS_GATE_OPEN = b2n (decide open') ∧ t.bt = { s.bt with gateOpen := some (decide open') }
      ∧ OnlyFields [F.PAIR_STATUS_GATE_OPEN] { s with clk := t.clk, frac := t.frac, dev := t.dev, bt := t.bt } t)
  ∧ (∀ (s : State) (e : Meters) (late : List Nat) (dg : Bool), s.bit F.BEAT_CTRL_EN = false ∨ s.lifeSt.refclkLost = true →
    Completes (.beatEdge e late dg) s fun t => OnlyFields [] s t)
  ∧ (∀ (s : State) (e : Meters) (late : List Nat) (dg : Bool), s.Idle → s.bit F.BEAT_CTRL_EN = true → s.lifeSt.refclkLost = false →
    s.bt.reqPend = none → s.bt.reseatPend = none → s.tq ≠ 4 →
    let edge (t : State) : Prop := t.get F.BEAT_NUM = s.bt.next % 2 ^ 64 ∧ t.bt.next = s.bt.next + 1
      ∧ edgeNs s.rate s.bt.next ≤ t.nowNs ∧ t.bt.adjNow = s.get F.BEAT_FREQ_ADJ
      ∧ (tqRuns t.tq = true ∧ s.get F.BEAT_LAST_ISSUED < s.bt.next → t.bt.running = true
          ∧ t.get F.BEAT_LAST_ISSUED = s.bt.next % 2 ^ 64 ∧ t.bt.res.tq = t.tq)
      ∧ (¬(tqRuns t.tq = true ∧ s.get F.BEAT_LAST_ISSUED < s.bt.next) → t.bt.running = false
          ∧ t.get F.BEAT_LAST_ISSUED = s.get F.BEAT_LAST_ISSUED)
      ∧ t.bt.decision = none ∧ t.bt.gateOpen = none ∧ t.get F.PWR_AON_NJ = min e.aon (2 ^ 32 - 1)
    (s.bt.running = false → s.toEdge.timerMove = .stay → Completes (.beatEdge e late dg) s fun t => edge t ∧ t.tq = s.tq)
    ∧ (∀ q, q < 8 → s.bt.running = false → s.toEdge.timerMove = .goto q → Completes (.beatEdge e late dg) s fun t =>
        edge t ∧ t.tq = q ∧ t.isPending 104 = true)
    ∧ (∀ d g : Bool, s.bt.running = true → s.bt.deltaClosed = true → s.bt.decision = some d → s.bt.gateOpen = some g →
        s.toEdge.timerMove = .stay → Completes (.beatEdge e late dg) s fun t => edge t
          ∧ t.get F.BEAT_RESULT_NUM = s.beat % 2 ^ 64 ∧ t.get F.BEAT_RESULT_EMITTED = b2n (d && g)
          ∧ t.get F.BEAT_RESULT_WITHHELD = b2n (!(d && g) && !s.bt.res.standby)
          ∧ t.get F.BEAT_RESULT_STANDBY = b2n s.bt.res.standby
          ∧ t.get F.BEAT_CNT_WITHHELD = (if (d && g) = false ∧ s.bt.res.standby = false
              then satAdd 32 (s.get F.BEAT_CNT_WITHHELD) 1 else s.get F.BEAT_CNT_WITHHELD)))
end

