-- ==== Sys2Proof/Laws/State.lean ====
section
/-! SUPPORT. What each update of the state leaves alone: one lemma per field and update, true by definition. -/

namespace Sys2Proof.Machine

variable (s : State)

@[simp] theorem State.setBt_fields (g : BeatSt → BeatSt) : (s.setBt g).fields = s.fields := rfl
@[simp] theorem State.setBt_tmr (g : BeatSt → BeatSt) : (s.setBt g).tmr = s.tmr := rfl
@[simp] theorem State.setBt_inv (g : BeatSt → BeatSt) : (s.setBt g).inv = s.inv := rfl
@[simp] theorem State.setBt_shadows (g : BeatSt → BeatSt) : (s.setBt g).shadows = s.shadows := rfl
@[simp] theorem State.setBt_clk (g : BeatSt → BeatSt) : (s.setBt g).clk = s.clk := rfl
@[simp] theorem State.setBt_frac (g : BeatSt → BeatSt) : (s.setBt g).frac = s.frac := rfl
@[simp] theorem State.setBt_dev (g : BeatSt → BeatSt) : (s.setBt g).dev = s.dev := rfl
@[simp] theorem State.setBt_free (g : BeatSt → BeatSt) : (s.setBt g).free = s.free := rfl
@[simp] theorem State.setBt_out (g : BeatSt → BeatSt) : (s.setBt g).out = s.out := rfl
@[simp] theorem State.setBt_evq (g : BeatSt → BeatSt) : (s.setBt g).evq = s.evq := rfl
@[simp] theorem State.setBt_rdata (g : BeatSt → BeatSt) : (s.setBt g).rdata = s.rdata := rfl
@[simp] theorem State.setBt_flash (g : BeatSt → BeatSt) : (s.setBt g).flash = s.flash := rfl
@[simp] theorem State.setBt_flashOk (g : BeatSt → BeatSt) : (s.setBt g).flashOk = s.flashOk := rfl
@[simp] theorem State.setBt_deviceId (g : BeatSt → BeatSt) : (s.setBt g).deviceId = s.deviceId := rfl
@[simp] theorem State.setBt_evt (g : BeatSt → BeatSt) : (s.setBt g).evt = s.evt := rfl
@[simp] theorem State.setBt_ym (g : BeatSt → BeatSt) : (s.setBt g).ym = s.ym := rfl
@[simp] theorem State.setBt_prt (g : BeatSt → BeatSt) : (s.setBt g).prt = s.prt := rfl
@[simp] theorem State.setBt_egress (g : BeatSt → BeatSt) : (s.setBt g).egress = s.egress := rfl
@[simp] theorem State.setBt_pwr (g : BeatSt → BeatSt) : (s.setBt g).pwr = s.pwr := rfl
@[simp] theorem State.setBt_host (g : BeatSt → BeatSt) : (s.setBt g).host = s.host := rfl
@[simp] theorem State.setBt_gate (g : BeatSt → BeatSt) : (s.setBt g).gate = s.gate := rfl
@[simp] theorem State.setBt_yard (g : BeatSt → BeatSt) : (s.setBt g).yard = s.yard := rfl
@[simp] theorem State.setBt_loft (g : BeatSt → BeatSt) : (s.setBt g).loft = s.loft := rfl
@[simp] theorem State.setBt_pool (g : BeatSt → BeatSt) : (s.setBt g).pool = s.pool := rfl
@[simp] theorem State.setBt_guard (g : BeatSt → BeatSt) : (s.setBt g).guard = s.guard := rfl
@[simp] theorem State.setBt_groom (g : BeatSt → BeatSt) : (s.setBt g).groom = s.groom := rfl
@[simp] theorem State.setBt_sealSt (g : BeatSt → BeatSt) : (s.setBt g).sealSt = s.sealSt := rfl
@[simp] theorem State.setBt_vault (g : BeatSt → BeatSt) : (s.setBt g).vault = s.vault := rfl
@[simp] theorem State.setBt_otp (g : BeatSt → BeatSt) : (s.setBt g).otp = s.otp := rfl
@[simp] theorem State.setBt_lifeSt (g : BeatSt → BeatSt) : (s.setBt g).lifeSt = s.lifeSt := rfl
@[simp] theorem State.setBt_boot (g : BeatSt → BeatSt) : (s.setBt g).boot = s.boot := rfl
@[simp] theorem State.setBt_tud (g : BeatSt → BeatSt) : (s.setBt g).tud = s.tud := rfl
@[simp] theorem State.setBt_mtest (g : BeatSt → BeatSt) : (s.setBt g).mtest = s.mtest := rfl
@[simp] theorem State.setBt_pair (g : BeatSt → BeatSt) : (s.setBt g).pair = s.pair := rfl
@[simp] theorem State.setBt_pairSeq (g : BeatSt → BeatSt) : (s.setBt g).pairSeq = s.pairSeq := rfl
@[simp] theorem State.setBt_pending (g : BeatSt → BeatSt) : (s.setBt g).pending = s.pending := rfl
@[simp] theorem State.setBt_bt (g : BeatSt → BeatSt) : (s.setBt g).bt = g s.bt := rfl
@[simp] theorem State.setBt_get (g : BeatSt → BeatSt) (f : Fld) : (s.setBt g).get f = s.get f := rfl

@[simp] theorem State.setGate_fields (g : GateSt → GateSt) : (s.setGate g).fields = s.fields := rfl
@[simp] theorem State.setGate_tmr (g : GateSt → GateSt) : (s.setGate g).tmr = s.tmr := rfl
@[simp] theorem State.setGate_inv (g : GateSt → GateSt) : (s.setGate g).inv = s.inv := rfl
@[simp] theorem State.setGate_shadows (g : GateSt → GateSt) : (s.setGate g).shadows = s.shadows := rfl
@[simp] theorem State.setGate_clk (g : GateSt → GateSt) : (s.setGate g).clk = s.clk := rfl
@[simp] theorem State.setGate_frac (g : GateSt → GateSt) : (s.setGate g).frac = s.frac := rfl
@[simp] theorem State.setGate_dev (g : GateSt → GateSt) : (s.setGate g).dev = s.dev := rfl
@[simp] theorem State.setGate_free (g : GateSt → GateSt) : (s.setGate g).free = s.free := rfl
@[simp] theorem State.setGate_out (g : GateSt → GateSt) : (s.setGate g).out = s.out := rfl
@[simp] theorem State.setGate_evq (g : GateSt → GateSt) : (s.setGate g).evq = s.evq := rfl
@[simp] theorem State.setGate_rdata (g : GateSt → GateSt) : (s.setGate g).rdata = s.rdata := rfl
@[simp] theorem State.setGate_flash (g : GateSt → GateSt) : (s.setGate g).flash = s.flash := rfl
@[simp] theorem State.setGate_flashOk (g : GateSt → GateSt) : (s.setGate g).flashOk = s.flashOk := rfl
@[simp] theorem State.setGate_deviceId (g : GateSt → GateSt) : (s.setGate g).deviceId = s.deviceId := rfl
@[simp] theorem State.setGate_evt (g : GateSt → GateSt) : (s.setGate g).evt = s.evt := rfl
@[simp] theorem State.setGate_ym (g : GateSt → GateSt) : (s.setGate g).ym = s.ym := rfl
@[simp] theorem State.setGate_bt (g : GateSt → GateSt) : (s.setGate g).bt = s.bt := rfl
@[simp] theorem State.setGate_prt (g : GateSt → GateSt) : (s.setGate g).prt = s.prt := rfl
@[simp] theorem State.setGate_egress (g : GateSt → GateSt) : (s.setGate g).egress = s.egress := rfl
@[simp] theorem State.setGate_pwr (g : GateSt → GateSt) : (s.setGate g).pwr = s.pwr := rfl
@[simp] theorem State.setGate_host (g : GateSt → GateSt) : (s.setGate g).host = s.host := rfl
@[simp] theorem State.setGate_yard (g : GateSt → GateSt) : (s.setGate g).yard = s.yard := rfl
@[simp] theorem State.setGate_loft (g : GateSt → GateSt) : (s.setGate g).loft = s.loft := rfl
@[simp] theorem State.setGate_pool (g : GateSt → GateSt) : (s.setGate g).pool = s.pool := rfl
@[simp] theorem State.setGate_guard (g : GateSt → GateSt) : (s.setGate g).guard = s.guard := rfl
@[simp] theorem State.setGate_groom (g : GateSt → GateSt) : (s.setGate g).groom = s.groom := rfl
@[simp] theorem State.setGate_sealSt (g : GateSt → GateSt) : (s.setGate g).sealSt = s.sealSt := rfl
@[simp] theorem State.setGate_vault (g : GateSt → GateSt) : (s.setGate g).vault = s.vault := rfl
@[simp] theorem State.setGate_otp (g : GateSt → GateSt) : (s.setGate g).otp = s.otp := rfl
@[simp] theorem State.setGate_lifeSt (g : GateSt → GateSt) : (s.setGate g).lifeSt = s.lifeSt := rfl
@[simp] theorem State.setGate_boot (g : GateSt → GateSt) : (s.setGate g).boot = s.boot := rfl
@[simp] theorem State.setGate_tud (g : GateSt → GateSt) : (s.setGate g).tud = s.tud := rfl
@[simp] theorem State.setGate_mtest (g : GateSt → GateSt) : (s.setGate g).mtest = s.mtest := rfl
@[simp] theorem State.setGate_pair (g : GateSt → GateSt) : (s.setGate g).pair = s.pair := rfl
@[simp] theorem State.setGate_pairSeq (g : GateSt → GateSt) : (s.setGate g).pairSeq = s.pairSeq := rfl
@[simp] theorem State.setGate_pending (g : GateSt → GateSt) : (s.setGate g).pending = s.pending := rfl
@[simp] theorem State.setGate_gate (g : GateSt → GateSt) : (s.setGate g).gate = g s.gate := rfl
@[simp] theorem State.setGate_get (g : GateSt → GateSt) (f : Fld) : (s.setGate g).get f = s.get f := rfl

@[simp] theorem State.setVault_fields (g : VaultSt → VaultSt) : (s.setVault g).fields = s.fields := rfl
@[simp] theorem State.setVault_tmr (g : VaultSt → VaultSt) : (s.setVault g).tmr = s.tmr := rfl
@[simp] theorem State.setVault_inv (g : VaultSt → VaultSt) : (s.setVault g).inv = s.inv := rfl
@[simp] theorem State.setVault_shadows (g : VaultSt → VaultSt) : (s.setVault g).shadows = s.shadows := rfl
@[simp] theorem State.setVault_clk (g : VaultSt → VaultSt) : (s.setVault g).clk = s.clk := rfl
@[simp] theorem State.setVault_frac (g : VaultSt → VaultSt) : (s.setVault g).frac = s.frac := rfl
@[simp] theorem State.setVault_dev (g : VaultSt → VaultSt) : (s.setVault g).dev = s.dev := rfl
@[simp] theorem State.setVault_free (g : VaultSt → VaultSt) : (s.setVault g).free = s.free := rfl
@[simp] theorem State.setVault_out (g : VaultSt → VaultSt) : (s.setVault g).out = s.out := rfl
@[simp] theorem State.setVault_evq (g : VaultSt → VaultSt) : (s.setVault g).evq = s.evq := rfl
@[simp] theorem State.setVault_rdata (g : VaultSt → VaultSt) : (s.setVault g).rdata = s.rdata := rfl
@[simp] theorem State.setVault_flash (g : VaultSt → VaultSt) : (s.setVault g).flash = s.flash := rfl
@[simp] theorem State.setVault_flashOk (g : VaultSt → VaultSt) : (s.setVault g).flashOk = s.flashOk := rfl
@[simp] theorem State.setVault_deviceId (g : VaultSt → VaultSt) : (s.setVault g).deviceId = s.deviceId := rfl
@[simp] theorem State.setVault_evt (g : VaultSt → VaultSt) : (s.setVault g).evt = s.evt := rfl
@[simp] theorem State.setVault_ym (g : VaultSt → VaultSt) : (s.setVault g).ym = s.ym := rfl
@[simp] theorem State.setVault_bt (g : VaultSt → VaultSt) : (s.setVault g).bt = s.bt := rfl
@[simp] theorem State.setVault_prt (g : VaultSt → VaultSt) : (s.setVault g).prt = s.prt := rfl
@[simp] theorem State.setVault_egress (g : VaultSt → VaultSt) : (s.setVault g).egress = s.egress := rfl
@[simp] theorem State.setVault_pwr (g : VaultSt → VaultSt) : (s.setVault g).pwr = s.pwr := rfl
@[simp] theorem State.setVault_host (g : VaultSt → VaultSt) : (s.setVault g).host = s.host := rfl
@[simp] theorem State.setVault_gate (g : VaultSt → VaultSt) : (s.setVault g).gate = s.gate := rfl
@[simp] theorem State.setVault_yard (g : VaultSt → VaultSt) : (s.setVault g).yard = s.yard := rfl
@[simp] theorem State.setVault_loft (g : VaultSt → VaultSt) : (s.setVault g).loft = s.loft := rfl
@[simp] theorem State.setVault_pool (g : VaultSt → VaultSt) : (s.setVault g).pool = s.pool := rfl
@[simp] theorem State.setVault_guard (g : VaultSt → VaultSt) : (s.setVault g).guard = s.guard := rfl
@[simp] theorem State.setVault_groom (g : VaultSt → VaultSt) : (s.setVault g).groom = s.groom := rfl
@[simp] theorem State.setVault_sealSt (g : VaultSt → VaultSt) : (s.setVault g).sealSt = s.sealSt := rfl
@[simp] theorem State.setVault_otp (g : VaultSt → VaultSt) : (s.setVault g).otp = s.otp := rfl
@[simp] theorem State.setVault_lifeSt (g : VaultSt → VaultSt) : (s.setVault g).lifeSt = s.lifeSt := rfl
@[simp] theorem State.setVault_boot (g : VaultSt → VaultSt) : (s.setVault g).boot = s.boot := rfl
@[simp] theorem State.setVault_tud (g : VaultSt → VaultSt) : (s.setVault g).tud = s.tud := rfl
@[simp] theorem State.setVault_mtest (g : VaultSt → VaultSt) : (s.setVault g).mtest = s.mtest := rfl
@[simp] theorem State.setVault_pair (g : VaultSt → VaultSt) : (s.setVault g).pair = s.pair := rfl
@[simp] theorem State.setVault_pairSeq (g : VaultSt → VaultSt) : (s.setVault g).pairSeq = s.pairSeq := rfl
@[simp] theorem State.setVault_pending (g : VaultSt → VaultSt) : (s.setVault g).pending = s.pending := rfl
@[simp] theorem State.setVault_vault (g : VaultSt → VaultSt) : (s.setVault g).vault = g s.vault := rfl
@[simp] theorem State.setVault_get (g : VaultSt → VaultSt) (f : Fld) : (s.setVault g).get f = s.get f := rfl

@[simp] theorem State.setGuard_fields (g : GuardSt → GuardSt) : (s.setGuard g).fields = s.fields := rfl
@[simp] theorem State.setGuard_tmr (g : GuardSt → GuardSt) : (s.setGuard g).tmr = s.tmr := rfl
@[simp] theorem State.setGuard_inv (g : GuardSt → GuardSt) : (s.setGuard g).inv = s.inv := rfl
@[simp] theorem State.setGuard_shadows (g : GuardSt → GuardSt) : (s.setGuard g).shadows = s.shadows := rfl
@[simp] theorem State.setGuard_clk (g : GuardSt → GuardSt) : (s.setGuard g).clk = s.clk := rfl
@[simp] theorem State.setGuard_frac (g : GuardSt → GuardSt) : (s.setGuard g).frac = s.frac := rfl
@[simp] theorem State.setGuard_dev (g : GuardSt → GuardSt) : (s.setGuard g).dev = s.dev := rfl
@[simp] theorem State.setGuard_free (g : GuardSt → GuardSt) : (s.setGuard g).free = s.free := rfl
@[simp] theorem State.setGuard_out (g : GuardSt → GuardSt) : (s.setGuard g).out = s.out := rfl
@[simp] theorem State.setGuard_evq (g : GuardSt → GuardSt) : (s.setGuard g).evq = s.evq := rfl
@[simp] theorem State.setGuard_rdata (g : GuardSt → GuardSt) : (s.setGuard g).rdata = s.rdata := rfl
@[simp] theorem State.setGuard_flash (g : GuardSt → GuardSt) : (s.setGuard g).flash = s.flash := rfl
@[simp] theorem State.setGuard_flashOk (g : GuardSt → GuardSt) : (s.setGuard g).flashOk = s.flashOk := rfl
@[simp] theorem State.setGuard_deviceId (g : GuardSt → GuardSt) : (s.setGuard g).deviceId = s.deviceId := rfl
@[simp] theorem State.setGuard_evt (g : GuardSt → GuardSt) : (s.setGuard g).evt = s.evt := rfl
@[simp] theorem State.setGuard_ym (g : GuardSt → GuardSt) : (s.setGuard g).ym = s.ym := rfl
@[simp] theorem State.setGuard_bt (g : GuardSt → GuardSt) : (s.setGuard g).bt = s.bt := rfl
@[simp] theorem State.setGuard_prt (g : GuardSt → GuardSt) : (s.setGuard g).prt = s.prt := rfl
@[simp] theorem State.setGuard_egress (g : GuardSt → GuardSt) : (s.setGuard g).egress = s.egress := rfl
@[simp] theorem State.setGuard_pwr (g : GuardSt → GuardSt) : (s.setGuard g).pwr = s.pwr := rfl
@[simp] theorem State.setGuard_host (g : GuardSt → GuardSt) : (s.setGuard g).host = s.host := rfl
@[simp] theorem State.setGuard_gate (g : GuardSt → GuardSt) : (s.setGuard g).gate = s.gate := rfl
@[simp] theorem State.setGuard_yard (g : GuardSt → GuardSt) : (s.setGuard g).yard = s.yard := rfl
@[simp] theorem State.setGuard_loft (g : GuardSt → GuardSt) : (s.setGuard g).loft = s.loft := rfl
@[simp] theorem State.setGuard_pool (g : GuardSt → GuardSt) : (s.setGuard g).pool = s.pool := rfl
@[simp] theorem State.setGuard_groom (g : GuardSt → GuardSt) : (s.setGuard g).groom = s.groom := rfl
@[simp] theorem State.setGuard_sealSt (g : GuardSt → GuardSt) : (s.setGuard g).sealSt = s.sealSt := rfl
@[simp] theorem State.setGuard_vault (g : GuardSt → GuardSt) : (s.setGuard g).vault = s.vault := rfl
@[simp] theorem State.setGuard_otp (g : GuardSt → GuardSt) : (s.setGuard g).otp = s.otp := rfl
@[simp] theorem State.setGuard_lifeSt (g : GuardSt → GuardSt) : (s.setGuard g).lifeSt = s.lifeSt := rfl
@[simp] theorem State.setGuard_boot (g : GuardSt → GuardSt) : (s.setGuard g).boot = s.boot := rfl
@[simp] theorem State.setGuard_tud (g : GuardSt → GuardSt) : (s.setGuard g).tud = s.tud := rfl
@[simp] theorem State.setGuard_mtest (g : GuardSt → GuardSt) : (s.setGuard g).mtest = s.mtest := rfl
@[simp] theorem State.setGuard_pair (g : GuardSt → GuardSt) : (s.setGuard g).pair = s.pair := rfl
@[simp] theorem State.setGuard_pairSeq (g : GuardSt → GuardSt) : (s.setGuard g).pairSeq = s.pairSeq := rfl
@[simp] theorem State.setGuard_pending (g : GuardSt → GuardSt) : (s.setGuard g).pending = s.pending := rfl
@[simp] theorem State.setGuard_guard (g : GuardSt → GuardSt) : (s.setGuard g).guard = g s.guard := rfl
@[simp] theorem State.setGuard_get (g : GuardSt → GuardSt) (f : Fld) : (s.setGuard g).get f = s.get f := rfl

@[simp] theorem State.setBoot_fields (g : BootSt → BootSt) : (s.setBoot g).fields = s.fields := rfl
@[simp] theorem State.setBoot_tmr (g : BootSt → BootSt) : (s.setBoot g).tmr = s.tmr := rfl
@[simp] theorem State.setBoot_inv (g : BootSt → BootSt) : (s.setBoot g).inv = s.inv := rfl
@[simp] theorem State.setBoot_shadows (g : BootSt → BootSt) : (s.setBoot g).shadows = s.shadows := rfl
@[simp] theorem State.setBoot_clk (g : BootSt → BootSt) : (s.setBoot g).clk = s.clk := rfl
@[simp] theorem State.setBoot_frac (g : BootSt → BootSt) : (s.setBoot g).frac = s.frac := rfl
@[simp] theorem State.setBoot_dev (g : BootSt → BootSt) : (s.setBoot g).dev = s.dev := rfl
@[simp] theorem State.setBoot_free (g : BootSt → BootSt) : (s.setBoot g).free = s.free := rfl
@[simp] theorem State.setBoot_out (g : BootSt → BootSt) : (s.setBoot g).out = s.out := rfl
@[simp] theorem State.setBoot_evq (g : BootSt → BootSt) : (s.setBoot g).evq = s.evq := rfl
@[simp] theorem State.setBoot_rdata (g : BootSt → BootSt) : (s.setBoot g).rdata = s.rdata := rfl
@[simp] theorem State.setBoot_flash (g : BootSt → BootSt) : (s.setBoot g).flash = s.flash := rfl
@[simp] theorem State.setBoot_flashOk (g : BootSt → BootSt) : (s.setBoot g).flashOk = s.flashOk := rfl
@[simp] theorem State.setBoot_deviceId (g : BootSt → BootSt) : (s.setBoot g).deviceId = s.deviceId := rfl
@[simp] theorem State.setBoot_evt (g : BootSt → BootSt) : (s.setBoot g).evt = s.evt := rfl
@[simp] theorem State.setBoot_ym (g : BootSt → BootSt) : (s.setBoot g).ym = s.ym := rfl
@[simp] theorem State.setBoot_bt (g : BootSt → BootSt) : (s.setBoot g).bt = s.bt := rfl
@[simp] theorem State.setBoot_prt (g : BootSt → BootSt) : (s.setBoot g).prt = s.prt := rfl
@[simp] theorem State.setBoot_egress (g : BootSt → BootSt) : (s.setBoot g).egress = s.egress := rfl
@[simp] theorem State.setBoot_pwr (g : BootSt → BootSt) : (s.setBoot g).pwr = s.pwr := rfl
@[simp] theorem State.setBoot_host (g : BootSt → BootSt) : (s.setBoot g).host = s.host := rfl
@[simp] theorem State.setBoot_gate (g : BootSt → BootSt) : (s.setBoot g).gate = s.gate := rfl
@[simp] theorem State.setBoot_yard (g : BootSt → BootSt) : (s.setBoot g).yard = s.yard := rfl
@[simp] theorem State.setBoot_loft (g : BootSt → BootSt) : (s.setBoot g).loft = s.loft := rfl
@[simp] theorem State.setBoot_pool (g : BootSt → BootSt) : (s.setBoot g).pool = s.pool := rfl
@[simp] theorem State.setBoot_guard (g : BootSt → BootSt) : (s.setBoot g).guard = s.guard := rfl
@[simp] theorem State.setBoot_groom (g : BootSt → BootSt) : (s.setBoot g).groom = s.groom := rfl
@[simp] theorem State.setBoot_sealSt (g : BootSt → BootSt) : (s.setBoot g).sealSt = s.sealSt := rfl
@[simp] theorem State.setBoot_vault (g : BootSt → BootSt) : (s.setBoot g).vault = s.vault := rfl
@[simp] theorem State.setBoot_otp (g : BootSt → BootSt) : (s.setBoot g).otp = s.otp := rfl
@[simp] theorem State.setBoot_lifeSt (g : BootSt → BootSt) : (s.setBoot g).lifeSt = s.lifeSt := rfl
@[simp] theorem State.setBoot_tud (g : BootSt → BootSt) : (s.setBoot g).tud = s.tud := rfl
@[simp] theorem State.setBoot_mtest (g : BootSt → BootSt) : (s.setBoot g).mtest = s.mtest := rfl
@[simp] theorem State.setBoot_pair (g : BootSt → BootSt) : (s.setBoot g).pair = s.pair := rfl
@[simp] theorem State.setBoot_pairSeq (g : BootSt → BootSt) : (s.setBoot g).pairSeq = s.pairSeq := rfl
@[simp] theorem State.setBoot_pending (g : BootSt → BootSt) : (s.setBoot g).pending = s.pending := rfl
@[simp] theorem State.setBoot_boot (g : BootSt → BootSt) : (s.setBoot g).boot = g s.boot := rfl
@[simp] theorem State.setBoot_get (g : BootSt → BootSt) (f : Fld) : (s.setBoot g).get f = s.get f := rfl

@[simp] theorem State.setOtp_fields (g : OtpSt → OtpSt) : (s.setOtp g).fields = s.fields := rfl
@[simp] theorem State.setOtp_tmr (g : OtpSt → OtpSt) : (s.setOtp g).tmr = s.tmr := rfl
@[simp] theorem State.setOtp_inv (g : OtpSt → OtpSt) : (s.setOtp g).inv = s.inv := rfl
@[simp] theorem State.setOtp_shadows (g : OtpSt → OtpSt) : (s.setOtp g).shadows = s.shadows := rfl
@[simp] theorem State.setOtp_clk (g : OtpSt → OtpSt) : (s.setOtp g).clk = s.clk := rfl
@[simp] theorem State.setOtp_frac (g : OtpSt → OtpSt) : (s.setOtp g).frac = s.frac := rfl
@[simp] theorem State.setOtp_dev (g : OtpSt → OtpSt) : (s.setOtp g).dev = s.dev := rfl
@[simp] theorem State.setOtp_free (g : OtpSt → OtpSt) : (s.setOtp g).free = s.free := rfl
@[simp] theorem State.setOtp_out (g : OtpSt → OtpSt) : (s.setOtp g).out = s.out := rfl
@[simp] theorem State.setOtp_evq (g : OtpSt → OtpSt) : (s.setOtp g).evq = s.evq := rfl
@[simp] theorem State.setOtp_rdata (g : OtpSt → OtpSt) : (s.setOtp g).rdata = s.rdata := rfl
@[simp] theorem State.setOtp_flash (g : OtpSt → OtpSt) : (s.setOtp g).flash = s.flash := rfl
@[simp] theorem State.setOtp_flashOk (g : OtpSt → OtpSt) : (s.setOtp g).flashOk = s.flashOk := rfl
@[simp] theorem State.setOtp_deviceId (g : OtpSt → OtpSt) : (s.setOtp g).deviceId = s.deviceId := rfl
@[simp] theorem State.setOtp_evt (g : OtpSt → OtpSt) : (s.setOtp g).evt = s.evt := rfl
@[simp] theorem State.setOtp_ym (g : OtpSt → OtpSt) : (s.setOtp g).ym = s.ym := rfl
@[simp] theorem State.setOtp_bt (g : OtpSt → OtpSt) : (s.setOtp g).bt = s.bt := rfl
@[simp] theorem State.setOtp_prt (g : OtpSt → OtpSt) : (s.setOtp g).prt = s.prt := rfl
@[simp] theorem State.setOtp_egress (g : OtpSt → OtpSt) : (s.setOtp g).egress = s.egress := rfl
@[simp] theorem State.setOtp_pwr (g : OtpSt → OtpSt) : (s.setOtp g).pwr = s.pwr := rfl
@[simp] theorem State.setOtp_host (g : OtpSt → OtpSt) : (s.setOtp g).host = s.host := rfl
@[simp] theorem State.setOtp_gate (g : OtpSt → OtpSt) : (s.setOtp g).gate = s.gate := rfl
@[simp] theorem State.setOtp_yard (g : OtpSt → OtpSt) : (s.setOtp g).yard = s.yard := rfl
@[simp] theorem State.setOtp_loft (g : OtpSt → OtpSt) : (s.setOtp g).loft = s.loft := rfl
@[simp] theorem State.setOtp_pool (g : OtpSt → OtpSt) : (s.setOtp g).pool = s.pool := rfl
@[simp] theorem State.setOtp_guard (g : OtpSt → OtpSt) : (s.setOtp g).guard = s.guard := rfl
@[simp] theorem State.setOtp_groom (g : OtpSt → OtpSt) : (s.setOtp g).groom = s.groom := rfl
@[simp] theorem State.setOtp_sealSt (g : OtpSt → OtpSt) : (s.setOtp g).sealSt = s.sealSt := rfl
@[simp] theorem State.setOtp_vault (g : OtpSt → OtpSt) : (s.setOtp g).vault = s.vault := rfl
@[simp] theorem State.setOtp_lifeSt (g : OtpSt → OtpSt) : (s.setOtp g).lifeSt = s.lifeSt := rfl
@[simp] theorem State.setOtp_boot (g : OtpSt → OtpSt) : (s.setOtp g).boot = s.boot := rfl
@[simp] theorem State.setOtp_tud (g : OtpSt → OtpSt) : (s.setOtp g).tud = s.tud := rfl
@[simp] theorem State.setOtp_mtest (g : OtpSt → OtpSt) : (s.setOtp g).mtest = s.mtest := rfl
@[simp] theorem State.setOtp_pair (g : OtpSt → OtpSt) : (s.setOtp g).pair = s.pair := rfl
@[simp] theorem State.setOtp_pairSeq (g : OtpSt → OtpSt) : (s.setOtp g).pairSeq = s.pairSeq := rfl
@[simp] theorem State.setOtp_pending (g : OtpSt → OtpSt) : (s.setOtp g).pending = s.pending := rfl
@[simp] theorem State.setOtp_otp (g : OtpSt → OtpSt) : (s.setOtp g).otp = g s.otp := rfl
@[simp] theorem State.setOtp_get (g : OtpSt → OtpSt) (f : Fld) : (s.setOtp g).get f = s.get f := rfl

@[simp] theorem State.setLife_fields (g : LifeSt → LifeSt) : (s.setLife g).fields = s.fields := rfl
@[simp] theorem State.setLife_tmr (g : LifeSt → LifeSt) : (s.setLife g).tmr = s.tmr := rfl
@[simp] theorem State.setLife_inv (g : LifeSt → LifeSt) : (s.setLife g).inv = s.inv := rfl
@[simp] theorem State.setLife_shadows (g : LifeSt → LifeSt) : (s.setLife g).shadows = s.shadows := rfl
@[simp] theorem State.setLife_clk (g : LifeSt → LifeSt) : (s.setLife g).clk = s.clk := rfl
@[simp] theorem State.setLife_frac (g : LifeSt → LifeSt) : (s.setLife g).frac = s.frac := rfl
@[simp] theorem State.setLife_dev (g : LifeSt → LifeSt) : (s.setLife g).dev = s.dev := rfl
@[simp] theorem State.setLife_free (g : LifeSt → LifeSt) : (s.setLife g).free = s.free := rfl
@[simp] theorem State.setLife_out (g : LifeSt → LifeSt) : (s.setLife g).out = s.out := rfl
@[simp] theorem State.setLife_evq (g : LifeSt → LifeSt) : (s.setLife g).evq = s.evq := rfl
@[simp] theorem State.setLife_rdata (g : LifeSt → LifeSt) : (s.setLife g).rdata = s.rdata := rfl
@[simp] theorem State.setLife_flash (g : LifeSt → LifeSt) : (s.setLife g).flash = s.flash := rfl
@[simp] theorem State.setLife_flashOk (g : LifeSt → LifeSt) : (s.setLife g).flashOk = s.flashOk := rfl
@[simp] theorem State.setLife_deviceId (g : LifeSt → LifeSt) : (s.setLife g).deviceId = s.deviceId := rfl
@[simp] theorem State.setLife_evt (g : LifeSt → LifeSt) : (s.setLife g).evt = s.evt := rfl
@[simp] theorem State.setLife_ym (g : LifeSt → LifeSt) : (s.setLife g).ym = s.ym := rfl
@[simp] theorem State.setLife_bt (g : LifeSt → LifeSt) : (s.setLife g).bt = s.bt := rfl
@[simp] theorem State.setLife_prt (g : LifeSt → LifeSt) : (s.setLife g).prt = s.prt := rfl
@[simp] theorem State.setLife_egress (g : LifeSt → LifeSt) : (s.setLife g).egress = s.egress := rfl
@[simp] theorem State.setLife_pwr (g : LifeSt → LifeSt) : (s.setLife g).pwr = s.pwr := rfl
@[simp] theorem State.setLife_host (g : LifeSt → LifeSt) : (s.setLife g).host = s.host := rfl
@[simp] theorem State.setLife_gate (g : LifeSt → LifeSt) : (s.setLife g).gate = s.gate := rfl
@[simp] theorem State.setLife_yard (g : LifeSt → LifeSt) : (s.setLife g).yard = s.yard := rfl
@[simp] theorem State.setLife_loft (g : LifeSt → LifeSt) : (s.setLife g).loft = s.loft := rfl
@[simp] theorem State.setLife_pool (g : LifeSt → LifeSt) : (s.setLife g).pool = s.pool := rfl
@[simp] theorem State.setLife_guard (g : LifeSt → LifeSt) : (s.setLife g).guard = s.guard := rfl
@[simp] theorem State.setLife_groom (g : LifeSt → LifeSt) : (s.setLife g).groom = s.groom := rfl
@[simp] theorem State.setLife_sealSt (g : LifeSt → LifeSt) : (s.setLife g).sealSt = s.sealSt := rfl
@[simp] theorem State.setLife_vault (g : LifeSt → LifeSt) : (s.setLife g).vault = s.vault := rfl
@[simp] theorem State.setLife_otp (g : LifeSt → LifeSt) : (s.setLife g).otp = s.otp := rfl
@[simp] theorem State.setLife_boot (g : LifeSt → LifeSt) : (s.setLife g).boot = s.boot := rfl
@[simp] theorem State.setLife_tud (g : LifeSt → LifeSt) : (s.setLife g).tud = s.tud := rfl
@[simp] theorem State.setLife_mtest (g : LifeSt → LifeSt) : (s.setLife g).mtest = s.mtest := rfl
@[simp] theorem State.setLife_pair (g : LifeSt → LifeSt) : (s.setLife g).pair = s.pair := rfl
@[simp] theorem State.setLife_pairSeq (g : LifeSt → LifeSt) : (s.setLife g).pairSeq = s.pairSeq := rfl
@[simp] theorem State.setLife_pending (g : LifeSt → LifeSt) : (s.setLife g).pending = s.pending := rfl
@[simp] theorem State.setLife_lifeSt (g : LifeSt → LifeSt) : (s.setLife g).lifeSt = g s.lifeSt := rfl
@[simp] theorem State.setLife_get (g : LifeSt → LifeSt) (f : Fld) : (s.setLife g).get f = s.get f := rfl

@[simp] theorem State.setLoft_fields (g : LoftSt → LoftSt) : (s.setLoft g).fields = s.fields := rfl
@[simp] theorem State.setLoft_tmr (g : LoftSt → LoftSt) : (s.setLoft g).tmr = s.tmr := rfl
@[simp] theorem State.setLoft_inv (g : LoftSt → LoftSt) : (s.setLoft g).inv = s.inv := rfl
@[simp] theorem State.setLoft_shadows (g : LoftSt → LoftSt) : (s.setLoft g).shadows = s.shadows := rfl
@[simp] theorem State.setLoft_clk (g : LoftSt → LoftSt) : (s.setLoft g).clk = s.clk := rfl
@[simp] theorem State.setLoft_frac (g : LoftSt → LoftSt) : (s.setLoft g).frac = s.frac := rfl
@[simp] theorem State.setLoft_dev (g : LoftSt → LoftSt) : (s.setLoft g).dev = s.dev := rfl
@[simp] theorem State.setLoft_free (g : LoftSt → LoftSt) : (s.setLoft g).free = s.free := rfl
@[simp] theorem State.setLoft_out (g : LoftSt → LoftSt) : (s.setLoft g).out = s.out := rfl
@[simp] theorem State.setLoft_evq (g : LoftSt → LoftSt) : (s.setLoft g).evq = s.evq := rfl
@[simp] theorem State.setLoft_rdata (g : LoftSt → LoftSt) : (s.setLoft g).rdata = s.rdata := rfl
@[simp] theorem State.setLoft_flash (g : LoftSt → LoftSt) : (s.setLoft g).flash = s.flash := rfl
@[simp] theorem State.setLoft_flashOk (g : LoftSt → LoftSt) : (s.setLoft g).flashOk = s.flashOk := rfl
@[simp] theorem State.setLoft_deviceId (g : LoftSt → LoftSt) : (s.setLoft g).deviceId = s.deviceId := rfl
@[simp] theorem State.setLoft_evt (g : LoftSt → LoftSt) : (s.setLoft g).evt = s.evt := rfl
@[simp] theorem State.setLoft_ym (g : LoftSt → LoftSt) : (s.setLoft g).ym = s.ym := rfl
@[simp] theorem State.setLoft_bt (g : LoftSt → LoftSt) : (s.setLoft g).bt = s.bt := rfl
@[simp] theorem State.setLoft_prt (g : LoftSt → LoftSt) : (s.setLoft g).prt = s.prt := rfl
@[simp] theorem State.setLoft_egress (g : LoftSt → LoftSt) : (s.setLoft g).egress = s.egress := rfl
@[simp] theorem State.setLoft_pwr (g : LoftSt → LoftSt) : (s.setLoft g).pwr = s.pwr := rfl
@[simp] theorem State.setLoft_host (g : LoftSt → LoftSt) : (s.setLoft g).host = s.host := rfl
@[simp] theorem State.setLoft_gate (g : LoftSt → LoftSt) : (s.setLoft g).gate = s.gate := rfl
@[simp] theorem State.setLoft_yard (g : LoftSt → LoftSt) : (s.setLoft g).yard = s.yard := rfl
@[simp] theorem State.setLoft_pool (g : LoftSt → LoftSt) : (s.setLoft g).pool = s.pool := rfl
@[simp] theorem State.setLoft_guard (g : LoftSt → LoftSt) : (s.setLoft g).guard = s.guard := rfl
@[simp] theorem State.setLoft_groom (g : LoftSt → LoftSt) : (s.setLoft g).groom = s.groom := rfl
@[simp] theorem State.setLoft_sealSt (g : LoftSt → LoftSt) : (s.setLoft g).sealSt = s.sealSt := rfl
@[simp] theorem State.setLoft_vault (g : LoftSt → LoftSt) : (s.setLoft g).vault = s.vault := rfl
@[simp] theorem State.setLoft_otp (g : LoftSt → LoftSt) : (s.setLoft g).otp = s.otp := rfl
@[simp] theorem State.setLoft_lifeSt (g : LoftSt → LoftSt) : (s.setLoft g).lifeSt = s.lifeSt := rfl
@[simp] theorem State.setLoft_boot (g : LoftSt → LoftSt) : (s.setLoft g).boot = s.boot := rfl
@[simp] theorem State.setLoft_tud (g : LoftSt → LoftSt) : (s.setLoft g).tud = s.tud := rfl
@[simp] theorem State.setLoft_mtest (g : LoftSt → LoftSt) : (s.setLoft g).mtest = s.mtest := rfl
@[simp] theorem State.setLoft_pair (g : LoftSt → LoftSt) : (s.setLoft g).pair = s.pair := rfl
@[simp] theorem State.setLoft_pairSeq (g : LoftSt → LoftSt) : (s.setLoft g).pairSeq = s.pairSeq := rfl
@[simp] theorem State.setLoft_pending (g : LoftSt → LoftSt) : (s.setLoft g).pending = s.pending := rfl
@[simp] theorem State.setLoft_loft (g : LoftSt → LoftSt) : (s.setLoft g).loft = g s.loft := rfl
@[simp] theorem State.setLoft_get (g : LoftSt → LoftSt) (f : Fld) : (s.setLoft g).get f = s.get f := rfl

@[simp] theorem State.setPair_fields (g : PairSt → PairSt) : (s.setPair g).fields = s.fields := rfl
@[simp] theorem State.setPair_tmr (g : PairSt → PairSt) : (s.setPair g).tmr = s.tmr := rfl
@[simp] theorem State.setPair_inv (g : PairSt → PairSt) : (s.setPair g).inv = s.inv := rfl
@[simp] theorem State.setPair_shadows (g : PairSt → PairSt) : (s.setPair g).shadows = s.shadows := rfl
@[simp] theorem State.setPair_clk (g : PairSt → PairSt) : (s.setPair g).clk = s.clk := rfl
@[simp] theorem State.setPair_frac (g : PairSt → PairSt) : (s.setPair g).frac = s.frac := rfl
@[simp] theorem State.setPair_dev (g : PairSt → PairSt) : (s.setPair g).dev = s.dev := rfl
@[simp] theorem State.setPair_free (g : PairSt → PairSt) : (s.setPair g).free = s.free := rfl
@[simp] theorem State.setPair_out (g : PairSt → PairSt) : (s.setPair g).out = s.out := rfl
@[simp] theorem State.setPair_evq (g : PairSt → PairSt) : (s.setPair g).evq = s.evq := rfl
@[simp] theorem State.setPair_rdata (g : PairSt → PairSt) : (s.setPair g).rdata = s.rdata := rfl
@[simp] theorem State.setPair_flash (g : PairSt → PairSt) : (s.setPair g).flash = s.flash := rfl
@[simp] theorem State.setPair_flashOk (g : PairSt → PairSt) : (s.setPair g).flashOk = s.flashOk := rfl
@[simp] theorem State.setPair_deviceId (g : PairSt → PairSt) : (s.setPair g).deviceId = s.deviceId := rfl
@[simp] theorem State.setPair_evt (g : PairSt → PairSt) : (s.setPair g).evt = s.evt := rfl
@[simp] theorem State.setPair_ym (g : PairSt → PairSt) : (s.setPair g).ym = s.ym := rfl
@[simp] theorem State.setPair_bt (g : PairSt → PairSt) : (s.setPair g).bt = s.bt := rfl
@[simp] theorem State.setPair_prt (g : PairSt → PairSt) : (s.setPair g).prt = s.prt := rfl
@[simp] theorem State.setPair_egress (g : PairSt → PairSt) : (s.setPair g).egress = s.egress := rfl
@[simp] theorem State.setPair_pwr (g : PairSt → PairSt) : (s.setPair g).pwr = s.pwr := rfl
@[simp] theorem State.setPair_host (g : PairSt → PairSt) : (s.setPair g).host = s.host := rfl
@[simp] theorem State.setPair_gate (g : PairSt → PairSt) : (s.setPair g).gate = s.gate := rfl
@[simp] theorem State.setPair_yard (g : PairSt → PairSt) : (s.setPair g).yard = s.yard := rfl
@[simp] theorem State.setPair_loft (g : PairSt → PairSt) : (s.setPair g).loft = s.loft := rfl
@[simp] theorem State.setPair_pool (g : PairSt → PairSt) : (s.setPair g).pool = s.pool := rfl
@[simp] theorem State.setPair_guard (g : PairSt → PairSt) : (s.setPair g).guard = s.guard := rfl
@[simp] theorem State.setPair_groom (g : PairSt → PairSt) : (s.setPair g).groom = s.groom := rfl
@[simp] theorem State.setPair_sealSt (g : PairSt → PairSt) : (s.setPair g).sealSt = s.sealSt := rfl
@[simp] theorem State.setPair_vault (g : PairSt → PairSt) : (s.setPair g).vault = s.vault := rfl
@[simp] theorem State.setPair_otp (g : PairSt → PairSt) : (s.setPair g).otp = s.otp := rfl
@[simp] theorem State.setPair_lifeSt (g : PairSt → PairSt) : (s.setPair g).lifeSt = s.lifeSt := rfl
@[simp] theorem State.setPair_boot (g : PairSt → PairSt) : (s.setPair g).boot = s.boot := rfl
@[simp] theorem State.setPair_tud (g : PairSt → PairSt) : (s.setPair g).tud = s.tud := rfl
@[simp] theorem State.setPair_mtest (g : PairSt → PairSt) : (s.setPair g).mtest = s.mtest := rfl
@[simp] theorem State.setPair_pairSeq (g : PairSt → PairSt) : (s.setPair g).pairSeq = s.pairSeq := rfl
@[simp] theorem State.setPair_pending (g : PairSt → PairSt) : (s.setPair g).pending = s.pending := rfl
@[simp] theorem State.setPair_pair (g : PairSt → PairSt) : (s.setPair g).pair = g s.pair := rfl
@[simp] theorem State.setPair_get (g : PairSt → PairSt) (f : Fld) : (s.setPair g).get f = s.get f := rfl

@[simp] theorem State.setPool_fields (g : PoolSt → PoolSt) : (s.setPool g).fields = s.fields := rfl
@[simp] theorem State.setPool_tmr (g : PoolSt → PoolSt) : (s.setPool g).tmr = s.tmr := rfl
@[simp] theorem State.setPool_inv (g : PoolSt → PoolSt) : (s.setPool g).inv = s.inv := rfl
@[simp] theorem State.setPool_shadows (g : PoolSt → PoolSt) : (s.setPool g).shadows = s.shadows := rfl
@[simp] theorem State.setPool_clk (g : PoolSt → PoolSt) : (s.setPool g).clk = s.clk := rfl
@[simp] theorem State.setPool_frac (g : PoolSt → PoolSt) : (s.setPool g).frac = s.frac := rfl
@[simp] theorem State.setPool_dev (g : PoolSt → PoolSt) : (s.setPool g).dev = s.dev := rfl
@[simp] theorem State.setPool_free (g : PoolSt → PoolSt) : (s.setPool g).free = s.free := rfl
@[simp] theorem State.setPool_out (g : PoolSt → PoolSt) : (s.setPool g).out = s.out := rfl
@[simp] theorem State.setPool_evq (g : PoolSt → PoolSt) : (s.setPool g).evq = s.evq := rfl
@[simp] theorem State.setPool_rdata (g : PoolSt → PoolSt) : (s.setPool g).rdata = s.rdata := rfl
@[simp] theorem State.setPool_flash (g : PoolSt → PoolSt) : (s.setPool g).flash = s.flash := rfl
@[simp] theorem State.setPool_flashOk (g : PoolSt → PoolSt) : (s.setPool g).flashOk = s.flashOk := rfl
@[simp] theorem State.setPool_deviceId (g : PoolSt → PoolSt) : (s.setPool g).deviceId = s.deviceId := rfl
@[simp] theorem State.setPool_evt (g : PoolSt → PoolSt) : (s.setPool g).evt = s.evt := rfl
@[simp] theorem State.setPool_ym (g : PoolSt → PoolSt) : (s.setPool g).ym = s.ym := rfl
@[simp] theorem State.setPool_bt (g : PoolSt → PoolSt) : (s.setPool g).bt = s.bt := rfl
@[simp] theorem State.setPool_prt (g : PoolSt → PoolSt) : (s.setPool g).prt = s.prt := rfl
@[simp] theorem State.setPool_egress (g : PoolSt → PoolSt) : (s.setPool g).egress = s.egress := rfl
@[simp] theorem State.setPool_pwr (g : PoolSt → PoolSt) : (s.setPool g).pwr = s.pwr := rfl
@[simp] theorem State.setPool_host (g : PoolSt → PoolSt) : (s.setPool g).host = s.host := rfl
@[simp] theorem State.setPool_gate (g : PoolSt → PoolSt) : (s.setPool g).gate = s.gate := rfl
@[simp] theorem State.setPool_yard (g : PoolSt → PoolSt) : (s.setPool g).yard = s.yard := rfl
@[simp] theorem State.setPool_loft (g : PoolSt → PoolSt) : (s.setPool g).loft = s.loft := rfl
@[simp] theorem State.setPool_guard (g : PoolSt → PoolSt) : (s.setPool g).guard = s.guard := rfl
@[simp] theorem State.setPool_groom (g : PoolSt → PoolSt) : (s.setPool g).groom = s.groom := rfl
@[simp] theorem State.setPool_sealSt (g : PoolSt → PoolSt) : (s.setPool g).sealSt = s.sealSt := rfl
@[simp] theorem State.setPool_vault (g : PoolSt → PoolSt) : (s.setPool g).vault = s.vault := rfl
@[simp] theorem State.setPool_otp (g : PoolSt → PoolSt) : (s.setPool g).otp = s.otp := rfl
@[simp] theorem State.setPool_lifeSt (g : PoolSt → PoolSt) : (s.setPool g).lifeSt = s.lifeSt := rfl
@[simp] theorem State.setPool_boot (g : PoolSt → PoolSt) : (s.setPool g).boot = s.boot := rfl
@[simp] theorem State.setPool_tud (g : PoolSt → PoolSt) : (s.setPool g).tud = s.tud := rfl
@[simp] theorem State.setPool_mtest (g : PoolSt → PoolSt) : (s.setPool g).mtest = s.mtest := rfl
@[simp] theorem State.setPool_pair (g : PoolSt → PoolSt) : (s.setPool g).pair = s.pair := rfl
@[simp] theorem State.setPool_pairSeq (g : PoolSt → PoolSt) : (s.setPool g).pairSeq = s.pairSeq := rfl
@[simp] theorem State.setPool_pending (g : PoolSt → PoolSt) : (s.setPool g).pending = s.pending := rfl
@[simp] theorem State.setPool_pool (g : PoolSt → PoolSt) : (s.setPool g).pool = g s.pool := rfl
@[simp] theorem State.setPool_get (g : PoolSt → PoolSt) (f : Fld) : (s.setPool g).get f = s.get f := rfl

@[simp] theorem State.setGroom_fields (g : GroomSt → GroomSt) : (s.setGroom g).fields = s.fields := rfl
@[simp] theorem State.setGroom_tmr (g : GroomSt → GroomSt) : (s.setGroom g).tmr = s.tmr := rfl
@[simp] theorem State.setGroom_inv (g : GroomSt → GroomSt) : (s.setGroom g).inv = s.inv := rfl
@[simp] theorem State.setGroom_shadows (g : GroomSt → GroomSt) : (s.setGroom g).shadows = s.shadows := rfl
@[simp] theorem State.setGroom_clk (g : GroomSt → GroomSt) : (s.setGroom g).clk = s.clk := rfl
@[simp] theorem State.setGroom_frac (g : GroomSt → GroomSt) : (s.setGroom g).frac = s.frac := rfl
@[simp] theorem State.setGroom_dev (g : GroomSt → GroomSt) : (s.setGroom g).dev = s.dev := rfl
@[simp] theorem State.setGroom_free (g : GroomSt → GroomSt) : (s.setGroom g).free = s.free := rfl
@[simp] theorem State.setGroom_out (g : GroomSt → GroomSt) : (s.setGroom g).out = s.out := rfl
@[simp] theorem State.setGroom_evq (g : GroomSt → GroomSt) : (s.setGroom g).evq = s.evq := rfl
@[simp] theorem State.setGroom_rdata (g : GroomSt → GroomSt) : (s.setGroom g).rdata = s.rdata := rfl
@[simp] theorem State.setGroom_flash (g : GroomSt → GroomSt) : (s.setGroom g).flash = s.flash := rfl
@[simp] theorem State.setGroom_flashOk (g : GroomSt → GroomSt) : (s.setGroom g).flashOk = s.flashOk := rfl
@[simp] theorem State.setGroom_deviceId (g : GroomSt → GroomSt) : (s.setGroom g).deviceId = s.deviceId := rfl
@[simp] theorem State.setGroom_evt (g : GroomSt → GroomSt) : (s.setGroom g).evt = s.evt := rfl
@[simp] theorem State.setGroom_ym (g : GroomSt → GroomSt) : (s.setGroom g).ym = s.ym := rfl
@[simp] theorem State.setGroom_bt (g : GroomSt → GroomSt) : (s.setGroom g).bt = s.bt := rfl
@[simp] theorem State.setGroom_prt (g : GroomSt → GroomSt) : (s.setGroom g).prt = s.prt := rfl
@[simp] theorem State.setGroom_egress (g : GroomSt → GroomSt) : (s.setGroom g).egress = s.egress := rfl
@[simp] theorem State.setGroom_pwr (g : GroomSt → GroomSt) : (s.setGroom g).pwr = s.pwr := rfl
@[simp] theorem State.setGroom_host (g : GroomSt → GroomSt) : (s.setGroom g).host = s.host := rfl
@[simp] theorem State.setGroom_gate (g : GroomSt → GroomSt) : (s.setGroom g).gate = s.gate := rfl
@[simp] theorem State.setGroom_yard (g : GroomSt → GroomSt) : (s.setGroom g).yard = s.yard := rfl
@[simp] theorem State.setGroom_loft (g : GroomSt → GroomSt) : (s.setGroom g).loft = s.loft := rfl
@[simp] theorem State.setGroom_pool (g : GroomSt → GroomSt) : (s.setGroom g).pool = s.pool := rfl
@[simp] theorem State.setGroom_guard (g : GroomSt → GroomSt) : (s.setGroom g).guard = s.guard := rfl
@[simp] theorem State.setGroom_sealSt (g : GroomSt → GroomSt) : (s.setGroom g).sealSt = s.sealSt := rfl
@[simp] theorem State.setGroom_vault (g : GroomSt → GroomSt) : (s.setGroom g).vault = s.vault := rfl
@[simp] theorem State.setGroom_otp (g : GroomSt → GroomSt) : (s.setGroom g).otp = s.otp := rfl
@[simp] theorem State.setGroom_lifeSt (g : GroomSt → GroomSt) : (s.setGroom g).lifeSt = s.lifeSt := rfl
@[simp] theorem State.setGroom_boot (g : GroomSt → GroomSt) : (s.setGroom g).boot = s.boot := rfl
@[simp] theorem State.setGroom_tud (g : GroomSt → GroomSt) : (s.setGroom g).tud = s.tud := rfl
@[simp] theorem State.setGroom_mtest (g : GroomSt → GroomSt) : (s.setGroom g).mtest = s.mtest := rfl
@[simp] theorem State.setGroom_pair (g : GroomSt → GroomSt) : (s.setGroom g).pair = s.pair := rfl
@[simp] theorem State.setGroom_pairSeq (g : GroomSt → GroomSt) : (s.setGroom g).pairSeq = s.pairSeq := rfl
@[simp] theorem State.setGroom_pending (g : GroomSt → GroomSt) : (s.setGroom g).pending = s.pending := rfl
@[simp] theorem State.setGroom_groom (g : GroomSt → GroomSt) : (s.setGroom g).groom = g s.groom := rfl
@[simp] theorem State.setGroom_get (g : GroomSt → GroomSt) (f : Fld) : (s.setGroom g).get f = s.get f := rfl

@[simp] theorem State.setMt_fields (g : MtestSt → MtestSt) : (s.setMt g).fields = s.fields := rfl
@[simp] theorem State.setMt_tmr (g : MtestSt → MtestSt) : (s.setMt g).tmr = s.tmr := rfl
@[simp] theorem State.setMt_inv (g : MtestSt → MtestSt) : (s.setMt g).inv = s.inv := rfl
@[simp] theorem State.setMt_shadows (g : MtestSt → MtestSt) : (s.setMt g).shadows = s.shadows := rfl
@[simp] theorem State.setMt_clk (g : MtestSt → MtestSt) : (s.setMt g).clk = s.clk := rfl
@[simp] theorem State.setMt_frac (g : MtestSt → MtestSt) : (s.setMt g).frac = s.frac := rfl
@[simp] theorem State.setMt_dev (g : MtestSt → MtestSt) : (s.setMt g).dev = s.dev := rfl
@[simp] theorem State.setMt_free (g : MtestSt → MtestSt) : (s.setMt g).free = s.free := rfl
@[simp] theorem State.setMt_out (g : MtestSt → MtestSt) : (s.setMt g).out = s.out := rfl
@[simp] theorem State.setMt_evq (g : MtestSt → MtestSt) : (s.setMt g).evq = s.evq := rfl
@[simp] theorem State.setMt_rdata (g : MtestSt → MtestSt) : (s.setMt g).rdata = s.rdata := rfl
@[simp] theorem State.setMt_flash (g : MtestSt → MtestSt) : (s.setMt g).flash = s.flash := rfl
@[simp] theorem State.setMt_flashOk (g : MtestSt → MtestSt) : (s.setMt g).flashOk = s.flashOk := rfl
@[simp] theorem State.setMt_deviceId (g : MtestSt → MtestSt) : (s.setMt g).deviceId = s.deviceId := rfl
@[simp] theorem State.setMt_evt (g : MtestSt → MtestSt) : (s.setMt g).evt = s.evt := rfl
@[simp] theorem State.setMt_ym (g : MtestSt → MtestSt) : (s.setMt g).ym = s.ym := rfl
@[simp] theorem State.setMt_bt (g : MtestSt → MtestSt) : (s.setMt g).bt = s.bt := rfl
@[simp] theorem State.setMt_prt (g : MtestSt → MtestSt) : (s.setMt g).prt = s.prt := rfl
@[simp] theorem State.setMt_egress (g : MtestSt → MtestSt) : (s.setMt g).egress = s.egress := rfl
@[simp] theorem State.setMt_pwr (g : MtestSt → MtestSt) : (s.setMt g).pwr = s.pwr := rfl
@[simp] theorem State.setMt_host (g : MtestSt → MtestSt) : (s.setMt g).host = s.host := rfl
@[simp] theorem State.setMt_gate (g : MtestSt → MtestSt) : (s.setMt g).gate = s.gate := rfl
@[simp] theorem State.setMt_yard (g : MtestSt → MtestSt) : (s.setMt g).yard = s.yard := rfl
@[simp] theorem State.setMt_loft (g : MtestSt → MtestSt) : (s.setMt g).loft = s.loft := rfl
@[simp] theorem State.setMt_pool (g : MtestSt → MtestSt) : (s.setMt g).pool = s.pool := rfl
@[simp] theorem State.setMt_guard (g : MtestSt → MtestSt) : (s.setMt g).guard = s.guard := rfl
@[simp] theorem State.setMt_groom (g : MtestSt → MtestSt) : (s.setMt g).groom = s.groom := rfl
@[simp] theorem State.setMt_sealSt (g : MtestSt → MtestSt) : (s.setMt g).sealSt = s.sealSt := rfl
@[simp] theorem State.setMt_vault (g : MtestSt → MtestSt) : (s.setMt g).vault = s.vault := rfl
@[simp] theorem State.setMt_otp (g : MtestSt → MtestSt) : (s.setMt g).otp = s.otp := rfl
@[simp] theorem State.setMt_lifeSt (g : MtestSt → MtestSt) : (s.setMt g).lifeSt = s.lifeSt := rfl
@[simp] theorem State.setMt_boot (g : MtestSt → MtestSt) : (s.setMt g).boot = s.boot := rfl
@[simp] theorem State.setMt_tud (g : MtestSt → MtestSt) : (s.setMt g).tud = s.tud := rfl
@[simp] theorem State.setMt_pair (g : MtestSt → MtestSt) : (s.setMt g).pair = s.pair := rfl
@[simp] theorem State.setMt_pairSeq (g : MtestSt → MtestSt) : (s.setMt g).pairSeq = s.pairSeq := rfl
@[simp] theorem State.setMt_pending (g : MtestSt → MtestSt) : (s.setMt g).pending = s.pending := rfl
@[simp] theorem State.setMt_mtest (g : MtestSt → MtestSt) : (s.setMt g).mtest = g s.mtest := rfl
@[simp] theorem State.setMt_get (g : MtestSt → MtestSt) (f : Fld) : (s.setMt g).get f = s.get f := rfl

@[simp] theorem State.setSeal_fields (g : SealSt → SealSt) : (s.setSeal g).fields = s.fields := rfl
@[simp] theorem State.setSeal_tmr (g : SealSt → SealSt) : (s.setSeal g).tmr = s.tmr := rfl
@[simp] theorem State.setSeal_inv (g : SealSt → SealSt) : (s.setSeal g).inv = s.inv := rfl
@[simp] theorem State.setSeal_shadows (g : SealSt → SealSt) : (s.setSeal g).shadows = s.shadows := rfl
@[simp] theorem State.setSeal_clk (g : SealSt → SealSt) : (s.setSeal g).clk = s.clk := rfl
@[simp] theorem State.setSeal_frac (g : SealSt → SealSt) : (s.setSeal g).frac = s.frac := rfl
@[simp] theorem State.setSeal_dev (g : SealSt → SealSt) : (s.setSeal g).dev = s.dev := rfl
@[simp] theorem State.setSeal_free (g : SealSt → SealSt) : (s.setSeal g).free = s.free := rfl
@[simp] theorem State.setSeal_out (g : SealSt → SealSt) : (s.setSeal g).out = s.out := rfl
@[simp] theorem State.setSeal_evq (g : SealSt → SealSt) : (s.setSeal g).evq = s.evq := rfl
@[simp] theorem State.setSeal_rdata (g : SealSt → SealSt) : (s.setSeal g).rdata = s.rdata := rfl
@[simp] theorem State.setSeal_flash (g : SealSt → SealSt) : (s.setSeal g).flash = s.flash := rfl
@[simp] theorem State.setSeal_flashOk (g : SealSt → SealSt) : (s.setSeal g).flashOk = s.flashOk := rfl
@[simp] theorem State.setSeal_deviceId (g : SealSt → SealSt) : (s.setSeal g).deviceId = s.deviceId := rfl
@[simp] theorem State.setSeal_evt (g : SealSt → SealSt) : (s.setSeal g).evt = s.evt := rfl
@[simp] theorem State.setSeal_ym (g : SealSt → SealSt) : (s.setSeal g).ym = s.ym := rfl
@[simp] theorem State.setSeal_bt (g : SealSt → SealSt) : (s.setSeal g).bt = s.bt := rfl
@[simp] theorem State.setSeal_prt (g : SealSt → SealSt) : (s.setSeal g).prt = s.prt := rfl
@[simp] theorem State.setSeal_egress (g : SealSt → SealSt) : (s.setSeal g).egress = s.egress := rfl
@[simp] theorem State.setSeal_pwr (g : SealSt → SealSt) : (s.setSeal g).pwr = s.pwr := rfl
@[simp] theorem State.setSeal_host (g : SealSt → SealSt) : (s.setSeal g).host = s.host := rfl
@[simp] theorem State.setSeal_gate (g : SealSt → SealSt) : (s.setSeal g).gate = s.gate := rfl
@[simp] theorem State.setSeal_yard (g : SealSt → SealSt) : (s.setSeal g).yard = s.yard := rfl
@[simp] theorem State.setSeal_loft (g : SealSt → SealSt) : (s.setSeal g).loft = s.loft := rfl
@[simp] theorem State.setSeal_pool (g : SealSt → SealSt) : (s.setSeal g).pool = s.pool := rfl
@[simp] theorem State.setSeal_guard (g : SealSt → SealSt) : (s.setSeal g).guard = s.guard := rfl
@[simp] theorem State.setSeal_groom (g : SealSt → SealSt) : (s.setSeal g).groom = s.groom := rfl
@[simp] theorem State.setSeal_vault (g : SealSt → SealSt) : (s.setSeal g).vault = s.vault := rfl
@[simp] theorem State.setSeal_otp (g : SealSt → SealSt) : (s.setSeal g).otp = s.otp := rfl
@[simp] theorem State.setSeal_lifeSt (g : SealSt → SealSt) : (s.setSeal g).lifeSt = s.lifeSt := rfl
@[simp] theorem State.setSeal_boot (g : SealSt → SealSt) : (s.setSeal g).boot = s.boot := rfl
@[simp] theorem State.setSeal_tud (g : SealSt → SealSt) : (s.setSeal g).tud = s.tud := rfl
@[simp] theorem State.setSeal_mtest (g : SealSt → SealSt) : (s.setSeal g).mtest = s.mtest := rfl
@[simp] theorem State.setSeal_pair (g : SealSt → SealSt) : (s.setSeal g).pair = s.pair := rfl
@[simp] theorem State.setSeal_pairSeq (g : SealSt → SealSt) : (s.setSeal g).pairSeq = s.pairSeq := rfl
@[simp] theorem State.setSeal_pending (g : SealSt → SealSt) : (s.setSeal g).pending = s.pending := rfl
@[simp] theorem State.setSeal_sealSt (g : SealSt → SealSt) : (s.setSeal g).sealSt = g s.sealSt := rfl
@[simp] theorem State.setSeal_get (g : SealSt → SealSt) (f : Fld) : (s.setSeal g).get f = s.get f := rfl

@[simp] theorem State.setHost_fields (g : HostSt → HostSt) : (s.setHost g).fields = s.fields := rfl
@[simp] theorem State.setHost_tmr (g : HostSt → HostSt) : (s.setHost g).tmr = s.tmr := rfl
@[simp] theorem State.setHost_inv (g : HostSt → HostSt) : (s.setHost g).inv = s.inv := rfl
@[simp] theorem State.setHost_shadows (g : HostSt → HostSt) : (s.setHost g).shadows = s.shadows := rfl
@[simp] theorem State.setHost_clk (g : HostSt → HostSt) : (s.setHost g).clk = s.clk := rfl
@[simp] theorem State.setHost_frac (g : HostSt → HostSt) : (s.setHost g).frac = s.frac := rfl
@[simp] theorem State.setHost_dev (g : HostSt → HostSt) : (s.setHost g).dev = s.dev := rfl
@[simp] theorem State.setHost_free (g : HostSt → HostSt) : (s.setHost g).free = s.free := rfl
@[simp] theorem State.setHost_out (g : HostSt → HostSt) : (s.setHost g).out = s.out := rfl
@[simp] theorem State.setHost_evq (g : HostSt → HostSt) : (s.setHost g).evq = s.evq := rfl
@[simp] theorem State.setHost_rdata (g : HostSt → HostSt) : (s.setHost g).rdata = s.rdata := rfl
@[simp] theorem State.setHost_flash (g : HostSt → HostSt) : (s.setHost g).flash = s.flash := rfl
@[simp] theorem State.setHost_flashOk (g : HostSt → HostSt) : (s.setHost g).flashOk = s.flashOk := rfl
@[simp] theorem State.setHost_deviceId (g : HostSt → HostSt) : (s.setHost g).deviceId = s.deviceId := rfl
@[simp] theorem State.setHost_evt (g : HostSt → HostSt) : (s.setHost g).evt = s.evt := rfl
@[simp] theorem State.setHost_ym (g : HostSt → HostSt) : (s.setHost g).ym = s.ym := rfl
@[simp] theorem State.setHost_bt (g : HostSt → HostSt) : (s.setHost g).bt = s.bt := rfl
@[simp] theorem State.setHost_prt (g : HostSt → HostSt) : (s.setHost g).prt = s.prt := rfl
@[simp] theorem State.setHost_egress (g : HostSt → HostSt) : (s.setHost g).egress = s.egress := rfl
@[simp] theorem State.setHost_pwr (g : HostSt → HostSt) : (s.setHost g).pwr = s.pwr := rfl
@[simp] theorem State.setHost_gate (g : HostSt → HostSt) : (s.setHost g).gate = s.gate := rfl
@[simp] theorem State.setHost_yard (g : HostSt → HostSt) : (s.setHost g).yard = s.yard := rfl
@[simp] theorem State.setHost_loft (g : HostSt → HostSt) : (s.setHost g).loft = s.loft := rfl
@[simp] theorem State.setHost_pool (g : HostSt → HostSt) : (s.setHost g).pool = s.pool := rfl
@[simp] theorem State.setHost_guard (g : HostSt → HostSt) : (s.setHost g).guard = s.guard := rfl
@[simp] theorem State.setHost_groom (g : HostSt → HostSt) : (s.setHost g).groom = s.groom := rfl
@[simp] theorem State.setHost_sealSt (g : HostSt → HostSt) : (s.setHost g).sealSt = s.sealSt := rfl
@[simp] theorem State.setHost_vault (g : HostSt → HostSt) : (s.setHost g).vault = s.vault := rfl
@[simp] theorem State.setHost_otp (g : HostSt → HostSt) : (s.setHost g).otp = s.otp := rfl
@[simp] theorem State.setHost_lifeSt (g : HostSt → HostSt) : (s.setHost g).lifeSt = s.lifeSt := rfl
@[simp] theorem State.setHost_boot (g : HostSt → HostSt) : (s.setHost g).boot = s.boot := rfl
@[simp] theorem State.setHost_tud (g : HostSt → HostSt) : (s.setHost g).tud = s.tud := rfl
@[simp] theorem State.setHost_mtest (g : HostSt → HostSt) : (s.setHost g).mtest = s.mtest := rfl
@[simp] theorem State.setHost_pair (g : HostSt → HostSt) : (s.setHost g).pair = s.pair := rfl
@[simp] theorem State.setHost_pairSeq (g : HostSt → HostSt) : (s.setHost g).pairSeq = s.pairSeq := rfl
@[simp] theorem State.setHost_pending (g : HostSt → HostSt) : (s.setHost g).pending = s.pending := rfl
@[simp] theorem State.setHost_host (g : HostSt → HostSt) : (s.setHost g).host = g s.host := rfl
@[simp] theorem State.setHost_get (g : HostSt → HostSt) (f : Fld) : (s.setHost g).get f = s.get f := rfl

@[simp] theorem State.setYard_fields (g : YardSt → YardSt) : (s.setYard g).fields = s.fields := rfl
@[simp] theorem State.setYard_tmr (g : YardSt → YardSt) : (s.setYard g).tmr = s.tmr := rfl
@[simp] theorem State.setYard_inv (g : YardSt → YardSt) : (s.setYard g).inv = s.inv := rfl
@[simp] theorem State.setYard_shadows (g : YardSt → YardSt) : (s.setYard g).shadows = s.shadows := rfl
@[simp] theorem State.setYard_clk (g : YardSt → YardSt) : (s.setYard g).clk = s.clk := rfl
@[simp] theorem State.setYard_frac (g : YardSt → YardSt) : (s.setYard g).frac = s.frac := rfl
@[simp] theorem State.setYard_dev (g : YardSt → YardSt) : (s.setYard g).dev = s.dev := rfl
@[simp] theorem State.setYard_free (g : YardSt → YardSt) : (s.setYard g).free = s.free := rfl
@[simp] theorem State.setYard_out (g : YardSt → YardSt) : (s.setYard g).out = s.out := rfl
@[simp] theorem State.setYard_evq (g : YardSt → YardSt) : (s.setYard g).evq = s.evq := rfl
@[simp] theorem State.setYard_rdata (g : YardSt → YardSt) : (s.setYard g).rdata = s.rdata := rfl
@[simp] theorem State.setYard_flash (g : YardSt → YardSt) : (s.setYard g).flash = s.flash := rfl
@[simp] theorem State.setYard_flashOk (g : YardSt → YardSt) : (s.setYard g).flashOk = s.flashOk := rfl
@[simp] theorem State.setYard_deviceId (g : YardSt → YardSt) : (s.setYard g).deviceId = s.deviceId := rfl
@[simp] theorem State.setYard_evt (g : YardSt → YardSt) : (s.setYard g).evt = s.evt := rfl
@[simp] theorem State.setYard_ym (g : YardSt → YardSt) : (s.setYard g).ym = s.ym := rfl
@[simp] theorem State.setYard_bt (g : YardSt → YardSt) : (s.setYard g).bt = s.bt := rfl
@[simp] theorem State.setYard_prt (g : YardSt → YardSt) : (s.setYard g).prt = s.prt := rfl
@[simp] theorem State.setYard_egress (g : YardSt → YardSt) : (s.setYard g).egress = s.egress := rfl
@[simp] theorem State.setYard_pwr (g : YardSt → YardSt) : (s.setYard g).pwr = s.pwr := rfl
@[simp] theorem State.setYard_host (g : YardSt → YardSt) : (s.setYard g).host = s.host := rfl
@[simp] theorem State.setYard_gate (g : YardSt → YardSt) : (s.setYard g).gate = s.gate := rfl
@[simp] theorem State.setYard_loft (g : YardSt → YardSt) : (s.setYard g).loft = s.loft := rfl
@[simp] theorem State.setYard_pool (g : YardSt → YardSt) : (s.setYard g).pool = s.pool := rfl
@[simp] theorem State.setYard_guard (g : YardSt → YardSt) : (s.setYard g).guard = s.guard := rfl
@[simp] theorem State.setYard_groom (g : YardSt → YardSt) : (s.setYard g).groom = s.groom := rfl
@[simp] theorem State.setYard_sealSt (g : YardSt → YardSt) : (s.setYard g).sealSt = s.sealSt := rfl
@[simp] theorem State.setYard_vault (g : YardSt → YardSt) : (s.setYard g).vault = s.vault := rfl
@[simp] theorem State.setYard_otp (g : YardSt → YardSt) : (s.setYard g).otp = s.otp := rfl
@[simp] theorem State.setYard_lifeSt (g : YardSt → YardSt) : (s.setYard g).lifeSt = s.lifeSt := rfl
@[simp] theorem State.setYard_boot (g : YardSt → YardSt) : (s.setYard g).boot = s.boot := rfl
@[simp] theorem State.setYard_tud (g : YardSt → YardSt) : (s.setYard g).tud = s.tud := rfl
@[simp] theorem State.setYard_mtest (g : YardSt → YardSt) : (s.setYard g).mtest = s.mtest := rfl
@[simp] theorem State.setYard_pair (g : YardSt → YardSt) : (s.setYard g).pair = s.pair := rfl
@[simp] theorem State.setYard_pairSeq (g : YardSt → YardSt) : (s.setYard g).pairSeq = s.pairSeq := rfl
@[simp] theorem State.setYard_pending (g : YardSt → YardSt) : (s.setYard g).pending = s.pending := rfl
@[simp] theorem State.setYard_yard (g : YardSt → YardSt) : (s.setYard g).yard = g s.yard := rfl
@[simp] theorem State.setYard_get (g : YardSt → YardSt) (f : Fld) : (s.setYard g).get f = s.get f := rfl

@[simp] theorem State.setEvt_fields (g : EvtSt → EvtSt) : (s.setEvt g).fields = s.fields := rfl
@[simp] theorem State.setEvt_tmr (g : EvtSt → EvtSt) : (s.setEvt g).tmr = s.tmr := rfl
@[simp] theorem State.setEvt_inv (g : EvtSt → EvtSt) : (s.setEvt g).inv = s.inv := rfl
@[simp] theorem State.setEvt_shadows (g : EvtSt → EvtSt) : (s.setEvt g).shadows = s.shadows := rfl
@[simp] theorem State.setEvt_clk (g : EvtSt → EvtSt) : (s.setEvt g).clk = s.clk := rfl
@[simp] theorem State.setEvt_frac (g : EvtSt → EvtSt) : (s.setEvt g).frac = s.frac := rfl
@[simp] theorem State.setEvt_dev (g : EvtSt → EvtSt) : (s.setEvt g).dev = s.dev := rfl
@[simp] theorem State.setEvt_free (g : EvtSt → EvtSt) : (s.setEvt g).free = s.free := rfl
@[simp] theorem State.setEvt_out (g : EvtSt → EvtSt) : (s.setEvt g).out = s.out := rfl
@[simp] theorem State.setEvt_evq (g : EvtSt → EvtSt) : (s.setEvt g).evq = s.evq := rfl
@[simp] theorem State.setEvt_rdata (g : EvtSt → EvtSt) : (s.setEvt g).rdata = s.rdata := rfl
@[simp] theorem State.setEvt_flash (g : EvtSt → EvtSt) : (s.setEvt g).flash = s.flash := rfl
@[simp] theorem State.setEvt_flashOk (g : EvtSt → EvtSt) : (s.setEvt g).flashOk = s.flashOk := rfl
@[simp] theorem State.setEvt_deviceId (g : EvtSt → EvtSt) : (s.setEvt g).deviceId = s.deviceId := rfl
@[simp] theorem State.setEvt_ym (g : EvtSt → EvtSt) : (s.setEvt g).ym = s.ym := rfl
@[simp] theorem State.setEvt_bt (g : EvtSt → EvtSt) : (s.setEvt g).bt = s.bt := rfl
@[simp] theorem State.setEvt_prt (g : EvtSt → EvtSt) : (s.setEvt g).prt = s.prt := rfl
@[simp] theorem State.setEvt_egress (g : EvtSt → EvtSt) : (s.setEvt g).egress = s.egress := rfl
@[simp] theorem State.setEvt_pwr (g : EvtSt → EvtSt) : (s.setEvt g).pwr = s.pwr := rfl
@[simp] theorem State.setEvt_host (g : EvtSt → EvtSt) : (s.setEvt g).host = s.host := rfl
@[simp] theorem State.setEvt_gate (g : EvtSt → EvtSt) : (s.setEvt g).gate = s.gate := rfl
@[simp] theorem State.setEvt_yard (g : EvtSt → EvtSt) : (s.setEvt g).yard = s.yard := rfl
@[simp] theorem State.setEvt_loft (g : EvtSt → EvtSt) : (s.setEvt g).loft = s.loft := rfl
@[simp] theorem State.setEvt_pool (g : EvtSt → EvtSt) : (s.setEvt g).pool = s.pool := rfl
@[simp] theorem State.setEvt_guard (g : EvtSt → EvtSt) : (s.setEvt g).guard = s.guard := rfl
@[simp] theorem State.setEvt_groom (g : EvtSt → EvtSt) : (s.setEvt g).groom = s.groom := rfl
@[simp] theorem State.setEvt_sealSt (g : EvtSt → EvtSt) : (s.setEvt g).sealSt = s.sealSt := rfl
@[simp] theorem State.setEvt_vault (g : EvtSt → EvtSt) : (s.setEvt g).vault = s.vault := rfl
@[simp] theorem State.setEvt_otp (g : EvtSt → EvtSt) : (s.setEvt g).otp = s.otp := rfl
@[simp] theorem State.setEvt_lifeSt (g : EvtSt → EvtSt) : (s.setEvt g).lifeSt = s.lifeSt := rfl
@[simp] theorem State.setEvt_boot (g : EvtSt → EvtSt) : (s.setEvt g).boot = s.boot := rfl
@[simp] theorem State.setEvt_tud (g : EvtSt → EvtSt) : (s.setEvt g).tud = s.tud := rfl
@[simp] theorem State.setEvt_mtest (g : EvtSt → EvtSt) : (s.setEvt g).mtest = s.mtest := rfl
@[simp] theorem State.setEvt_pair (g : EvtSt → EvtSt) : (s.setEvt g).pair = s.pair := rfl
@[simp] theorem State.setEvt_pairSeq (g : EvtSt → EvtSt) : (s.setEvt g).pairSeq = s.pairSeq := rfl
@[simp] theorem State.setEvt_pending (g : EvtSt → EvtSt) : (s.setEvt g).pending = s.pending := rfl
@[simp] theorem State.setEvt_evt (g : EvtSt → EvtSt) : (s.setEvt g).evt = g s.evt := rfl
@[simp] theorem State.setEvt_get (g : EvtSt → EvtSt) (f : Fld) : (s.setEvt g).get f = s.get f := rfl

@[simp] theorem State.setYm_fields (g : YmSt → YmSt) : (s.setYm g).fields = s.fields := rfl
@[simp] theorem State.setYm_tmr (g : YmSt → YmSt) : (s.setYm g).tmr = s.tmr := rfl
@[simp] theorem State.setYm_inv (g : YmSt → YmSt) : (s.setYm g).inv = s.inv := rfl
@[simp] theorem State.setYm_shadows (g : YmSt → YmSt) : (s.setYm g).shadows = s.shadows := rfl
@[simp] theorem State.setYm_clk (g : YmSt → YmSt) : (s.setYm g).clk = s.clk := rfl
@[simp] theorem State.setYm_frac (g : YmSt → YmSt) : (s.setYm g).frac = s.frac := rfl
@[simp] theorem State.setYm_dev (g : YmSt → YmSt) : (s.setYm g).dev = s.dev := rfl
@[simp] theorem State.setYm_free (g : YmSt → YmSt) : (s.setYm g).free = s.free := rfl
@[simp] theorem State.setYm_out (g : YmSt → YmSt) : (s.setYm g).out = s.out := rfl
@[simp] theorem State.setYm_evq (g : YmSt → YmSt) : (s.setYm g).evq = s.evq := rfl
@[simp] theorem State.setYm_rdata (g : YmSt → YmSt) : (s.setYm g).rdata = s.rdata := rfl
@[simp] theorem State.setYm_flash (g : YmSt → YmSt) : (s.setYm g).flash = s.flash := rfl
@[simp] theorem State.setYm_flashOk (g : YmSt → YmSt) : (s.setYm g).flashOk = s.flashOk := rfl
@[simp] theorem State.setYm_deviceId (g : YmSt → YmSt) : (s.setYm g).deviceId = s.deviceId := rfl
@[simp] theorem State.setYm_evt (g : YmSt → YmSt) : (s.setYm g).evt = s.evt := rfl
@[simp] theorem State.setYm_bt (g : YmSt → YmSt) : (s.setYm g).bt = s.bt := rfl
@[simp] theorem State.setYm_prt (g : YmSt → YmSt) : (s.setYm g).prt = s.prt := rfl
@[simp] theorem State.setYm_egress (g : YmSt → YmSt) : (s.setYm g).egress = s.egress := rfl
@[simp] theorem State.setYm_pwr (g : YmSt → YmSt) : (s.setYm g).pwr = s.pwr := rfl
@[simp] theorem State.setYm_host (g : YmSt → YmSt) : (s.setYm g).host = s.host := rfl
@[simp] theorem State.setYm_gate (g : YmSt → YmSt) : (s.setYm g).gate = s.gate := rfl
@[simp] theorem State.setYm_yard (g : YmSt → YmSt) : (s.setYm g).yard = s.yard := rfl
@[simp] theorem State.setYm_loft (g : YmSt → YmSt) : (s.setYm g).loft = s.loft := rfl
@[simp] theorem State.setYm_pool (g : YmSt → YmSt) : (s.setYm g).pool = s.pool := rfl
@[simp] theorem State.setYm_guard (g : YmSt → YmSt) : (s.setYm g).guard = s.guard := rfl
@[simp] theorem State.setYm_groom (g : YmSt → YmSt) : (s.setYm g).groom = s.groom := rfl
@[simp] theorem State.setYm_sealSt (g : YmSt → YmSt) : (s.setYm g).sealSt = s.sealSt := rfl
@[simp] theorem State.setYm_vault (g : YmSt → YmSt) : (s.setYm g).vault = s.vault := rfl
@[simp] theorem State.setYm_otp (g : YmSt → YmSt) : (s.setYm g).otp = s.otp := rfl
@[simp] theorem State.setYm_lifeSt (g : YmSt → YmSt) : (s.setYm g).lifeSt = s.lifeSt := rfl
@[simp] theorem State.setYm_boot (g : YmSt → YmSt) : (s.setYm g).boot = s.boot := rfl
@[simp] theorem State.setYm_tud (g : YmSt → YmSt) : (s.setYm g).tud = s.tud := rfl
@[simp] theorem State.setYm_mtest (g : YmSt → YmSt) : (s.setYm g).mtest = s.mtest := rfl
@[simp] theorem State.setYm_pair (g : YmSt → YmSt) : (s.setYm g).pair = s.pair := rfl
@[simp] theorem State.setYm_pairSeq (g : YmSt → YmSt) : (s.setYm g).pairSeq = s.pairSeq := rfl
@[simp] theorem State.setYm_pending (g : YmSt → YmSt) : (s.setYm g).pending = s.pending := rfl
@[simp] theorem State.setYm_ym (g : YmSt → YmSt) : (s.setYm g).ym = g s.ym := rfl
@[simp] theorem State.setYm_get (g : YmSt → YmSt) (f : Fld) : (s.setYm g).get f = s.get f := rfl

@[simp] theorem State.setPwr_fields (g : PwrSt → PwrSt) : (s.setPwr g).fields = s.fields := rfl
@[simp] theorem State.setPwr_tmr (g : PwrSt → PwrSt) : (s.setPwr g).tmr = s.tmr := rfl
@[simp] theorem State.setPwr_inv (g : PwrSt → PwrSt) : (s.setPwr g).inv = s.inv := rfl
@[simp] theorem State.setPwr_shadows (g : PwrSt → PwrSt) : (s.setPwr g).shadows = s.shadows := rfl
@[simp] theorem State.setPwr_clk (g : PwrSt → PwrSt) : (s.setPwr g).clk = s.clk := rfl
@[simp] theorem State.setPwr_frac (g : PwrSt → PwrSt) : (s.setPwr g).frac = s.frac := rfl
@[simp] theorem State.setPwr_dev (g : PwrSt → PwrSt) : (s.setPwr g).dev = s.dev := rfl
@[simp] theorem State.setPwr_free (g : PwrSt → PwrSt) : (s.setPwr g).free = s.free := rfl
@[simp] theorem State.setPwr_out (g : PwrSt → PwrSt) : (s.setPwr g).out = s.out := rfl
@[simp] theorem State.setPwr_evq (g : PwrSt → PwrSt) : (s.setPwr g).evq = s.evq := rfl
@[simp] theorem State.setPwr_rdata (g : PwrSt → PwrSt) : (s.setPwr g).rdata = s.rdata := rfl
@[simp] theorem State.setPwr_flash (g : PwrSt → PwrSt) : (s.setPwr g).flash = s.flash := rfl
@[simp] theorem State.setPwr_flashOk (g : PwrSt → PwrSt) : (s.setPwr g).flashOk = s.flashOk := rfl
@[simp] theorem State.setPwr_deviceId (g : PwrSt → PwrSt) : (s.setPwr g).deviceId = s.deviceId := rfl
@[simp] theorem State.setPwr_evt (g : PwrSt → PwrSt) : (s.setPwr g).evt = s.evt := rfl
@[simp] theorem State.setPwr_ym (g : PwrSt → PwrSt) : (s.setPwr g).ym = s.ym := rfl
@[simp] theorem State.setPwr_bt (g : PwrSt → PwrSt) : (s.setPwr g).bt = s.bt := rfl
@[simp] theorem State.setPwr_prt (g : PwrSt → PwrSt) : (s.setPwr g).prt = s.prt := rfl
@[simp] theorem State.setPwr_egress (g : PwrSt → PwrSt) : (s.setPwr g).egress = s.egress := rfl
@[simp] theorem State.setPwr_host (g : PwrSt → PwrSt) : (s.setPwr g).host = s.host := rfl
@[simp] theorem State.setPwr_gate (g : PwrSt → PwrSt) : (s.setPwr g).gate = s.gate := rfl
@[simp] theorem State.setPwr_yard (g : PwrSt → PwrSt) : (s.setPwr g).yard = s.yard := rfl
@[simp] theorem State.setPwr_loft (g : PwrSt → PwrSt) : (s.setPwr g).loft = s.loft := rfl
@[simp] theorem State.setPwr_pool (g : PwrSt → PwrSt) : (s.setPwr g).pool = s.pool := rfl
@[simp] theorem State.setPwr_guard (g : PwrSt → PwrSt) : (s.setPwr g).guard = s.guard := rfl
@[simp] theorem State.setPwr_groom (g : PwrSt → PwrSt) : (s.setPwr g).groom = s.groom := rfl
@[simp] theorem State.setPwr_sealSt (g : PwrSt → PwrSt) : (s.setPwr g).sealSt = s.sealSt := rfl
@[simp] theorem State.setPwr_vault (g : PwrSt → PwrSt) : (s.setPwr g).vault = s.vault := rfl
@[simp] theorem State.setPwr_otp (g : PwrSt → PwrSt) : (s.setPwr g).otp = s.otp := rfl
@[simp] theorem State.setPwr_lifeSt (g : PwrSt → PwrSt) : (s.setPwr g).lifeSt = s.lifeSt := rfl
@[simp] theorem State.setPwr_boot (g : PwrSt → PwrSt) : (s.setPwr g).boot = s.boot := rfl
@[simp] theorem State.setPwr_tud (g : PwrSt → PwrSt) : (s.setPwr g).tud = s.tud := rfl
@[simp] theorem State.setPwr_mtest (g : PwrSt → PwrSt) : (s.setPwr g).mtest = s.mtest := rfl
@[simp] theorem State.setPwr_pair (g : PwrSt → PwrSt) : (s.setPwr g).pair = s.pair := rfl
@[simp] theorem State.setPwr_pairSeq (g : PwrSt → PwrSt) : (s.setPwr g).pairSeq = s.pairSeq := rfl
@[simp] theorem State.setPwr_pending (g : PwrSt → PwrSt) : (s.setPwr g).pending = s.pending := rfl
@[simp] theorem State.setPwr_pwr (g : PwrSt → PwrSt) : (s.setPwr g).pwr = g s.pwr := rfl
@[simp] theorem State.setPwr_get (g : PwrSt → PwrSt) (f : Fld) : (s.setPwr g).get f = s.get f := rfl

@[simp] theorem State.setPrt_fields (g : PortsSt → PortsSt) : (s.setPrt g).fields = s.fields := rfl
@[simp] theorem State.setPrt_tmr (g : PortsSt → PortsSt) : (s.setPrt g).tmr = s.tmr := rfl
@[simp] theorem State.setPrt_inv (g : PortsSt → PortsSt) : (s.setPrt g).inv = s.inv := rfl
@[simp] theorem State.setPrt_shadows (g : PortsSt → PortsSt) : (s.setPrt g).shadows = s.shadows := rfl
@[simp] theorem State.setPrt_clk (g : PortsSt → PortsSt) : (s.setPrt g).clk = s.clk := rfl
@[simp] theorem State.setPrt_frac (g : PortsSt → PortsSt) : (s.setPrt g).frac = s.frac := rfl
@[simp] theorem State.setPrt_dev (g : PortsSt → PortsSt) : (s.setPrt g).dev = s.dev := rfl
@[simp] theorem State.setPrt_free (g : PortsSt → PortsSt) : (s.setPrt g).free = s.free := rfl
@[simp] theorem State.setPrt_out (g : PortsSt → PortsSt) : (s.setPrt g).out = s.out := rfl
@[simp] theorem State.setPrt_evq (g : PortsSt → PortsSt) : (s.setPrt g).evq = s.evq := rfl
@[simp] theorem State.setPrt_rdata (g : PortsSt → PortsSt) : (s.setPrt g).rdata = s.rdata := rfl
@[simp] theorem State.setPrt_flash (g : PortsSt → PortsSt) : (s.setPrt g).flash = s.flash := rfl
@[simp] theorem State.setPrt_flashOk (g : PortsSt → PortsSt) : (s.setPrt g).flashOk = s.flashOk := rfl
@[simp] theorem State.setPrt_deviceId (g : PortsSt → PortsSt) : (s.setPrt g).deviceId = s.deviceId := rfl
@[simp] theorem State.setPrt_evt (g : PortsSt → PortsSt) : (s.setPrt g).evt = s.evt := rfl
@[simp] theorem State.setPrt_ym (g : PortsSt → PortsSt) : (s.setPrt g).ym = s.ym := rfl
@[simp] theorem State.setPrt_bt (g : PortsSt → PortsSt) : (s.setPrt g).bt = s.bt := rfl
@[simp] theorem State.setPrt_egress (g : PortsSt → PortsSt) : (s.setPrt g).egress = s.egress := rfl
@[simp] theorem State.setPrt_pwr (g : PortsSt → PortsSt) : (s.setPrt g).pwr = s.pwr := rfl
@[simp] theorem State.setPrt_host (g : PortsSt → PortsSt) : (s.setPrt g).host = s.host := rfl
@[simp] theorem State.setPrt_gate (g : PortsSt → PortsSt) : (s.setPrt g).gate = s.gate := rfl
@[simp] theorem State.setPrt_yard (g : PortsSt → PortsSt) : (s.setPrt g).yard = s.yard := rfl
@[simp] theorem State.setPrt_loft (g : PortsSt → PortsSt) : (s.setPrt g).loft = s.loft := rfl
@[simp] theorem State.setPrt_pool (g : PortsSt → PortsSt) : (s.setPrt g).pool = s.pool := rfl
@[simp] theorem State.setPrt_guard (g : PortsSt → PortsSt) : (s.setPrt g).guard = s.guard := rfl
@[simp] theorem State.setPrt_groom (g : PortsSt → PortsSt) : (s.setPrt g).groom = s.groom := rfl
@[simp] theorem State.setPrt_sealSt (g : PortsSt → PortsSt) : (s.setPrt g).sealSt = s.sealSt := rfl
@[simp] theorem State.setPrt_vault (g : PortsSt → PortsSt) : (s.setPrt g).vault = s.vault := rfl
@[simp] theorem State.setPrt_otp (g : PortsSt → PortsSt) : (s.setPrt g).otp = s.otp := rfl
@[simp] theorem State.setPrt_lifeSt (g : PortsSt → PortsSt) : (s.setPrt g).lifeSt = s.lifeSt := rfl
@[simp] theorem State.setPrt_boot (g : PortsSt → PortsSt) : (s.setPrt g).boot = s.boot := rfl
@[simp] theorem State.setPrt_tud (g : PortsSt → PortsSt) : (s.setPrt g).tud = s.tud := rfl
@[simp] theorem State.setPrt_mtest (g : PortsSt → PortsSt) : (s.setPrt g).mtest = s.mtest := rfl
@[simp] theorem State.setPrt_pair (g : PortsSt → PortsSt) : (s.setPrt g).pair = s.pair := rfl
@[simp] theorem State.setPrt_pairSeq (g : PortsSt → PortsSt) : (s.setPrt g).pairSeq = s.pairSeq := rfl
@[simp] theorem State.setPrt_pending (g : PortsSt → PortsSt) : (s.setPrt g).pending = s.pending := rfl
@[simp] theorem State.setPrt_prt (g : PortsSt → PortsSt) : (s.setPrt g).prt = g s.prt := rfl
@[simp] theorem State.setPrt_get (g : PortsSt → PortsSt) (f : Fld) : (s.setPrt g).get f = s.get f := rfl

@[simp] theorem State.setTud_fields (g : TudelSt → TudelSt) : (s.setTud g).fields = s.fields := rfl
@[simp] theorem State.setTud_tmr (g : TudelSt → TudelSt) : (s.setTud g).tmr = s.tmr := rfl
@[simp] theorem State.setTud_inv (g : TudelSt → TudelSt) : (s.setTud g).inv = s.inv := rfl
@[simp] theorem State.setTud_shadows (g : TudelSt → TudelSt) : (s.setTud g).shadows = s.shadows := rfl
@[simp] theorem State.setTud_clk (g : TudelSt → TudelSt) : (s.setTud g).clk = s.clk := rfl
@[simp] theorem State.setTud_frac (g : TudelSt → TudelSt) : (s.setTud g).frac = s.frac := rfl
@[simp] theorem State.setTud_dev (g : TudelSt → TudelSt) : (s.setTud g).dev = s.dev := rfl
@[simp] theorem State.setTud_free (g : TudelSt → TudelSt) : (s.setTud g).free = s.free := rfl
@[simp] theorem State.setTud_out (g : TudelSt → TudelSt) : (s.setTud g).out = s.out := rfl
@[simp] theorem State.setTud_evq (g : TudelSt → TudelSt) : (s.setTud g).evq = s.evq := rfl
@[simp] theorem State.setTud_rdata (g : TudelSt → TudelSt) : (s.setTud g).rdata = s.rdata := rfl
@[simp] theorem State.setTud_flash (g : TudelSt → TudelSt) : (s.setTud g).flash = s.flash := rfl
@[simp] theorem State.setTud_flashOk (g : TudelSt → TudelSt) : (s.setTud g).flashOk = s.flashOk := rfl
@[simp] theorem State.setTud_deviceId (g : TudelSt → TudelSt) : (s.setTud g).deviceId = s.deviceId := rfl
@[simp] theorem State.setTud_evt (g : TudelSt → TudelSt) : (s.setTud g).evt = s.evt := rfl
@[simp] theorem State.setTud_ym (g : TudelSt → TudelSt) : (s.setTud g).ym = s.ym := rfl
@[simp] theorem State.setTud_bt (g : TudelSt → TudelSt) : (s.setTud g).bt = s.bt := rfl
@[simp] theorem State.setTud_prt (g : TudelSt → TudelSt) : (s.setTud g).prt = s.prt := rfl
@[simp] theorem State.setTud_egress (g : TudelSt → TudelSt) : (s.setTud g).egress = s.egress := rfl
@[simp] theorem State.setTud_pwr (g : TudelSt → TudelSt) : (s.setTud g).pwr = s.pwr := rfl
@[simp] theorem State.setTud_host (g : TudelSt → TudelSt) : (s.setTud g).host = s.host := rfl
@[simp] theorem State.setTud_gate (g : TudelSt → TudelSt) : (s.setTud g).gate = s.gate := rfl
@[simp] theorem State.setTud_yard (g : TudelSt → TudelSt) : (s.setTud g).yard = s.yard := rfl
@[simp] theorem State.setTud_loft (g : TudelSt → TudelSt) : (s.setTud g).loft = s.loft := rfl
@[simp] theorem State.setTud_pool (g : TudelSt → TudelSt) : (s.setTud g).pool = s.pool := rfl
@[simp] theorem State.setTud_guard (g : TudelSt → TudelSt) : (s.setTud g).guard = s.guard := rfl
@[simp] theorem State.setTud_groom (g : TudelSt → TudelSt) : (s.setTud g).groom = s.groom := rfl
@[simp] theorem State.setTud_sealSt (g : TudelSt → TudelSt) : (s.setTud g).sealSt = s.sealSt := rfl
@[simp] theorem State.setTud_vault (g : TudelSt → TudelSt) : (s.setTud g).vault = s.vault := rfl
@[simp] theorem State.setTud_otp (g : TudelSt → TudelSt) : (s.setTud g).otp = s.otp := rfl
@[simp] theorem State.setTud_lifeSt (g : TudelSt → TudelSt) : (s.setTud g).lifeSt = s.lifeSt := rfl
@[simp] theorem State.setTud_boot (g : TudelSt → TudelSt) : (s.setTud g).boot = s.boot := rfl
@[simp] theorem State.setTud_mtest (g : TudelSt → TudelSt) : (s.setTud g).mtest = s.mtest := rfl
@[simp] theorem State.setTud_pair (g : TudelSt → TudelSt) : (s.setTud g).pair = s.pair := rfl
@[simp] theorem State.setTud_pairSeq (g : TudelSt → TudelSt) : (s.setTud g).pairSeq = s.pairSeq := rfl
@[simp] theorem State.setTud_pending (g : TudelSt → TudelSt) : (s.setTud g).pending = s.pending := rfl
@[simp] theorem State.setTud_tud (g : TudelSt → TudelSt) : (s.setTud g).tud = g s.tud := rfl
@[simp] theorem State.setTud_get (g : TudelSt → TudelSt) (f : Fld) : (s.setTud g).get f = s.get f := rfl

@[simp] theorem State.setFlash_fields (m : Memory) : (s.setFlash m).fields = s.fields := rfl
@[simp] theorem State.setFlash_tmr (m : Memory) : (s.setFlash m).tmr = s.tmr := rfl
@[simp] theorem State.setFlash_inv (m : Memory) : (s.setFlash m).inv = s.inv := rfl
@[simp] theorem State.setFlash_shadows (m : Memory) : (s.setFlash m).shadows = s.shadows := rfl
@[simp] theorem State.setFlash_clk (m : Memory) : (s.setFlash m).clk = s.clk := rfl
@[simp] theorem State.setFlash_frac (m : Memory) : (s.setFlash m).frac = s.frac := rfl
@[simp] theorem State.setFlash_dev (m : Memory) : (s.setFlash m).dev = s.dev := rfl
@[simp] theorem State.setFlash_free (m : Memory) : (s.setFlash m).free = s.free := rfl
@[simp] theorem State.setFlash_out (m : Memory) : (s.setFlash m).out = s.out := rfl
@[simp] theorem State.setFlash_evq (m : Memory) : (s.setFlash m).evq = s.evq := rfl
@[simp] theorem State.setFlash_rdata (m : Memory) : (s.setFlash m).rdata = s.rdata := rfl
@[simp] theorem State.setFlash_flashOk (m : Memory) : (s.setFlash m).flashOk = s.flashOk := rfl
@[simp] theorem State.setFlash_deviceId (m : Memory) : (s.setFlash m).deviceId = s.deviceId := rfl
@[simp] theorem State.setFlash_evt (m : Memory) : (s.setFlash m).evt = s.evt := rfl
@[simp] theorem State.setFlash_ym (m : Memory) : (s.setFlash m).ym = s.ym := rfl
@[simp] theorem State.setFlash_bt (m : Memory) : (s.setFlash m).bt = s.bt := rfl
@[simp] theorem State.setFlash_prt (m : Memory) : (s.setFlash m).prt = s.prt := rfl
@[simp] theorem State.setFlash_egress (m : Memory) : (s.setFlash m).egress = s.egress := rfl
@[simp] theorem State.setFlash_pwr (m : Memory) : (s.setFlash m).pwr = s.pwr := rfl
@[simp] theorem State.setFlash_host (m : Memory) : (s.setFlash m).host = s.host := rfl
@[simp] theorem State.setFlash_gate (m : Memory) : (s.setFlash m).gate = s.gate := rfl
@[simp] theorem State.setFlash_yard (m : Memory) : (s.setFlash m).yard = s.yard := rfl
@[simp] theorem State.setFlash_loft (m : Memory) : (s.setFlash m).loft = s.loft := rfl
@[simp] theorem State.setFlash_pool (m : Memory) : (s.setFlash m).pool = s.pool := rfl
@[simp] theorem State.setFlash_guard (m : Memory) : (s.setFlash m).guard = s.guard := rfl
@[simp] theorem State.setFlash_groom (m : Memory) : (s.setFlash m).groom = s.groom := rfl
@[simp] theorem State.setFlash_sealSt (m : Memory) : (s.setFlash m).sealSt = s.sealSt := rfl
@[simp] theorem State.setFlash_vault (m : Memory) : (s.setFlash m).vault = s.vault := rfl
@[simp] theorem State.setFlash_otp (m : Memory) : (s.setFlash m).otp = s.otp := rfl
@[simp] theorem State.setFlash_lifeSt (m : Memory) : (s.setFlash m).lifeSt = s.lifeSt := rfl
@[simp] theorem State.setFlash_boot (m : Memory) : (s.setFlash m).boot = s.boot := rfl
@[simp] theorem State.setFlash_tud (m : Memory) : (s.setFlash m).tud = s.tud := rfl
@[simp] theorem State.setFlash_mtest (m : Memory) : (s.setFlash m).mtest = s.mtest := rfl
@[simp] theorem State.setFlash_pair (m : Memory) : (s.setFlash m).pair = s.pair := rfl
@[simp] theorem State.setFlash_pairSeq (m : Memory) : (s.setFlash m).pairSeq = s.pairSeq := rfl
@[simp] theorem State.setFlash_pending (m : Memory) : (s.setFlash m).pending = s.pending := rfl
@[simp] theorem State.setFlash_get (m : Memory) (f : Fld) : (s.setFlash m).get f = s.get f := rfl

@[simp] theorem State.ret_fields (v : Nat) : (s.ret v).fields = s.fields := rfl
@[simp] theorem State.ret_tmr (v : Nat) : (s.ret v).tmr = s.tmr := rfl
@[simp] theorem State.ret_inv (v : Nat) : (s.ret v).inv = s.inv := rfl
@[simp] theorem State.ret_shadows (v : Nat) : (s.ret v).shadows = s.shadows := rfl
@[simp] theorem State.ret_clk (v : Nat) : (s.ret v).clk = s.clk := rfl
@[simp] theorem State.ret_frac (v : Nat) : (s.ret v).frac = s.frac := rfl
@[simp] theorem State.ret_dev (v : Nat) : (s.ret v).dev = s.dev := rfl
@[simp] theorem State.ret_free (v : Nat) : (s.ret v).free = s.free := rfl
@[simp] theorem State.ret_out (v : Nat) : (s.ret v).out = s.out := rfl
@[simp] theorem State.ret_evq (v : Nat) : (s.ret v).evq = s.evq := rfl
@[simp] theorem State.ret_flash (v : Nat) : (s.ret v).flash = s.flash := rfl
@[simp] theorem State.ret_flashOk (v : Nat) : (s.ret v).flashOk = s.flashOk := rfl
@[simp] theorem State.ret_deviceId (v : Nat) : (s.ret v).deviceId = s.deviceId := rfl
@[simp] theorem State.ret_evt (v : Nat) : (s.ret v).evt = s.evt := rfl
@[simp] theorem State.ret_ym (v : Nat) : (s.ret v).ym = s.ym := rfl
@[simp] theorem State.ret_bt (v : Nat) : (s.ret v).bt = s.bt := rfl
@[simp] theorem State.ret_prt (v : Nat) : (s.ret v).prt = s.prt := rfl
@[simp] theorem State.ret_egress (v : Nat) : (s.ret v).egress = s.egress := rfl
@[simp] theorem State.ret_pwr (v : Nat) : (s.ret v).pwr = s.pwr := rfl
@[simp] theorem State.ret_host (v : Nat) : (s.ret v).host = s.host := rfl
@[simp] theorem State.ret_gate (v : Nat) : (s.ret v).gate = s.gate := rfl
@[simp] theorem State.ret_yard (v : Nat) : (s.ret v).yard = s.yard := rfl
@[simp] theorem State.ret_loft (v : Nat) : (s.ret v).loft = s.loft := rfl
@[simp] theorem State.ret_pool (v : Nat) : (s.ret v).pool = s.pool := rfl
@[simp] theorem State.ret_guard (v : Nat) : (s.ret v).guard = s.guard := rfl
@[simp] theorem State.ret_groom (v : Nat) : (s.ret v).groom = s.groom := rfl
@[simp] theorem State.ret_sealSt (v : Nat) : (s.ret v).sealSt = s.sealSt := rfl
@[simp] theorem State.ret_vault (v : Nat) : (s.ret v).vault = s.vault := rfl
@[simp] theorem State.ret_otp (v : Nat) : (s.ret v).otp = s.otp := rfl
@[simp] theorem State.ret_lifeSt (v : Nat) : (s.ret v).lifeSt = s.lifeSt := rfl
@[simp] theorem State.ret_boot (v : Nat) : (s.ret v).boot = s.boot := rfl
@[simp] theorem State.ret_tud (v : Nat) : (s.ret v).tud = s.tud := rfl
@[simp] theorem State.ret_mtest (v : Nat) : (s.ret v).mtest = s.mtest := rfl
@[simp] theorem State.ret_pair (v : Nat) : (s.ret v).pair = s.pair := rfl
@[simp] theorem State.ret_pairSeq (v : Nat) : (s.ret v).pairSeq = s.pairSeq := rfl
@[simp] theorem State.ret_pending (v : Nat) : (s.ret v).pending = s.pending := rfl
@[simp] theorem State.ret_get (v : Nat) (f : Fld) : (s.ret v).get f = s.get f := rfl

@[simp] theorem State.setSlice_fields (n : Nat) (g : SliceSt → SliceSt) : (s.setSlice n g).fields = s.fields := rfl
@[simp] theorem State.setSlice_tmr (n : Nat) (g : SliceSt → SliceSt) : (s.setSlice n g).tmr = s.tmr := rfl
@[simp] theorem State.setSlice_inv (n : Nat) (g : SliceSt → SliceSt) : (s.setSlice n g).inv = s.inv := rfl
@[simp] theorem State.setSlice_shadows (n : Nat) (g : SliceSt → SliceSt) : (s.setSlice n g).shadows = s.shadows := rfl
@[simp] theorem State.setSlice_clk (n : Nat) (g : SliceSt → SliceSt) : (s.setSlice n g).clk = s.clk := rfl
@[simp] theorem State.setSlice_frac (n : Nat) (g : SliceSt → SliceSt) : (s.setSlice n g).frac = s.frac := rfl
@[simp] theorem State.setSlice_dev (n : Nat) (g : SliceSt → SliceSt) : (s.setSlice n g).dev = s.dev := rfl
@[simp] theorem State.setSlice_free (n : Nat) (g : SliceSt → SliceSt) : (s.setSlice n g).free = s.free := rfl
@[simp] theorem State.setSlice_out (n : Nat) (g : SliceSt → SliceSt) : (s.setSlice n g).out = s.out := rfl
@[simp] theorem State.setSlice_evq (n : Nat) (g : SliceSt → SliceSt) : (s.setSlice n g).evq = s.evq := rfl
@[simp] theorem State.setSlice_rdata (n : Nat) (g : SliceSt → SliceSt) : (s.setSlice n g).rdata = s.rdata := rfl
@[simp] theorem State.setSlice_flash (n : Nat) (g : SliceSt → SliceSt) : (s.setSlice n g).flash = s.flash := rfl
@[simp] theorem State.setSlice_flashOk (n : Nat) (g : SliceSt → SliceSt) : (s.setSlice n g).flashOk = s.flashOk := rfl
@[simp] theorem State.setSlice_deviceId (n : Nat) (g : SliceSt → SliceSt) : (s.setSlice n g).deviceId = s.deviceId := rfl
@[simp] theorem State.setSlice_evt (n : Nat) (g : SliceSt → SliceSt) : (s.setSlice n g).evt = s.evt := rfl
@[simp] theorem State.setSlice_ym (n : Nat) (g : SliceSt → SliceSt) : (s.setSlice n g).ym = s.ym := rfl
@[simp] theorem State.setSlice_bt (n : Nat) (g : SliceSt → SliceSt) : (s.setSlice n g).bt = s.bt := rfl
@[simp] theorem State.setSlice_prt (n : Nat) (g : SliceSt → SliceSt) : (s.setSlice n g).prt = s.prt := rfl
@[simp] theorem State.setSlice_egress (n : Nat) (g : SliceSt → SliceSt) : (s.setSlice n g).egress = s.egress := rfl
@[simp] theorem State.setSlice_pwr (n : Nat) (g : SliceSt → SliceSt) : (s.setSlice n g).pwr = s.pwr := rfl
@[simp] theorem State.setSlice_gate (n : Nat) (g : SliceSt → SliceSt) : (s.setSlice n g).gate = s.gate := rfl
@[simp] theorem State.setSlice_yard (n : Nat) (g : SliceSt → SliceSt) : (s.setSlice n g).yard = s.yard := rfl
@[simp] theorem State.setSlice_loft (n : Nat) (g : SliceSt → SliceSt) : (s.setSlice n g).loft = s.loft := rfl
@[simp] theorem State.setSlice_pool (n : Nat) (g : SliceSt → SliceSt) : (s.setSlice n g).pool = s.pool := rfl
@[simp] theorem State.setSlice_guard (n : Nat) (g : SliceSt → SliceSt) : (s.setSlice n g).guard = s.guard := rfl
@[simp] theorem State.setSlice_groom (n : Nat) (g : SliceSt → SliceSt) : (s.setSlice n g).groom = s.groom := rfl
@[simp] theorem State.setSlice_sealSt (n : Nat) (g : SliceSt → SliceSt) : (s.setSlice n g).sealSt = s.sealSt := rfl
@[simp] theorem State.setSlice_vault (n : Nat) (g : SliceSt → SliceSt) : (s.setSlice n g).vault = s.vault := rfl
@[simp] theorem State.setSlice_otp (n : Nat) (g : SliceSt → SliceSt) : (s.setSlice n g).otp = s.otp := rfl
@[simp] theorem State.setSlice_lifeSt (n : Nat) (g : SliceSt → SliceSt) : (s.setSlice n g).lifeSt = s.lifeSt := rfl
@[simp] theorem State.setSlice_boot (n : Nat) (g : SliceSt → SliceSt) : (s.setSlice n g).boot = s.boot := rfl
@[simp] theorem State.setSlice_tud (n : Nat) (g : SliceSt → SliceSt) : (s.setSlice n g).tud = s.tud := rfl
@[simp] theorem State.setSlice_mtest (n : Nat) (g : SliceSt → SliceSt) : (s.setSlice n g).mtest = s.mtest := rfl
@[simp] theorem State.setSlice_pair (n : Nat) (g : SliceSt → SliceSt) : (s.setSlice n g).pair = s.pair := rfl
@[simp] theorem State.setSlice_pairSeq (n : Nat) (g : SliceSt → SliceSt) : (s.setSlice n g).pairSeq = s.pairSeq := rfl
@[simp] theorem State.setSlice_pending (n : Nat) (g : SliceSt → SliceSt) : (s.setSlice n g).pending = s.pending := rfl
@[simp] theorem State.setSlice_get (n : Nat) (g : SliceSt → SliceSt) (f : Fld) : (s.setSlice n g).get f = s.get f := rfl

@[simp] theorem State.emit_fields (o : Output) : (s.emit o).fields = s.fields := rfl
@[simp] theorem State.emit_tmr (o : Output) : (s.emit o).tmr = s.tmr := rfl
@[simp] theorem State.emit_inv (o : Output) : (s.emit o).inv = s.inv := rfl
@[simp] theorem State.emit_shadows (o : Output) : (s.emit o).shadows = s.shadows := rfl
@[simp] theorem State.emit_clk (o : Output) : (s.emit o).clk = s.clk := rfl
@[simp] theorem State.emit_frac (o : Output) : (s.emit o).frac = s.frac := rfl
@[simp] theorem State.emit_dev (o : Output) : (s.emit o).dev = s.dev := rfl
@[simp] theorem State.emit_free (o : Output) : (s.emit o).free = s.free := rfl
@[simp] theorem State.emit_evq (o : Output) : (s.emit o).evq = s.evq := rfl
@[simp] theorem State.emit_rdata (o : Output) : (s.emit o).rdata = s.rdata := rfl
@[simp] theorem State.emit_flash (o : Output) : (s.emit o).flash = s.flash := rfl
@[simp] theorem State.emit_flashOk (o : Output) : (s.emit o).flashOk = s.flashOk := rfl
@[simp] theorem State.emit_deviceId (o : Output) : (s.emit o).deviceId = s.deviceId := rfl
@[simp] theorem State.emit_evt (o : Output) : (s.emit o).evt = s.evt := rfl
@[simp] theorem State.emit_ym (o : Output) : (s.emit o).ym = s.ym := rfl
@[simp] theorem State.emit_bt (o : Output) : (s.emit o).bt = s.bt := rfl
@[simp] theorem State.emit_prt (o : Output) : (s.emit o).prt = s.prt := rfl
@[simp] theorem State.emit_egress (o : Output) : (s.emit o).egress = s.egress := rfl
@[simp] theorem State.emit_pwr (o : Output) : (s.emit o).pwr = s.pwr := rfl
@[simp] theorem State.emit_host (o : Output) : (s.emit o).host = s.host := rfl
@[simp] theorem State.emit_gate (o : Output) : (s.emit o).gate = s.gate := rfl
@[simp] theorem State.emit_yard (o : Output) : (s.emit o).yard = s.yard := rfl
@[simp] theorem State.emit_loft (o : Output) : (s.emit o).loft = s.loft := rfl
@[simp] theorem State.emit_pool (o : Output) : (s.emit o).pool = s.pool := rfl
@[simp] theorem State.emit_guard (o : Output) : (s.emit o).guard = s.guard := rfl
@[simp] theorem State.emit_groom (o : Output) : (s.emit o).groom = s.groom := rfl
@[simp] theorem State.emit_sealSt (o : Output) : (s.emit o).sealSt = s.sealSt := rfl
@[simp] theorem State.emit_vault (o : Output) : (s.emit o).vault = s.vault := rfl
@[simp] theorem State.emit_otp (o : Output) : (s.emit o).otp = s.otp := rfl
@[simp] theorem State.emit_lifeSt (o : Output) : (s.emit o).lifeSt = s.lifeSt := rfl
@[simp] theorem State.emit_boot (o : Output) : (s.emit o).boot = s.boot := rfl
@[simp] theorem State.emit_tud (o : Output) : (s.emit o).tud = s.tud := rfl
@[simp] theorem State.emit_mtest (o : Output) : (s.emit o).mtest = s.mtest := rfl
@[simp] theorem State.emit_pair (o : Output) : (s.emit o).pair = s.pair := rfl
@[simp] theorem State.emit_pairSeq (o : Output) : (s.emit o).pairSeq = s.pairSeq := rfl
@[simp] theorem State.emit_pending (o : Output) : (s.emit o).pending = s.pending := rfl
@[simp] theorem State.emit_get (o : Output) (f : Fld) : (s.emit o).get f = s.get f := rfl

@[simp] theorem State.useFree_fields : (s.useFree).fields = s.fields := rfl
@[simp] theorem State.useFree_tmr : (s.useFree).tmr = s.tmr := rfl
@[simp] theorem State.useFree_inv : (s.useFree).inv = s.inv := rfl
@[simp] theorem State.useFree_shadows : (s.useFree).shadows = s.shadows := rfl
@[simp] theorem State.useFree_clk : (s.useFree).clk = s.clk := rfl
@[simp] theorem State.useFree_frac : (s.useFree).frac = s.frac := rfl
@[simp] theorem State.useFree_dev : (s.useFree).dev = s.dev := rfl
@[simp] theorem State.useFree_out : (s.useFree).out = s.out := rfl
@[simp] theorem State.useFree_evq : (s.useFree).evq = s.evq := rfl
@[simp] theorem State.useFree_rdata : (s.useFree).rdata = s.rdata := rfl
@[simp] theorem State.useFree_flash : (s.useFree).flash = s.flash := rfl
@[simp] theorem State.useFree_flashOk : (s.useFree).flashOk = s.flashOk := rfl
@[simp] theorem State.useFree_deviceId : (s.useFree).deviceId = s.deviceId := rfl
@[simp] theorem State.useFree_evt : (s.useFree).evt = s.evt := rfl
@[simp] theorem State.useFree_ym : (s.useFree).ym = s.ym := rfl
@[simp] theorem State.useFree_bt : (s.useFree).bt = s.bt := rfl
@[simp] theorem State.useFree_prt : (s.useFree).prt = s.prt := rfl
@[simp] theorem State.useFree_egress : (s.useFree).egress = s.egress := rfl
@[simp] theorem State.useFree_pwr : (s.useFree).pwr = s.pwr := rfl
@[simp] theorem State.useFree_host : (s.useFree).host = s.host := rfl
@[simp] theorem State.useFree_gate : (s.useFree).gate = s.gate := rfl
@[simp] theorem State.useFree_yard : (s.useFree).yard = s.yard := rfl
@[simp] theorem State.useFree_loft : (s.useFree).loft = s.loft := rfl
@[simp] theorem State.useFree_pool : (s.useFree).pool = s.pool := rfl
@[simp] theorem State.useFree_guard : (s.useFree).guard = s.guard := rfl
@[simp] theorem State.useFree_groom : (s.useFree).groom = s.groom := rfl
@[simp] theorem State.useFree_sealSt : (s.useFree).sealSt = s.sealSt := rfl
@[simp] theorem State.useFree_vault : (s.useFree).vault = s.vault := rfl
@[simp] theorem State.useFree_otp : (s.useFree).otp = s.otp := rfl
@[simp] theorem State.useFree_lifeSt : (s.useFree).lifeSt = s.lifeSt := rfl
@[simp] theorem State.useFree_boot : (s.useFree).boot = s.boot := rfl
@[simp] theorem State.useFree_tud : (s.useFree).tud = s.tud := rfl
@[simp] theorem State.useFree_mtest : (s.useFree).mtest = s.mtest := rfl
@[simp] theorem State.useFree_pair : (s.useFree).pair = s.pair := rfl
@[simp] theorem State.useFree_pairSeq : (s.useFree).pairSeq = s.pairSeq := rfl
@[simp] theorem State.useFree_pending : (s.useFree).pending = s.pending := rfl
@[simp] theorem State.useFree_get (f : Fld) : (s.useFree).get f = s.get f := rfl

@[simp] theorem State.elapse_fields (dt : Nat) : (s.elapse dt).fields = s.fields := rfl
@[simp] theorem State.elapse_tmr (dt : Nat) : (s.elapse dt).tmr = s.tmr := rfl
@[simp] theorem State.elapse_inv (dt : Nat) : (s.elapse dt).inv = s.inv := rfl
@[simp] theorem State.elapse_shadows (dt : Nat) : (s.elapse dt).shadows = s.shadows := rfl
@[simp] theorem State.elapse_frac (dt : Nat) : (s.elapse dt).frac = s.frac := rfl
@[simp] theorem State.elapse_free (dt : Nat) : (s.elapse dt).free = s.free := rfl
@[simp] theorem State.elapse_out (dt : Nat) : (s.elapse dt).out = s.out := rfl
@[simp] theorem State.elapse_evq (dt : Nat) : (s.elapse dt).evq = s.evq := rfl
@[simp] theorem State.elapse_rdata (dt : Nat) : (s.elapse dt).rdata = s.rdata := rfl
@[simp] theorem State.elapse_flash (dt : Nat) : (s.elapse dt).flash = s.flash := rfl
@[simp] theorem State.elapse_flashOk (dt : Nat) : (s.elapse dt).flashOk = s.flashOk := rfl
@[simp] theorem State.elapse_deviceId (dt : Nat) : (s.elapse dt).deviceId = s.deviceId := rfl
@[simp] theorem State.elapse_evt (dt : Nat) : (s.elapse dt).evt = s.evt := rfl
@[simp] theorem State.elapse_ym (dt : Nat) : (s.elapse dt).ym = s.ym := rfl
@[simp] theorem State.elapse_bt (dt : Nat) : (s.elapse dt).bt = s.bt := rfl
@[simp] theorem State.elapse_prt (dt : Nat) : (s.elapse dt).prt = s.prt := rfl
@[simp] theorem State.elapse_egress (dt : Nat) : (s.elapse dt).egress = s.egress := rfl
@[simp] theorem State.elapse_pwr (dt : Nat) : (s.elapse dt).pwr = s.pwr := rfl
@[simp] theorem State.elapse_host (dt : Nat) : (s.elapse dt).host = s.host := rfl
@[simp] theorem State.elapse_gate (dt : Nat) : (s.elapse dt).gate = s.gate := rfl
@[simp] theorem State.elapse_yard (dt : Nat) : (s.elapse dt).yard = s.yard := rfl
@[simp] theorem State.elapse_loft (dt : Nat) : (s.elapse dt).loft = s.loft := rfl
@[simp] theorem State.elapse_pool (dt : Nat) : (s.elapse dt).pool = s.pool := rfl
@[simp] theorem State.elapse_guard (dt : Nat) : (s.elapse dt).guard = s.guard := rfl
@[simp] theorem State.elapse_groom (dt : Nat) : (s.elapse dt).groom = s.groom := rfl
@[simp] theorem State.elapse_sealSt (dt : Nat) : (s.elapse dt).sealSt = s.sealSt := rfl
@[simp] theorem State.elapse_vault (dt : Nat) : (s.elapse dt).vault = s.vault := rfl
@[simp] theorem State.elapse_otp (dt : Nat) : (s.elapse dt).otp = s.otp := rfl
@[simp] theorem State.elapse_lifeSt (dt : Nat) : (s.elapse dt).lifeSt = s.lifeSt := rfl
@[simp] theorem State.elapse_boot (dt : Nat) : (s.elapse dt).boot = s.boot := rfl
@[simp] theorem State.elapse_tud (dt : Nat) : (s.elapse dt).tud = s.tud := rfl
@[simp] theorem State.elapse_mtest (dt : Nat) : (s.elapse dt).mtest = s.mtest := rfl
@[simp] theorem State.elapse_pair (dt : Nat) : (s.elapse dt).pair = s.pair := rfl
@[simp] theorem State.elapse_pairSeq (dt : Nat) : (s.elapse dt).pairSeq = s.pairSeq := rfl
@[simp] theorem State.elapse_pending (dt : Nat) : (s.elapse dt).pending = s.pending := rfl
@[simp] theorem State.elapse_get (dt : Nat) (f : Fld) : (s.elapse dt).get f = s.get f := rfl

@[simp] theorem State.raiseEv_fields (e : Ev) : (s.raiseEv e).fields = s.fields := rfl
@[simp] theorem State.raiseEv_tmr (e : Ev) : (s.raiseEv e).tmr = s.tmr := rfl
@[simp] theorem State.raiseEv_inv (e : Ev) : (s.raiseEv e).inv = s.inv := rfl
@[simp] theorem State.raiseEv_shadows (e : Ev) : (s.raiseEv e).shadows = s.shadows := rfl
@[simp] theorem State.raiseEv_clk (e : Ev) : (s.raiseEv e).clk = s.clk := rfl
@[simp] theorem State.raiseEv_frac (e : Ev) : (s.raiseEv e).frac = s.frac := rfl
@[simp] theorem State.raiseEv_dev (e : Ev) : (s.raiseEv e).dev = s.dev := rfl
@[simp] theorem State.raiseEv_free (e : Ev) : (s.raiseEv e).free = s.free := rfl
@[simp] theorem State.raiseEv_out (e : Ev) : (s.raiseEv e).out = s.out := rfl
@[simp] theorem State.raiseEv_rdata (e : Ev) : (s.raiseEv e).rdata = s.rdata := rfl
@[simp] theorem State.raiseEv_flash (e : Ev) : (s.raiseEv e).flash = s.flash := rfl
@[simp] theorem State.raiseEv_flashOk (e : Ev) : (s.raiseEv e).flashOk = s.flashOk := rfl
@[simp] theorem State.raiseEv_deviceId (e : Ev) : (s.raiseEv e).deviceId = s.deviceId := rfl
@[simp] theorem State.raiseEv_evt (e : Ev) : (s.raiseEv e).evt = s.evt := rfl
@[simp] theorem State.raiseEv_ym (e : Ev) : (s.raiseEv e).ym = s.ym := rfl
@[simp] theorem State.raiseEv_bt (e : Ev) : (s.raiseEv e).bt = s.bt := rfl
@[simp] theorem State.raiseEv_prt (e : Ev) : (s.raiseEv e).prt = s.prt := rfl
@[simp] theorem State.raiseEv_egress (e : Ev) : (s.raiseEv e).egress = s.egress := rfl
@[simp] theorem State.raiseEv_pwr (e : Ev) : (s.raiseEv e).pwr = s.pwr := rfl
@[simp] theorem State.raiseEv_host (e : Ev) : (s.raiseEv e).host = s.host := rfl
@[simp] theorem State.raiseEv_gate (e : Ev) : (s.raiseEv e).gate = s.gate := rfl
@[simp] theorem State.raiseEv_yard (e : Ev) : (s.raiseEv e).yard = s.yard := rfl
@[simp] theorem State.raiseEv_loft (e : Ev) : (s.raiseEv e).loft = s.loft := rfl
@[simp] theorem State.raiseEv_pool (e : Ev) : (s.raiseEv e).pool = s.pool := rfl
@[simp] theorem State.raiseEv_guard (e : Ev) : (s.raiseEv e).guard = s.guard := rfl
@[simp] theorem State.raiseEv_groom (e : Ev) : (s.raiseEv e).groom = s.groom := rfl
@[simp] theorem State.raiseEv_sealSt (e : Ev) : (s.raiseEv e).sealSt = s.sealSt := rfl
@[simp] theorem State.raiseEv_vault (e : Ev) : (s.raiseEv e).vault = s.vault := rfl
@[simp] theorem State.raiseEv_otp (e : Ev) : (s.raiseEv e).otp = s.otp := rfl
@[simp] theorem State.raiseEv_lifeSt (e : Ev) : (s.raiseEv e).lifeSt = s.lifeSt := rfl
@[simp] theorem State.raiseEv_boot (e : Ev) : (s.raiseEv e).boot = s.boot := rfl
@[simp] theorem State.raiseEv_tud (e : Ev) : (s.raiseEv e).tud = s.tud := rfl
@[simp] theorem State.raiseEv_mtest (e : Ev) : (s.raiseEv e).mtest = s.mtest := rfl
@[simp] theorem State.raiseEv_pair (e : Ev) : (s.raiseEv e).pair = s.pair := rfl
@[simp] theorem State.raiseEv_pairSeq (e : Ev) : (s.raiseEv e).pairSeq = s.pairSeq := rfl
@[simp] theorem State.raiseEv_pending (e : Ev) : (s.raiseEv e).pending = s.pending := rfl
@[simp] theorem State.raiseEv_get (e : Ev) (f : Fld) : (s.raiseEv e).get f = s.get f := rfl

@[simp] theorem State.latch_fields (m : Master) (a v : Nat) : (s.latch m a v).fields = s.fields := rfl
@[simp] theorem State.latch_tmr (m : Master) (a v : Nat) : (s.latch m a v).tmr = s.tmr := rfl
@[simp] theorem State.latch_inv (m : Master) (a v : Nat) : (s.latch m a v).inv = s.inv := rfl
@[simp] theorem State.latch_clk (m : Master) (a v : Nat) : (s.latch m a v).clk = s.clk := rfl
@[simp] theorem State.latch_frac (m : Master) (a v : Nat) : (s.latch m a v).frac = s.frac := rfl
@[simp] theorem State.latch_dev (m : Master) (a v : Nat) : (s.latch m a v).dev = s.dev := rfl
@[simp] theorem State.latch_free (m : Master) (a v : Nat) : (s.latch m a v).free = s.free := rfl
@[simp] theorem State.latch_out (m : Master) (a v : Nat) : (s.latch m a v).out = s.out := rfl
@[simp] theorem State.latch_evq (m : Master) (a v : Nat) : (s.latch m a v).evq = s.evq := rfl
@[simp] theorem State.latch_rdata (m : Master) (a v : Nat) : (s.latch m a v).rdata = s.rdata := rfl
@[simp] theorem State.latch_flash (m : Master) (a v : Nat) : (s.latch m a v).flash = s.flash := rfl
@[simp] theorem State.latch_flashOk (m : Master) (a v : Nat) : (s.latch m a v).flashOk = s.flashOk := rfl
@[simp] theorem State.latch_deviceId (m : Master) (a v : Nat) : (s.latch m a v).deviceId = s.deviceId := rfl
@[simp] theorem State.latch_evt (m : Master) (a v : Nat) : (s.latch m a v).evt = s.evt := rfl
@[simp] theorem State.latch_ym (m : Master) (a v : Nat) : (s.latch m a v).ym = s.ym := rfl
@[simp] theorem State.latch_bt (m : Master) (a v : Nat) : (s.latch m a v).bt = s.bt := rfl
@[simp] theorem State.latch_prt (m : Master) (a v : Nat) : (s.latch m a v).prt = s.prt := rfl
@[simp] theorem State.latch_egress (m : Master) (a v : Nat) : (s.latch m a v).egress = s.egress := rfl
@[simp] theorem State.latch_pwr (m : Master) (a v : Nat) : (s.latch m a v).pwr = s.pwr := rfl
@[simp] theorem State.latch_host (m : Master) (a v : Nat) : (s.latch m a v).host = s.host := rfl
@[simp] theorem State.latch_gate (m : Master) (a v : Nat) : (s.latch m a v).gate = s.gate := rfl
@[simp] theorem State.latch_yard (m : Master) (a v : Nat) : (s.latch m a v).yard = s.yard := rfl
@[simp] theorem State.latch_loft (m : Master) (a v : Nat) : (s.latch m a v).loft = s.loft := rfl
@[simp] theorem State.latch_pool (m : Master) (a v : Nat) : (s.latch m a v).pool = s.pool := rfl
@[simp] theorem State.latch_guard (m : Master) (a v : Nat) : (s.latch m a v).guard = s.guard := rfl
@[simp] theorem State.latch_groom (m : Master) (a v : Nat) : (s.latch m a v).groom = s.groom := rfl
@[simp] theorem State.latch_sealSt (m : Master) (a v : Nat) : (s.latch m a v).sealSt = s.sealSt := rfl
@[simp] theorem State.latch_vault (m : Master) (a v : Nat) : (s.latch m a v).vault = s.vault := rfl
@[simp] theorem State.latch_otp (m : Master) (a v : Nat) : (s.latch m a v).otp = s.otp := rfl
@[simp] theorem State.latch_lifeSt (m : Master) (a v : Nat) : (s.latch m a v).lifeSt = s.lifeSt := rfl
@[simp] theorem State.latch_boot (m : Master) (a v : Nat) : (s.latch m a v).boot = s.boot := rfl
@[simp] theorem State.latch_tud (m : Master) (a v : Nat) : (s.latch m a v).tud = s.tud := rfl
@[simp] theorem State.latch_mtest (m : Master) (a v : Nat) : (s.latch m a v).mtest = s.mtest := rfl
@[simp] theorem State.latch_pair (m : Master) (a v : Nat) : (s.latch m a v).pair = s.pair := rfl
@[simp] theorem State.latch_pairSeq (m : Master) (a v : Nat) : (s.latch m a v).pairSeq = s.pairSeq := rfl
@[simp] theorem State.latch_pending (m : Master) (a v : Nat) : (s.latch m a v).pending = s.pending := rfl
@[simp] theorem State.latch_get (m : Master) (a v : Nat) (f : Fld) : (s.latch m a v).get f = s.get f := rfl

@[simp] theorem State.put_shadows (f : Fld) (v : Nat) : (s.put f v).shadows = s.shadows := rfl
@[simp] theorem State.put_clk (f : Fld) (v : Nat) : (s.put f v).clk = s.clk := rfl
@[simp] theorem State.put_frac (f : Fld) (v : Nat) : (s.put f v).frac = s.frac := rfl
@[simp] theorem State.put_dev (f : Fld) (v : Nat) : (s.put f v).dev = s.dev := rfl
@[simp] theorem State.put_free (f : Fld) (v : Nat) : (s.put f v).free = s.free := rfl
@[simp] theorem State.put_out (f : Fld) (v : Nat) : (s.put f v).out = s.out := rfl
@[simp] theorem State.put_evq (f : Fld) (v : Nat) : (s.put f v).evq = s.evq := rfl
@[simp] theorem State.put_rdata (f : Fld) (v : Nat) : (s.put f v).rdata = s.rdata := rfl
@[simp] theorem State.put_flash (f : Fld) (v : Nat) : (s.put f v).flash = s.flash := rfl
@[simp] theorem State.put_flashOk (f : Fld) (v : Nat) : (s.put f v).flashOk = s.flashOk := rfl
@[simp] theorem State.put_deviceId (f : Fld) (v : Nat) : (s.put f v).deviceId = s.deviceId := rfl
@[simp] theorem State.put_evt (f : Fld) (v : Nat) : (s.put f v).evt = s.evt := rfl
@[simp] theorem State.put_ym (f : Fld) (v : Nat) : (s.put f v).ym = s.ym := rfl
@[simp] theorem State.put_bt (f : Fld) (v : Nat) : (s.put f v).bt = s.bt := rfl
@[simp] theorem State.put_prt (f : Fld) (v : Nat) : (s.put f v).prt = s.prt := rfl
@[simp] theorem State.put_egress (f : Fld) (v : Nat) : (s.put f v).egress = s.egress := rfl
@[simp] theorem State.put_pwr (f : Fld) (v : Nat) : (s.put f v).pwr = s.pwr := rfl
@[simp] theorem State.put_host (f : Fld) (v : Nat) : (s.put f v).host = s.host := rfl
@[simp] theorem State.put_gate (f : Fld) (v : Nat) : (s.put f v).gate = s.gate := rfl
@[simp] theorem State.put_yard (f : Fld) (v : Nat) : (s.put f v).yard = s.yard := rfl
@[simp] theorem State.put_loft (f : Fld) (v : Nat) : (s.put f v).loft = s.loft := rfl
@[simp] theorem State.put_pool (f : Fld) (v : Nat) : (s.put f v).pool = s.pool := rfl
@[simp] theorem State.put_guard (f : Fld) (v : Nat) : (s.put f v).guard = s.guard := rfl
@[simp] theorem State.put_groom (f : Fld) (v : Nat) : (s.put f v).groom = s.groom := rfl
@[simp] theorem State.put_sealSt (f : Fld) (v : Nat) : (s.put f v).sealSt = s.sealSt := rfl
@[simp] theorem State.put_vault (f : Fld) (v : Nat) : (s.put f v).vault = s.vault := rfl
@[simp] theorem State.put_otp (f : Fld) (v : Nat) : (s.put f v).otp = s.otp := rfl
@[simp] theorem State.put_lifeSt (f : Fld) (v : Nat) : (s.put f v).lifeSt = s.lifeSt := rfl
@[simp] theorem State.put_boot (f : Fld) (v : Nat) : (s.put f v).boot = s.boot := rfl
@[simp] theorem State.put_tud (f : Fld) (v : Nat) : (s.put f v).tud = s.tud := rfl
@[simp] theorem State.put_mtest (f : Fld) (v : Nat) : (s.put f v).mtest = s.mtest := rfl
@[simp] theorem State.put_pair (f : Fld) (v : Nat) : (s.put f v).pair = s.pair := rfl
@[simp] theorem State.put_pairSeq (f : Fld) (v : Nat) : (s.put f v).pairSeq = s.pairSeq := rfl
@[simp] theorem State.put_pending (f : Fld) (v : Nat) : (s.put f v).pending = s.pending := rfl

@[simp] theorem State.elapse_clk (dt : Nat) : (s.elapse dt).clk = s.clk + dt := rfl
@[simp] theorem State.setFlash_flash (m : Memory) : (s.setFlash m).flash = m := rfl
@[simp] theorem State.ret_rdata (v : Nat) : (s.ret v).rdata = v := rfl
@[simp] theorem State.useFree_free : s.useFree.free = s.free + 1 := rfl
@[simp] theorem State.raiseEv_evq (e : Ev) : (s.raiseEv e).evq = s.evq ++ [e] := rfl
@[simp] theorem State.emit_out (o : Output) : (s.emit o).out = o :: s.out := rfl

end Sys2Proof.Machine
end

