-- ==== Sys2Proof/Laws/Table.lean ====
section
/-! SUPPORT. What reads after writes give on sparse tables and memories, and that writes keep the canonical form. -/

namespace Sys2Proof

@[simp] theorem Table.at_nil {α : Type} (d : α) (k : Nat) : Table.at d k [] = d := rfl
@[simp] theorem Table.find_nil {α : Type} (k : Nat) : Table.find (α := α) k [] = none := rfl

theorem Table.at_erase_self {α : Type} (d : α) (k : Nat) : (t : Table α) → Table.at d k (Table.erase k t) = d
  | [] => rfl
  | (k', v) :: t => by
    by_cases h : k' = k <;> simp [Table.erase, Table.at, h, Table.at_erase_self d k t]

theorem Table.at_erase_ne {α : Type} (d : α) {k j : Nat} (h : j ≠ k) :
    (t : Table α) → Table.at d j (Table.erase k t) = Table.at d j t
  | [] => rfl
  | (k', v) :: t => by
    have ih := Table.at_erase_ne d h t
    by_cases hk : k' = k
    · subst hk; simp [Table.erase, Table.at, ih, Ne.symm h]
    · simp [Table.erase, Table.at, hk, ih]

theorem Table.at_insert_self {α : Type} (d : α) (k : Nat) (v : α) : (t : Table α) → Table.at d k (Table.insert k v t) = v
  | [] => by simp [Table.insert, Table.at]
  | (k', v') :: t => by
    have ih := Table.at_insert_self d k v t
    by_cases h1 : k < k'
    · simp [Table.insert, Table.at, h1]
    · by_cases h2 : k = k'
      · simp [Table.insert, Table.at, h2]
      · simp [Table.insert, Table.at, h1, h2, Ne.symm h2, ih]

theorem Table.at_insert_ne {α : Type} (d : α) {k j : Nat} (h : j ≠ k) (v : α) :
    (t : Table α) → Table.at d j (Table.insert k v t) = Table.at d j t
  | [] => by simp [Table.insert, Table.at, Ne.symm h]
  | (k', v') :: t => by
    have ih := Table.at_insert_ne d h v t
    by_cases h1 : k < k'
    · simp [Table.insert, Table.at, h1, Ne.symm h]
    · by_cases h2 : k = k'
      · subst h2; simp [Table.insert, Table.at, Ne.symm h]
      · simp [Table.insert, Table.at, h1, h2, ih]

/-- A read after a write to the same key gives the value written. -/
@[simp] theorem Table.at_put_self {α : Type} [DecidableEq α] (d : α) (k : Nat) (v : α) (t : Table α) :
    Table.at d k (Table.put d k v t) = v := by
  by_cases h : v = d
  · simp [Table.put, h, Table.at_erase_self]
  · simp [Table.put, h, Table.at_insert_self]

/-- A write leaves every other key alone, whatever the reader's default. -/
theorem Table.at_put_ne {α : Type} [DecidableEq α] (d d' : α) {k j : Nat} (h : j ≠ k) (v : α) (t : Table α) :
    Table.at d' j (Table.put d k v t) = Table.at d' j t := by
  by_cases hv : v = d
  · simp [Table.put, hv, Table.at_erase_ne d' h]
  · simp [Table.put, hv, Table.at_insert_ne d' h]

@[simp] theorem Table.at_modify_self {α : Type} [DecidableEq α] (d : α) (k : Nat) (f : α → α) (t : Table α) :
    Table.at d k (Table.modify d k f t) = f (Table.at d k t) := by simp [Table.modify]

theorem Table.at_modify_ne {α : Type} [DecidableEq α] (d : α) {k j : Nat} (h : j ≠ k) (f : α → α) (t : Table α) :
    Table.at d j (Table.modify d k f t) = Table.at d j t := by simp [Table.modify, Table.at_put_ne d d h]

@[simp] theorem Table.find_erase_self {α : Type} (k : Nat) : (t : Table α) → Table.find k (Table.erase k t) = none
  | [] => rfl
  | (k', v) :: t => by
    by_cases h : k' = k <;> simp [Table.erase, Table.find, h, Table.find_erase_self k t]

theorem Table.find_erase_ne {α : Type} {k j : Nat} (h : j ≠ k) :
    (t : Table α) → Table.find j (Table.erase k t) = Table.find j t
  | [] => rfl
  | (k', v) :: t => by
    have ih := Table.find_erase_ne h t
    by_cases hk : k' = k
    · subst hk; simp [Table.erase, Table.find, ih, Ne.symm h]
    · simp [Table.erase, Table.find, hk, ih]

/-- An erasure adds nothing. -/
theorem Table.find_erase_none {α : Type} (t : Table α) (j k : Nat) (h : Table.find k t = none) :
    Table.find k (Table.erase j t) = none := by
  by_cases e : k = j
  · rw [e, Table.find_erase_self]
  · rw [Table.find_erase_ne e, h]

theorem Table.find_insert_self {α : Type} (k : Nat) (v : α) : (t : Table α) → Table.find k (Table.insert k v t) = some v
  | [] => by simp [Table.insert, Table.find]
  | (k', v') :: t => by
    have ih := Table.find_insert_self k v t
    by_cases h1 : k < k'
    · simp [Table.insert, Table.find, h1]
    · by_cases h2 : k = k'
      · simp [Table.insert, Table.find, h2]
      · simp [Table.insert, Table.find, h1, h2, Ne.symm h2, ih]

/-! The canonical form. -/

theorem Table.mem_erase {α : Type} {k : Nat} {e : Nat × α} : {t : Table α} → e ∈ Table.erase k t → e ∈ t
  | [], h => h
  | (k', v) :: t, h => by
    by_cases hk : k' = k
    · simp only [Table.erase, hk, if_true] at h; exact List.mem_cons_of_mem _ (Table.mem_erase h)
    · simp only [Table.erase, hk, if_false, List.mem_cons] at h
      rcases h with h | h
      · exact h ▸ List.mem_cons_self
      · exact List.mem_cons_of_mem _ (Table.mem_erase h)

theorem Table.mem_insert {α : Type} {k : Nat} {v : α} {e : Nat × α} : {t : Table α} → e ∈ Table.insert k v t → e = (k, v) ∨ e ∈ t
  | [], h => by simp [Table.insert] at h; exact .inl h
  | (k', v') :: t, h => by
    by_cases h1 : k < k'
    · simpa [Table.insert, h1] using h
    · by_cases h2 : k = k'
      · subst h2
        simp only [Table.insert, Nat.lt_irrefl, if_false, if_true, List.mem_cons] at h
        rcases h with h | h
        · exact .inl h
        · exact .inr (List.mem_cons_of_mem _ h)
      · simp only [Table.insert, h1, h2, if_false, List.mem_cons] at h
        rcases h with h | h
        · exact .inr (h ▸ List.mem_cons_self)
        · rcases Table.mem_insert h with h | h
          · exact .inl h
          · exact .inr (List.mem_cons_of_mem _ h)

theorem Table.sorted_cons {α : Type} {e : Nat × α} {t : Table α} :
    Table.sorted (e :: t) = true ↔ (∀ x ∈ t, e.1 < x.1) ∧ Table.sorted t = true := by
  simp [Table.sorted, Bool.and_eq_true, List.all_eq_true]

theorem Table.sorted_erase {α : Type} (k : Nat) : (t : Table α) → Table.sorted t = true → Table.sorted (Table.erase k t) = true
  | [], _ => rfl
  | (k', v) :: t, h => by
    rw [Table.sorted_cons] at h
    by_cases hk : k' = k
    · simpa [Table.erase, hk] using Table.sorted_erase k t h.2
    · simp only [Table.erase, hk, if_false, Table.sorted_cons]
      exact ⟨fun x hx => h.1 x (Table.mem_erase hx), Table.sorted_erase k t h.2⟩

theorem Table.sorted_insert {α : Type} (k : Nat) (v : α) :
    (t : Table α) → Table.sorted t = true → Table.sorted (Table.insert k v t) = true
  | [], _ => by simp [Table.insert, Table.sorted]
  | (k', v') :: t, h => by
    have h' := Table.sorted_cons.mp h
    by_cases h1 : k < k'
    · simp only [Table.insert, h1, if_true, Table.sorted_cons]
      refine ⟨fun x hx => ?_, h'⟩
      rcases List.mem_cons.mp hx with hx | hx
      · rw [hx]; exact h1
      · exact Nat.lt_trans h1 (h'.1 x hx)
    · by_cases h2 : k = k'
      · subst h2
        simp only [Table.insert, Nat.lt_irrefl, if_false, if_true, Table.sorted_cons]
        exact ⟨h'.1, h'.2⟩
      · simp only [Table.insert, h1, h2, if_false, Table.sorted_cons]
        refine ⟨fun x hx => ?_, Table.sorted_insert k v t h'.2⟩
        rcases Table.mem_insert hx with hx | hx
        · rw [hx]; simp only; omega
        · exact h'.1 x hx

theorem Table.wf_iff {α : Type} [DecidableEq α] {d : α} {t : Table α} :
    Table.wf d t = true ↔ Table.sorted t = true ∧ ∀ e ∈ t, e.2 ≠ d := by
  simp [Table.wf, Bool.and_eq_true, List.all_eq_true]

/-- A write keeps the canonical form. -/
theorem Table.wf_put {α : Type} [DecidableEq α] {d : α} {t : Table α} (k : Nat) (v : α) (h : Table.wf d t = true) :
    Table.wf d (Table.put d k v t) = true := by
  rw [Table.wf_iff] at h ⊢
  by_cases hv : v = d
  · simp only [Table.put, hv, if_true]
    exact ⟨Table.sorted_erase k t h.1, fun e he => h.2 e (Table.mem_erase he)⟩
  · simp only [Table.put, hv, if_false]
    refine ⟨Table.sorted_insert k v t h.1, fun e he => ?_⟩
    rcases Table.mem_insert he with he | he
    · rw [he]; exact hv
    · exact h.2 e he

theorem Table.wf_modify {α : Type} [DecidableEq α] {d : α} {t : Table α} (k : Nat) (f : α → α) (h : Table.wf d t = true) :
    Table.wf d (Table.modify d k f t) = true := Table.wf_put k _ h

theorem Table.wf_erase {α : Type} [DecidableEq α] {d : α} {t : Table α} (k : Nat) (h : Table.wf d t = true) :
    Table.wf d (Table.erase k t) = true := by
  rw [Table.wf_iff] at h ⊢
  exact ⟨Table.sorted_erase k t h.1, fun e he => h.2 e (Table.mem_erase he)⟩

theorem Table.sorted_filter {α : Type} (p : Nat × α → Bool) :
    (t : Table α) → Table.sorted t = true → Table.sorted (t.filter p : Table α) = true
  | [], _ => rfl
  | e :: t, h => by
    rw [Table.sorted_cons] at h
    by_cases hp : p e = true
    · rw [List.filter_cons_of_pos hp, Table.sorted_cons]
      exact ⟨fun x hx => h.1 x (List.mem_filter.mp hx).1, Table.sorted_filter p t h.2⟩
    · rw [List.filter_cons_of_neg hp]; exact Table.sorted_filter p t h.2

theorem Table.wf_filter {α : Type} [DecidableEq α] {d : α} {t : Table α} (p : Nat × α → Bool) (h : Table.wf d t = true) :
    Table.wf d (t.filter p : Table α) = true := by
  rw [Table.wf_iff] at h ⊢
  exact ⟨Table.sorted_filter p t h.1, fun e he => h.2 e (List.mem_filter.mp he).1⟩

/-! Byte memories. -/

/-- Every memory operation keeps the canonical form. -/
theorem Memory.wf_store {d : Byte} {m : Memory} (a : Nat) (bs : List Byte) (h : Memory.wf d m = true) :
    Memory.wf d (Memory.store d m a bs) = true := by
  induction bs generalizing m a with
  | nil => exact h
  | cons b bs ih => exact ih (a + 1) (Table.wf_put a b h)

theorem Memory.wf_clear {d : Byte} {m : Memory} (a n : Nat) (h : Memory.wf d m = true) :
    Memory.wf d (Memory.clear m a n) = true := Table.wf_filter _ h

/-- A store leaves every byte outside its range as it was. -/
theorem Memory.byte_store_ne (d : Byte) (m : Memory) (a : Nat) (bs : List Byte) (x : Nat)
    (h : x < a ∨ a + bs.length ≤ x) : Memory.byte d (Memory.store d m a bs) x = Memory.byte d m x := by
  induction bs generalizing m a with
  | nil => rfl
  | cons b bs ih =>
    simp only [List.length_cons] at h
    rw [Memory.store, ih _ (a + 1) (by omega)]
    exact Table.at_put_ne d d (by omega) b m

/-- A read after a store of one byte. -/
theorem Memory.byte_store_head (d : Byte) (m : Memory) (a : Nat) (b : Byte) (bs : List Byte) :
    Memory.byte d (Memory.store d m a (b :: bs)) a = b := by
  rw [Memory.store, Memory.byte_store_ne d _ (a + 1) bs a (by omega)]
  exact Table.at_put_self d a b m

/-- A read after a store of the same bytes. -/
theorem Memory.bytes_store (d : Byte) (m : Memory) (a : Nat) (bs : List Byte) :
    Memory.bytes d (Memory.store d m a bs) a bs.length = bs := by
  induction bs generalizing m a with
  | nil => rfl
  | cons b bs ih =>
    simp only [List.length_cons, Memory.bytes]
    rw [Memory.byte_store_head]
    congr 1
    exact ih _ (a + 1)

end Sys2Proof
end

