-- ==== Sys2Proof/Laws/Ops.lean ====
section
/-! SUPPORT. What register fields read after the named operations. -/

namespace Sys2Proof.Machine

theorem vote3_zero : vote3 0 0 0 = 0 := by decide

/-- A field reads what was written to it, cut to its width. -/
@[simp] theorem State.get_put_self (s : State) (f : Fld) (v : Nat) : (s.put f v).get f = v % 2 ^ f.width := by
  simp [State.get, State.put]

/-- A write leaves every field with another key alone. -/
theorem State.get_put_ne (s : State) {f g : Fld} (h : g.key ≠ f.key) (v : Nat) : (s.put f v).get g = s.get g := by
  simp [State.get, State.put, Table.at_put_ne f.rst g.rst h, Table.find_erase_ne h]

/-- A write to one field of a register, or to another register, leaves the field alone: the two keys are told apart by
computation. -/
theorem State.get_put_of (s : State) {f g : Fld} (h : (g.key == f.key) = false) (v : Nat) : (s.put f v).get g = s.get g :=
  s.get_put_ne (by simpa using h) v

@[simp] theorem State.when_true (s : State) (g : State → State) : s.when true g = g s := rfl
@[simp] theorem State.when_false (s : State) (g : State → State) : s.when false g = s := rfl
@[simp] theorem State.each_nil {α : Type} (s : State) (g : α → State → State) : s.each [] g = s := rfl
@[simp] theorem State.each_cons {α : Type} (s : State) (x : α) (l : List α) (g : α → State → State) :
    s.each (x :: l) g = (g x s).each l g := rfl

/-- What every step of a fold keeps, the fold keeps. -/
theorem State.each_keeps {α β : Type} (π : State → β) (g : α → State → State) (l : List α)
    (h : ∀ x ∈ l, ∀ s, π (g x s) = π s) (s : State) : π (s.each l g) = π s := by
  induction l generalizing s with
  | nil => rfl
  | cons x l ih =>
    rw [State.each_cons, ih (fun y hy => h y (List.mem_cons_of_mem _ hy)), h x List.mem_cons_self]

/-- An invariant that every step of a fold keeps, the fold keeps. -/
theorem State.each_inv {α : Type} (I : State → Prop) (g : α → State → State) (l : List α)
    (h : ∀ x ∈ l, ∀ s, I s → I (g x s)) (s : State) (hs : I s) : I (s.each l g) := by
  induction l generalizing s with
  | nil => exact hs
  | cons x l ih => exact ih (fun y hy => h y (List.mem_cons_of_mem _ hy)) _ (h x List.mem_cons_self s hs)

theorem State.when_keeps {β : Type} (π : State → β) (s : State) (c : Bool) (g : State → State)
    (h : ∀ t, π (g t) = π t) : π (s.when c g) = π s := by cases c <;> simp [State.when, h]

theorem State.flag_eq (s : State) (f : Fld) : s.flag f = s.put f 1 := rfl
theorem State.putB_eq (s : State) (f : Fld) (b : Bool) : s.putB f b = s.put f (b2n b) := rfl

@[simp] theorem State.get_flag_self (s : State) (f : Fld) (h : 0 < f.width) : (s.flag f).get f = 1 := by
  rw [State.flag_eq, State.get_put_self]
  exact Nat.mod_eq_of_lt (Nat.one_lt_two_pow (by omega))

theorem State.get_flag_ne (s : State) {f g : Fld} (h : g.key ≠ f.key) : (s.flag f).get g = s.get g := s.get_put_ne h 1

@[simp] theorem State.get_putB_self (s : State) (f : Fld) (b : Bool) (h : 0 < f.width) : (s.putB f b).get f = b2n b := by
  rw [State.putB_eq, State.get_put_self]
  refine Nat.mod_eq_of_lt ?_
  have := Nat.one_lt_two_pow (n := f.width) (by omega)
  cases b <;> simp [b2n] <;> omega

theorem State.get_putB_ne (s : State) {f g : Fld} (h : g.key ≠ f.key) (b : Bool) : (s.putB f b).get g = s.get g :=
  s.get_put_ne h _

theorem satAdd_lt (w a n : Nat) : satAdd w a n < 2 ^ w := by
  have := Nat.two_pow_pos w
  unfold satAdd; omega

/-- A counter after an addition: the sum, held at the greatest value of its width. -/
@[simp] theorem State.get_addTo_self (s : State) (f : Fld) (n : Nat) : (s.addTo f n).get f = satAdd f.width (s.get f) n := by
  rw [State.addTo, State.get_put_self, Nat.mod_eq_of_lt (satAdd_lt _ _ _)]

theorem State.get_addTo_ne (s : State) {f g : Fld} (h : g.key ≠ f.key) (n : Nat) : (s.addTo f n).get g = s.get g :=
  s.get_put_ne h _

@[simp] theorem State.get_bump_self (s : State) (f : Fld) : (s.bump f).get f = satAdd f.width (s.get f) 1 :=
  s.get_addTo_self f 1

theorem State.get_bump_ne (s : State) {f g : Fld} (h : g.key ≠ f.key) : (s.bump f).get g = s.get g := s.get_addTo_ne h 1

@[simp] theorem State.raise_get (s : State) (c src a b d e : Nat) (f : Fld) : (s.raise c src a b d e).get f = s.get f := rfl
@[simp] theorem State.raiseSlice_get (s : State) (c n a b d : Nat) (f : Fld) : (s.raiseSlice c n a b d).get f = s.get f := rfl

/-- A checked write that reaches its register has its effect (R555, R566). -/
theorem State.regWrite_of (s : State) (m : Master) (a : Nat) (g : State → State)
    (h1 : ¬(m = .debug ∧ s.dbgLevel = 0)) (h2 : s.writeRefusal m a = none) : s.regWrite m a g = g s := by
  simp only [State.regWrite, h1, if_false, h2]

/-- A checked write answers one of three states: nothing, a refused access, or its effect. -/
theorem State.regWrite_cases (s : State) (m : Master) (a : Nat) (g : State → State) :
    s.regWrite m a g = s ∨ (∃ c, s.writeRefusal m a = some c ∧ s.regWrite m a g = s.accessRefused m true a c)
      ∨ s.regWrite m a g = g s := by
  unfold State.regWrite
  split
  · exact .inl rfl
  · split
    · exact .inr (.inl ⟨_, by assumption, rfl⟩)
    · exact .inr (.inr rfl)

/-- A read whose register answers a master other than the debug port has its effect. -/
theorem State.regRead_of (s : State) (m : Master) (a : Nat) (g : State → State) (h1 : m ≠ .debug)
    (h2 : s.domAccessible (s.regDomain a) = true) : s.regRead m a g = g s := by
  simp [State.regRead, h1, h2]

theorem State.regReadLatch_of (s : State) (m : Master) (a : Nat) (g : State → State) (h1 : m ≠ .debug)
    (h2 : s.domAccessible (s.regDomain a) = true) : s.regReadLatch m a g = g s := by
  simp [State.regReadLatch, h1, h2]

/-- Elements of a register array that a loop writes, and what lies beside them. -/
theorem State.get_each_put (s : State) (f : Nat → Fld) (v : State → Nat → Nat) (l : List Nat) (g : Fld)
    (h : ∀ i ∈ l, g.key ≠ (f i).key) : (s.each l fun i t => t.put (f i) (v t i)).get g = s.get g :=
  State.each_keeps (fun t => t.get g) _ l (fun i hi t => t.get_put_ne (h i hi) _) s

/-- An element of a register array after a loop over distinct elements wrote it. -/
theorem State.get_each_put_self (s : State) (f : Nat → Fld) (v : Nat → Nat) (l : List Nat) (j : Nat) (hj : j ∈ l)
    (hd : ∀ i ∈ l, i ≠ j → (f j).key ≠ (f i).key) :
    (s.each l fun i t => t.put (f i) (v i)).get (f j) = v j % 2 ^ (f j).width := by
  induction l generalizing s with
  | nil => cases hj
  | cons x l ih =>
    rw [State.each_cons]
    by_cases hx : j ∈ l
    · exact ih _ hx fun i hi => hd i (List.mem_cons_of_mem _ hi)
    · have hxj : x = j := ((List.mem_cons.mp hj).resolve_right hx).symm
      subst hxj
      rw [State.get_each_put _ f (fun _ => v) l _ (fun i hi => hd i (List.mem_cons_of_mem _ hi) fun e => hx (e ▸ hi))]
      exact State.get_put_self _ _ _

/-- Different elements of an array have different keys. -/
theorem Fld.idx_key_ne (f : Fld) (h : 0 < f.stride) {i j : Nat} (hij : i ≠ j) : (f.idx i).key ≠ (f.idx j).key := by
  simp only [Fld.idx, Fld.shift, Fld.key]
  intro e
  have h1 : f.stride * i = f.stride * j := by omega
  exact hij (Nat.eq_of_mul_eq_mul_left h h1)

theorem State.domAccessible_zero (s : State) : s.domAccessible 0 = true := by
  simp [State.domAccessible, State.domState, State.domWaking]

end Sys2Proof.Machine
end

