-- ==== Sys2Proof/Laws/Deliver.lean ====
section
/-! SUPPORT. Everything that the end of a command may change (R353, R361, R474 to R489): State.commit is Delivered. -/

namespace Sys2Proof.Machine

theorem Delivered.refl (s : State) : Delivered s s :=
  ⟨rfl, fun _ _ => rfl, rfl, ⟨rfl, rfl, rfl⟩, ⟨rfl, rfl, rfl, rfl⟩, rfl, fun _ h => h, fun _ h => h, [], rfl⟩

theorem Delivered.trans {s t u : State} (h : Delivered s t) (k : Delivered t u) : Delivered s u where
  rest := by rw [k.rest, h.rest]
  keep f hf := (k.keep f hf).trans (h.keep f hf)
  stack := k.stack.trans h.stack
  flash := ⟨k.flash.1.trans h.flash.1, k.flash.2.1.trans h.flash.2.1, k.flash.2.2.trans h.flash.2.2⟩
  fn := ⟨k.fn.1.trans h.fn.1, k.fn.2.1.trans h.fn.2.1, k.fn.2.2.1.trans h.fn.2.2.1, k.fn.2.2.2.trans h.fn.2.2.2⟩
  pwr := by rw [k.pwr, h.pwr]
  pend i hi := k.pend i (h.pend i hi)
  tmr i hi := k.tmr i (h.tmr i hi)
  out := by
    obtain ⟨l, hl⟩ := h.out
    obtain ⟨l', hl'⟩ := k.out
    exact ⟨l' ++ l, by rw [hl', hl, List.append_assoc]⟩

theorem Delivered.after {s t u : State} (k : Delivered t u) (h : Delivered s t) : Delivered s u := h.trans k

theorem Delivered.when {s : State} (c : Bool) {g : State → State} (h : Delivered s (g s)) : Delivered s (s.when c g) := by
  cases c
  · exact .refl s
  · exact h

theorem Delivered.each {α : Type} (l : List α) (g : α → State → State) (h : ∀ x ∈ l, ∀ s, Delivered s (g x s)) (s : State) :
    Delivered s (s.each l g) := by
  induction l generalizing s with
  | nil => exact .refl s
  | cons x l ih =>
    exact (h x List.mem_cons_self s).trans (ih (fun y hy => h y (List.mem_cons_of_mem _ hy)) _)

/-- Not a pending word. -/
def notPend (k : Nat) : Bool := decide (¬(0xE00080 ≤ k / 64 ∧ k / 64 < 0xE000C0))

theorem pend_key (n : Nat) (h : n < 16) : notPend (F.EVT_PENDn.idx n).key = false := by
  simp [notPend, Fld.key, Fld.idx, Fld.shift, F.EVT_PENDn]; omega

theorem deliversAt_pend (o l : Nat) (h : 0xE00080 ≤ o ∧ o < 0xE000C0) : deliversAt o l = true := by
  simp only [deliversAt, decide_eq_true h, Bool.true_or, Bool.or_true]

theorem deliversAt_cnt (o l : Nat) (h : 0xE00400 ≤ o ∧ o < 0xE00600) : deliversAt o l = true := by
  simp only [deliversAt, decide_eq_true h, Bool.true_or]

theorem pend_delivers (n : Nat) (h : n < 16) : delivers (F.EVT_PENDn.idx n).key = true := by
  refine deliversAt_pend _ _ ?_
  simp only [Fld.key, Fld.idx, Fld.shift, F.EVT_PENDn]; omega

theorem Delivered.put (s : State) (f : Fld) (v : Nat) (h : delivers f.key = true) (hp : notPend f.key = true) :
    Delivered s (s.put f v) where
  rest := rfl
  keep g hg := s.get_put_ne (fun e => by rw [e, h] at hg; cases hg) v
  stack := rfl
  flash := ⟨rfl, rfl, rfl⟩
  fn := ⟨rfl, rfl, rfl, rfl⟩
  pwr := rfl
  pend i hi := by
    have hne : (F.EVT_PENDn.idx (i / 32 % 16)).key ≠ f.key := fun e => by
      have := pend_key (i / 32 % 16) (Nat.mod_lt _ (by decide))
      rw [e, hp] at this; cases this
    simpa [State.isPending, s.get_put_ne hne v] using hi
  tmr := Table.find_erase_none _ _
  out := ⟨[], rfl⟩

theorem Delivered.emit (s : State) (o : Output) : Delivered s (s.emit o) :=
  ⟨rfl, fun _ _ => rfl, rfl, ⟨rfl, rfl, rfl⟩, ⟨rfl, rfl, rfl, rfl⟩, rfl, fun _ h => h, fun _ h => h, [o], rfl⟩

theorem Delivered.setSlice (s : State) (n : Nat) (g : SliceSt → SliceSt) : Delivered s (s.setSlice n g) :=
  ⟨rfl, fun _ _ => rfl, rfl, ⟨rfl, rfl, rfl⟩, ⟨rfl, rfl, rfl, rfl⟩, rfl, fun _ h => h, fun _ h => h, [], rfl⟩

/-- Changes of the event block's own queues and marks. -/
theorem Delivered.setEvt (s : State) (g : EvtSt → EvtSt) (h1 : (g s.evt).stack = s.evt.stack)
    (h2 : (g s.evt).recent = s.evt.recent ∧ (g s.evt).clearReq = s.evt.clearReq ∧ (g s.evt).clears = s.evt.clears) :
    Delivered s (s.setEvt g) :=
  ⟨rfl, fun _ _ => rfl, h1, h2, ⟨rfl, rfl, rfl, rfl⟩, rfl, fun _ h => h, fun _ h => h, [], rfl⟩

/-- Changes of the host interface that leave its function, its MSI-X table and its pins alone. -/
theorem Delivered.setHost (s : State) (g : HostSt → HostSt) (h : (g s.host).fn = s.host.fn ∧ (g s.host).msix = s.host.msix
    ∧ (g s.host).perstN = s.host.perstN ∧ (g s.host).peRefclk = s.host.peRefclk) : Delivered s (s.setHost g) :=
  ⟨rfl, fun _ _ => rfl, rfl, ⟨rfl, rfl, rfl⟩, h, rfl, fun _ h => h, fun _ h => h, [], rfl⟩

theorem Delivered.wfi (s : State) (b : Bool) : Delivered s (s.setPwr fun x => { x with wfi := b }) :=
  ⟨rfl, fun _ _ => rfl, rfl, ⟨rfl, rfl, rfl⟩, ⟨rfl, rfl, rfl, rfl⟩, rfl, fun _ h => h, fun _ h => h, [], rfl⟩

theorem Delivered.evq (s : State) (l : List Ev) : Delivered s { s with evq := l } :=
  ⟨rfl, fun _ _ => rfl, rfl, ⟨rfl, rfl, rfl⟩, ⟨rfl, rfl, rfl, rfl⟩, rfl, fun _ h => h, fun _ h => h, [], rfl⟩

theorem Delivered.raiseEv (s : State) (e : Ev) : Delivered s (s.raiseEv e) := .evq s _

/-! Pending bits. -/

theorem bitOf_setBit (x i j : Nat) : bitOf (setBit x i) j = (bitOf x j || decide (i = j)) := by
  simp [bitOf, setBit, Nat.testBit_or, Nat.testBit_two_pow]

theorem bitOf_mod (x w j : Nat) (h : j < w) : bitOf (x % 2 ^ w) j = bitOf x j := by
  simp [bitOf, Nat.testBit_mod_two_pow, h]

theorem pend_idx_ne {m n : Nat} (h : m ≠ n) : (F.EVT_PENDn.idx m).key ≠ (F.EVT_PENDn.idx n).key := by
  simp [Fld.key, Fld.idx, Fld.shift, F.EVT_PENDn]; omega

theorem raiseVector_delivered (s : State) (v : Nat) : Delivered s (s.raiseVector v) := by
  unfold State.raiseVector
  split
  · split
    · exact .refl s
    · exact .setHost s _ ⟨rfl, rfl, rfl, rfl⟩
  · exact .emit s _

/-- The pending word with a bit set. -/
theorem pendPut_delivered (s : State) (i : Nat) :
    Delivered s (s.put (F.EVT_PENDn.idx (i / 32 % 16)) (setBit (s.get (F.EVT_PENDn.idx (i / 32 % 16))) (i % 32))) where
  rest := rfl
  keep g hg := s.get_put_ne (fun e => by rw [e, pend_delivers _ (Nat.mod_lt _ (by decide))] at hg; cases hg) _
  stack := rfl
  flash := ⟨rfl, rfl, rfl⟩
  fn := ⟨rfl, rfl, rfl, rfl⟩
  pwr := rfl
  pend j hj := by
    unfold State.isPending at hj ⊢
    by_cases h : j / 32 % 16 = i / 32 % 16
    · rw [h] at hj ⊢
      rw [State.get_put_self]
      have : (F.EVT_PENDn.idx (i / 32 % 16)).width = 32 := rfl
      rw [this, bitOf_mod _ _ _ (Nat.mod_lt _ (by decide)), bitOf_setBit, hj, Bool.true_or]
    · rwa [s.get_put_ne (pend_idx_ne h)]
  tmr := Table.find_erase_none _ _
  out := ⟨[], rfl⟩

theorem setPending_delivered (s : State) (i : Nat) : Delivered s (s.setPending i) := by
  unfold State.setPending
  simp only
  split
  · exact .refl s
  · exact (pendPut_delivered s i).trans (.when _ (raiseVector_delivered _ _))

/-- Afterwards source `i` is pending. -/
theorem setPending_pends (s : State) (i : Nat) : (s.setPending i).isPending i = true := by
  unfold State.setPending
  simp only
  split
  · assumption
  · refine (Delivered.when _ (raiseVector_delivered _ _)).pend i ?_
    unfold State.isPending
    rw [State.get_put_self]
    have : (F.EVT_PENDn.idx (i / 32 % 16)).width = 32 := rfl
    rw [this, bitOf_mod _ _ _ (Nat.mod_lt _ (by decide)), bitOf_setBit]
    simp

theorem countSource_delivered (s : State) (i : Nat) : Delivered s (s.countSource i) := by
  unfold State.countSource
  simp only
  split
  · refine .put s _ _ (deliversAt_cnt _ _ ?_) (decide_eq_true ?_) <;>
      (simp only [Fld.key, Fld.idx, Fld.shift, F.EVT_CNTn]; omega)
  · exact .refl s

/-! Host queues. -/

/-- The offset of a slice's field lies in its own window. -/
theorem sl_key (f : Fld) (n : Nat) (h : f.lo < 64) : (sl f n).key / 64 = f.off + 0x10000 * (n % 256) ∧ (sl f n).key % 64 = f.lo := by
  simp only [sl, Fld.shift, Fld.key]; omega

theorem deliversAt_window (o l m : Nat) (h0 : 0x4000000 ≤ o) (h1 : o < 0x4010000) (h : deliversAt o l = true) :
    deliversAt (o + 0x10000 * m) l = true := by
  have e : (o + 0x10000 * m) % 0x10000 = o % 0x10000 := by omega
  have h2 : decide (0x4000000 ≤ o) = true := decide_eq_true h0
  have h3 : decide (0x4000000 ≤ o + 0x10000 * m) = true := decide_eq_true (by omega)
  have n1 : decide (0xE00400 ≤ o ∧ o < 0xE00600) = false := decide_eq_false (by omega)
  have n2 : decide (0xE00080 ≤ o ∧ o < 0xE000C0) = false := decide_eq_false (by omega)
  have n3 : (o == 0xE00108) = false := beq_false_of_ne (by omega)
  have n4 : (o == 0xE0010C) = false := beq_false_of_ne (by omega)
  have n5 : (o == 0xE00208) = false := beq_false_of_ne (by omega)
  have n6 : (o == 0xE00004) = false := beq_false_of_ne (by omega)
  have n7 : (o == 0xF000CC) = false := beq_false_of_ne (by omega)
  have n8 : (o == 0xF00200) = false := beq_false_of_ne (by omega)
  simp only [deliversAt, h2, n1, n2, n3, n4, n5, n6, n7, n8, Bool.false_or, Bool.true_and, Bool.false_and] at h
  simp only [deliversAt, e, h3, Bool.true_and, h, Bool.or_true]

/-- A slice's field that delivery writes. -/
theorem Delivered.putSl (s : State) (f : Fld) (n v : Nat) (hl : f.lo < 64) (h0 : 0x4000000 ≤ f.off ∧ f.off < 0x4010000)
    (h : delivers f.key = true) : Delivered s (s.put (sl f n) v) := by
  obtain ⟨h1, h2⟩ := sl_key f n hl
  have h3 : f.key / 64 = f.off := by simp only [Fld.key]; omega
  have h4 : f.key % 64 = f.lo := by simp only [Fld.key]; omega
  unfold delivers at h
  rw [h3, h4] at h
  refine .put s _ v ?_ ?_
  · unfold delivers
    rw [h1, h2]
    exact deliversAt_window _ _ _ h0.1 h0.2 h
  · unfold notPend
    rw [h1]
    exact decide_eq_true (by omega)

theorem addToSl_delivered (s : State) (f : Fld) (n k : Nat) (hl : f.lo < 64) (h0 : 0x4000000 ≤ f.off ∧ f.off < 0x4010000)
    (h : delivers f.key = true) : Delivered s (s.addTo (sl f n) k) := .putSl s f n _ hl h0 h

theorem drWrite_delivered (s : State) (n : Nat) (e : Cqe) : Delivered s (s.drWrite n e).1 := by
  unfold State.drWrite
  split
  · simp only
    split
    · exact (Delivered.putSl s F.SLICE_DR_TAIL n _ (by decide) (by decide) (by decide)).trans
        (addToSl_delivered _ F.SLICE_CNT_DMA_BYTES n _ (by decide) (by decide) (by decide))
    · exact addToSl_delivered s F.SLICE_CNT_DR_DROP n 1 (by decide) (by decide) (by decide)
  · exact .refl s

theorem cqWriteNow_delivered (s : State) (n : Nat) (e : Cqe) : Delivered s (s.cqWriteNow n e) := by
  unfold State.cqWriteNow
  simp only
  refine .after (.when _ (raiseVector_delivered _ _)) (.after (.when _ (.setSlice _ _ _)) ?_)
  refine .after (addToSl_delivered _ F.SLICE_CNT_DMA_BYTES n _ (by decide) (by decide) (by decide)) ?_
  refine .after (.putSl _ F.SLICE_CQ_TAIL n _ (by decide) (by decide) (by decide)) (.after (.emit _ _) ?_)
  exact drWrite_delivered s n e

theorem evWriteNow_delivered (s : State) (n : Nat) (e : EventRec) : Delivered s (s.evWriteNow n e) := by
  unfold State.evWriteNow
  simp only
  refine .after (.when _ (raiseVector_delivered _ _)) (.after (.when _ (.setSlice _ _ _)) ?_)
  refine .after (addToSl_delivered _ F.SLICE_CNT_DMA_BYTES n _ (by decide) (by decide) (by decide)) ?_
  exact .after (.putSl _ F.SLICE_EVR_TAIL n _ (by decide) (by decide) (by decide)) (.emit _ _)

theorem flushCqList_delivered (n : Nat) (l : List Cqe) (s : State) : Delivered s (s.flushCqList n l) := by
  induction l generalizing s with
  | nil => exact .setSlice s _ _
  | cons e l ih =>
    unfold State.flushCqList
    split
    · exact (cqWriteNow_delivered s n e).trans (ih _)
    · exact .setSlice s _ _

theorem flushCq_delivered (s : State) (n : Nat) : Delivered s (s.flushCq n) := by
  unfold State.flushCq
  split
  · exact (Delivered.when _ ((cqWriteNow_delivered s n _).trans (.setSlice _ _ _))).trans (flushCqList_delivered _ _ _)
  · exact .refl s

theorem flushEvList_delivered (n : Nat) (l : List EventRec) (s : State) : Delivered s (s.flushEvList n l) := by
  induction l generalizing s with
  | nil => exact .setSlice s _ _
  | cons e l ih =>
    unfold State.flushEvList
    split
    · exact (evWriteNow_delivered s n e).trans (ih _)
    · exact .setSlice s _ _

theorem flushEv_delivered (s : State) (n : Nat) : Delivered s (s.flushEv n) := flushEvList_delivered n _ s

/-- The limiter either keeps the occurrences or does what it was given. -/
theorem limited_delivered (s : State) (code key n : Nat) (g : Nat → State → State) (h : ∀ k t, Delivered t (g k t)) :
    Delivered s (s.limited code key n g) := by
  unfold State.limited
  split
  · refine .after (h _ _) ?_
    exact .setEvt s _ rfl ⟨rfl, rfl, rfl⟩
  · split
    · refine .after (h _ _) ?_
      exact .setEvt s _ rfl ⟨rfl, rfl, rfl⟩
    · exact .setEvt s _ rfl ⟨rfl, rfl, rfl⟩

theorem cqDrop_delivered (s : State) (n : Nat) : Delivered s (s.cqDrop n) := by
  unfold State.cqDrop
  simp only
  refine .after (limited_delivered _ _ _ _ _ fun _ t => .raiseEv t _) (.after (.setSlice _ _ _) ?_)
  exact .after (.putSl _ F.SLICE_STATUS_CQ_LOST n 1 (by decide) (by decide) (by decide))
    (addToSl_delivered s F.SLICE_CNT_CQ_DROP n 1 (by decide) (by decide) (by decide))

/-- A completion entry is delivered, staged or dropped, and nothing else changes (R361, R362). -/
theorem cqPush_delivered (s : State) (n : Nat) (e : Cqe) : Delivered s (s.cqPush n e) := by
  unfold State.cqPush
  simp only
  refine (flushCq_delivered s n).trans ?_
  split
  · exact cqWriteNow_delivered _ n e
  · split
    · exact .setSlice _ _ _
    · exact cqDrop_delivered _ n

theorem evPush_delivered (s : State) (n c q a b d e f : Nat) : Delivered s (s.evPush n c q a b d e f) := by
  unfold State.evPush
  simp only
  split
  · exact .after (evWriteNow_delivered _ n _) (.after (.setSlice _ _ _) (flushEv_delivered s n))
  · split
    · exact .after (.setSlice _ _ _) (.after (.setSlice _ _ _) (flushEv_delivered s n))
    · exact .after (.setSlice _ _ _) (flushEv_delivered s n)

/-! The ledger's buffer. -/

theorem bufPush_delivered (s : State) (r : LedgerRec) : Delivered s (s.bufPush r) := by
  unfold State.bufPush
  split
  · refine .after (.put _ F.LDG_BUF _ (by decide) (by decide)) ?_
    exact .setEvt s _ rfl ⟨rfl, rfl, rfl⟩
  · simp only
    refine .after (t := (s.flag F.EVT_STATUS_DROP).bump F.LDG_CNT_DROP) ?_ ?_
    · exact .setEvt _ _ rfl ⟨rfl, rfl, rfl⟩
    · exact .after (.put _ F.LDG_CNT_DROP _ (by decide) (by decide)) (.put s F.EVT_STATUS_DROP 1 (by decide) (by decide))

theorem closeOpen_delivered (s : State) : Delivered s s.closeOpen := by
  unfold State.closeOpen
  split
  · exact .refl s
  · simp only
    split
    · refine .after (bufPush_delivered _ _) ?_
      exact .setEvt s _ rfl ⟨rfl, rfl, rfl⟩
    · exact .setEvt s _ rfl ⟨rfl, rfl, rfl⟩

theorem openNew_delivered (s : State) (r : LedgerRec) : Delivered s (s.openNew r) := by
  unfold State.openNew
  simp only
  split
  · exact ((bufPush_delivered s _).trans (.put _ F.LDG_SEQ _ (by decide) (by decide))).trans (.setEvt _ _ rfl ⟨rfl, rfl, rfl⟩)
  · exact bufPush_delivered s _

theorem record_delivered (s : State) (e : Ev) : Delivered s (s.record e) := by
  unfold State.record
  simp only
  split
  · split
    · split
      · refine .after (closeOpen_delivered _) ?_
        exact .setEvt s _ rfl ⟨rfl, rfl, rfl⟩
      · exact .setEvt s _ rfl ⟨rfl, rfl, rfl⟩
    · exact (closeOpen_delivered s).trans (openNew_delivered _ _)
  · exact openNew_delivered s _

theorem deliver_delivered (s : State) (e : Ev) : Delivered s (s.deliver e) :=
  (((countSource_delivered s _).trans (setPending_delivered _ _)).trans (record_delivered _ e)).trans
    (.each _ _ (fun _ _ t => evPush_delivered t _ _ _ _ _ _ _ _) _)

/-- An event that is delivered leaves its source pending (R474). -/
theorem deliver_pends (s : State) (e : Ev) : (s.deliver e).isPending e.source = true :=
  (Delivered.trans (record_delivered _ e) (.each _ _ (fun _ _ t => evPush_delivered t _ _ _ _ _ _ _ _) _)).pend _
    (setPending_pends _ _)

theorem mem_evInsert (e x : Ev) : (l : List Ev) → x ∈ evInsert e l ↔ x = e ∨ x ∈ l
  | [] => by simp [evInsert]
  | y :: l => by
    unfold evInsert
    split
    · simp
    · rw [List.mem_cons, mem_evInsert e x l, List.mem_cons]; exact or_left_comm

theorem mem_evSort (x : Ev) (l : List Ev) : x ∈ evSort l ↔ x ∈ l := by
  have h : ∀ (l a : List Ev), x ∈ l.foldl (fun a e => evInsert e a) a ↔ x ∈ a ∨ x ∈ l := by
    intro l
    induction l with
    | nil => simp
    | cons y l ih =>
      intro a
      rw [List.foldl_cons, ih, mem_evInsert, List.mem_cons, or_assoc]
      exact or_left_comm
  rw [evSort, h]; simp

theorem deliverAll_delivered (s : State) : Delivered s s.deliverAll := by
  unfold State.deliverAll
  exact (Delivered.each _ _ (fun e _ t => deliver_delivered t e) s).trans (.evq _ _)

theorem each_deliver_pends (l : List Ev) (s : State) (e : Ev) (h : e ∈ l) :
    (s.each l (fun e t => t.deliver e)).isPending e.source = true := by
  induction l generalizing s with
  | nil => cases h
  | cons x l ih =>
    rcases List.mem_cons.mp h with h | h
    · subst h
      exact (Delivered.each l _ (fun e _ t => deliver_delivered t e) _).pend _ (deliver_pends s e)
    · exact ih _ h

theorem deliverAll_pends (s : State) (e : Ev) (h : e ∈ s.evq) : s.deliverAll.isPending e.source = true :=
  each_deliver_pends (evSort s.evq) s e ((mem_evSort e s.evq).mpr h)

/-! The end of a command. -/

theorem freezeDone_delivered (s : State) : Delivered s s.freezeDone := by
  unfold State.freezeDone
  refine .each _ _ (fun n _ t => ?_) s
  exact (Delivered.putSl t F.SLICE_STATUS_STATE n 3 (by decide) (by decide) (by decide)).trans (.raiseEv _ _)

theorem overloadEvent_delivered (s : State) : Delivered s s.overloadEvent := by
  unfold State.overloadEvent
  split
  · exact .refl s
  · refine .after (limited_delivered _ _ _ _ _ fun _ t => ?_) ?_
    · exact .after (.setEvt _ _ rfl ⟨rfl, rfl, rfl⟩) (.raiseEv t _)
    · exact .setEvt s _ rfl ⟨rfl, rfl, rfl⟩

theorem evalWake_delivered (s : State) : Delivered s s.evalWake := by
  unfold State.evalWake
  split
  · split
    · exact .after (.setHost _ _ ⟨rfl, rfl, rfl, rfl⟩) (.emit s _)
    · exact .refl s
  · split
    · exact .setHost s _ ⟨rfl, rfl, rfl, rfl⟩
    · exact .refl s
  · exact .refl s

theorem ymWake_delivered (s : State) : Delivered s s.ymWake := by
  unfold State.ymWake
  split
  · exact .after (.put _ F.PWR_CNT_TRANS _ (by decide) (by decide)) (.after (.put _ _ _ (by decide) (by decide)) (.wfi s _))
  · exact .refl s

/-- Everything that the end of a command changes. -/
theorem commit_delivered (s : State) : Delivered s s.commit := by
  unfold State.commit
  simp only
  have h := ((((freezeDone_delivered s).trans (deliverAll_delivered _)).trans (overloadEvent_delivered _)).trans
    (deliverAll_delivered _)).trans ((evalWake_delivered _).trans (ymWake_delivered _))
  split
  · exact h
  · exact .after (.setHost _ _ ⟨rfl, rfl, rfl, rfl⟩) (.after (.emit _ _) h)

theorem freezeDone_evq (s : State) (e : Ev) (h : e ∈ s.evq) : e ∈ s.freezeDone.evq := by
  unfold State.freezeDone
  refine State.each_inv (fun t => e ∈ t.evq) _ _ (fun n _ t ht => ?_) s h
  show e ∈ t.evq ++ _
  exact List.mem_append_left _ ht

/-- An event raised by a command leaves its source pending at the command's end (R474, R481). -/
theorem commit_pends (s : State) (e : Ev) (h : e ∈ s.evq) : s.commit.isPending e.source = true := by
  have h1 := deliverAll_pends s.freezeDone e (freezeDone_evq s e h)
  have h2 := (((overloadEvent_delivered s.freezeDone.deliverAll).trans (deliverAll_delivered _)).trans
    ((evalWake_delivered _).trans (ymWake_delivered _))).pend _ h1
  unfold State.commit
  simp only
  split
  · exact h2
  · exact h2

end Sys2Proof.Machine
end

