-- ==== Sys2Proof/Laws/Commit.lean ====
section
/-! SUPPORT. What reads after the end of a command (State.commit) give. -/

namespace Sys2Proof.Machine

/-- A field that delivery does not write reads as the command left it. -/
theorem State.commit_get (s : State) (f : Fld) (h : delivers f.key = false) : s.commit.get f = s.get f :=
  (commit_delivered s).keep f h

theorem State.commit_bit (s : State) (f : Fld) (h : delivers f.key = false) : s.commit.bit f = s.bit f := by
  rw [State.bit, State.commit_get s f h, State.bit]

@[simp] theorem State.commit_stack (s : State) : s.commit.evt.stack = s.evt.stack := (commit_delivered s).stack
@[simp] theorem State.commit_fn (s : State) : s.commit.host.fn = s.host.fn := (commit_delivered s).fn.1
@[simp] theorem State.commit_msix (s : State) : s.commit.host.msix = s.host.msix := (commit_delivered s).fn.2.1

@[simp] theorem State.commit_shadows (s : State) : s.commit.shadows = s.shadows := by rw [(commit_delivered s).rest]
@[simp] theorem State.commit_clk (s : State) : s.commit.clk = s.clk := by rw [(commit_delivered s).rest]
@[simp] theorem State.commit_dev (s : State) : s.commit.dev = s.dev := by rw [(commit_delivered s).rest]
@[simp] theorem State.commit_free (s : State) : s.commit.free = s.free := by rw [(commit_delivered s).rest]
@[simp] theorem State.commit_rdata (s : State) : s.commit.rdata = s.rdata := by rw [(commit_delivered s).rest]
@[simp] theorem State.commit_flash (s : State) : s.commit.flash = s.flash := by rw [(commit_delivered s).rest]
@[simp] theorem State.commit_flashOk (s : State) : s.commit.flashOk = s.flashOk := by rw [(commit_delivered s).rest]
@[simp] theorem State.commit_deviceId (s : State) : s.commit.deviceId = s.deviceId := by rw [(commit_delivered s).rest]
@[simp] theorem State.commit_ym (s : State) : s.commit.ym = s.ym := by rw [(commit_delivered s).rest]
@[simp] theorem State.commit_bt (s : State) : s.commit.bt = s.bt := by rw [(commit_delivered s).rest]
@[simp] theorem State.commit_prt (s : State) : s.commit.prt = s.prt := by rw [(commit_delivered s).rest]
@[simp] theorem State.commit_egress (s : State) : s.commit.egress = s.egress := by rw [(commit_delivered s).rest]
@[simp] theorem State.commit_gate (s : State) : s.commit.gate = s.gate := by rw [(commit_delivered s).rest]
@[simp] theorem State.commit_yard (s : State) : s.commit.yard = s.yard := by rw [(commit_delivered s).rest]
@[simp] theorem State.commit_loft (s : State) : s.commit.loft = s.loft := by rw [(commit_delivered s).rest]
@[simp] theorem State.commit_pool (s : State) : s.commit.pool = s.pool := by rw [(commit_delivered s).rest]
@[simp] theorem State.commit_guard (s : State) : s.commit.guard = s.guard := by rw [(commit_delivered s).rest]
@[simp] theorem State.commit_groom (s : State) : s.commit.groom = s.groom := by rw [(commit_delivered s).rest]
@[simp] theorem State.commit_sealSt (s : State) : s.commit.sealSt = s.sealSt := by rw [(commit_delivered s).rest]
@[simp] theorem State.commit_vault (s : State) : s.commit.vault = s.vault := by rw [(commit_delivered s).rest]
@[simp] theorem State.commit_otp (s : State) : s.commit.otp = s.otp := by rw [(commit_delivered s).rest]
@[simp] theorem State.commit_lifeSt (s : State) : s.commit.lifeSt = s.lifeSt := by rw [(commit_delivered s).rest]
@[simp] theorem State.commit_boot (s : State) : s.commit.boot = s.boot := by rw [(commit_delivered s).rest]
@[simp] theorem State.commit_tud (s : State) : s.commit.tud = s.tud := by rw [(commit_delivered s).rest]
@[simp] theorem State.commit_mtest (s : State) : s.commit.mtest = s.mtest := by rw [(commit_delivered s).rest]
@[simp] theorem State.commit_pair (s : State) : s.commit.pair = s.pair := by rw [(commit_delivered s).rest]
@[simp] theorem State.commit_pairSeq (s : State) : s.commit.pairSeq = s.pairSeq := by rw [(commit_delivered s).rest]
@[simp] theorem State.commit_pending (s : State) : s.commit.pending = s.pending := by rw [(commit_delivered s).rest]

theorem freezeDone_calm (s : State) (h : s.Calm) : s.freezeDone = s := by
  unfold State.freezeDone
  have : (s.sliceList.filter fun n => s.get (sl F.SLICE_STATUS_STATE n) == 2 && (s.slice n).freezeIn.isNone && !s.freezeWaits n)
      = [] := by
    rw [List.filter_eq_nil_iff]
    intro n hn
    simp [h.2.2 n hn]
  rw [this, State.each_nil]

theorem deliverAll_calm (s : State) (h : s.evq = []) : s.deliverAll = s := by
  cases s; simp only at h; subst h; rfl

/-- An event raised last leaves its source pending. -/
theorem State.raise_pends (s : State) (c src a b d e : Nat) : (s.raise c src a b d e).commit.isPending src = true :=
  commit_pends _ ⟨c, src, a % 2 ^ 32, b % 2 ^ 32, d % 2 ^ 32, e % 2 ^ 32, false, false, []⟩ (by simp [State.raise])

/-- In a calm state the end of a command changes no event, no host queue and no field but those of PD20. -/
theorem commit_calm (s : State) (h : s.Calm) : s.commit.evt = s.evt ∧ s.commit.host.slices = s.host.slices
    ∧ s.commit.evq = [] ∧ ∀ f : Fld, f.key ≠ (F.PWR_DOMd_STAT_STATE.idx 19).key → f.key ≠ F.PWR_CNT_TRANS.key →
      s.commit.get f = s.get f := by
  have h1 : s.freezeDone.deliverAll.overloadEvent.deliverAll = s := by
    rw [freezeDone_calm s h, deliverAll_calm s h.1, State.overloadEvent, h.2.1]
    exact deliverAll_calm s h.1
  have h2 : ∀ t : State, t.evalWake.evt = t.evt ∧ t.evalWake.host.slices = t.host.slices ∧ t.evalWake.evq = t.evq
      ∧ ∀ f, t.evalWake.get f = t.get f := by
    intro t
    unfold State.evalWake
    split
    · split <;> exact ⟨rfl, rfl, rfl, fun _ => rfl⟩
    · split <;> exact ⟨rfl, rfl, rfl, fun _ => rfl⟩
    · exact ⟨rfl, rfl, rfl, fun _ => rfl⟩
  have h3 : ∀ t : State, t.ymWake.evt = t.evt ∧ t.ymWake.host.slices = t.host.slices ∧ t.ymWake.evq = t.evq
      ∧ ∀ f : Fld, f.key ≠ (F.PWR_DOMd_STAT_STATE.idx 19).key → f.key ≠ F.PWR_CNT_TRANS.key → t.ymWake.get f = t.get f := by
    intro t
    unfold State.ymWake
    split
    · refine ⟨rfl, rfl, rfl, fun f hf hg => ?_⟩
      rw [State.get_bump_ne _ hg, State.get_put_ne _ hf]; rfl
    · exact ⟨rfl, rfl, rfl, fun _ _ _ => rfl⟩
  unfold State.commit
  simp only [h1]
  obtain ⟨a1, a2, a3, a4⟩ := h2 s
  obtain ⟨b1, b2, b3, b4⟩ := h3 s.evalWake
  split
  · exact ⟨b1.trans a1, b2.trans a2, (b3.trans a3).trans h.1, fun f hf hg => (b4 f hf hg).trans (a4 f)⟩
  · exact ⟨b1.trans a1, b2.trans a2, (b3.trans a3).trans h.1, fun f hf hg => (b4 f hf hg).trans (a4 f)⟩

end Sys2Proof.Machine
end

