-- ==== Sys2Proof/Laws/Frames.lean ====
section
/-! SUPPORT. How frames compose: what register-only updates leave alone. -/

namespace Sys2Proof.Machine

theorem OnlyFields.refl (l : List Fld) (s : State) : OnlyFields l s s := ⟨rfl, fun _ _ _ => rfl⟩

theorem OnlyFields.trans {l : List Fld} {s t u : State} (h : OnlyFields l s t) (k : OnlyFields l t u) : OnlyFields l s u :=
  ⟨by rw [k.rest, h.rest], fun f hf hp => (k.keep f hf hp).trans (h.keep f hf hp)⟩

theorem OnlyFields.after {l : List Fld} {s t u : State} (k : OnlyFields l t u) (h : OnlyFields l s t) : OnlyFields l s u :=
  h.trans k

theorem OnlyFields.of_delivered (l : List Fld) {s t : State} (h : Delivered s t) : OnlyFields l s t :=
  ⟨h.rest, fun f hf _ => h.keep f hf⟩

theorem writes_ne {l : List Fld} {f g : Fld} (hf : Writes l f = true) (hg : Writes l g = false) : g.key ≠ f.key := by
  intro e
  have : Writes l g = Writes l f := by simp [Writes, e]
  rw [this, hf] at hg
  cases hg

theorem OnlyFields.put {l : List Fld} (s : State) (f : Fld) (v : Nat) (h : Writes l f = true) : OnlyFields l s (s.put f v) :=
  ⟨rfl, fun _ _ hg => s.get_put_ne (writes_ne h hg) v⟩

theorem OnlyFields.flag {l : List Fld} (s : State) (f : Fld) (h : Writes l f = true) : OnlyFields l s (s.flag f) := .put s f 1 h
theorem OnlyFields.putB {l : List Fld} (s : State) (f : Fld) (b : Bool) (h : Writes l f = true) : OnlyFields l s (s.putB f b) :=
  .put s f _ h
theorem OnlyFields.bump {l : List Fld} (s : State) (f : Fld) (h : Writes l f = true) : OnlyFields l s (s.bump f) :=
  .put s f _ h
theorem OnlyFields.raise {l : List Fld} (s : State) (c src a b d e : Nat) : OnlyFields l s (s.raise c src a b d e) :=
  .of_delivered l (.raiseEv s _)

theorem OnlyFields.when {l : List Fld} {s : State} (c : Bool) {g : State → State} (h : OnlyFields l s (g s)) :
    OnlyFields l s (s.when c g) := by
  cases c
  · exact .refl l s
  · exact h

theorem OnlyFields.each {α : Type} {l : List Fld} (xs : List α) (g : α → State → State)
    (h : ∀ x ∈ xs, ∀ s, OnlyFields l s (g x s)) (s : State) : OnlyFields l s (s.each xs g) := by
  induction xs generalizing s with
  | nil => exact .refl l s
  | cons x xs ih => exact (h x List.mem_cons_self s).trans (ih (fun y hy => h y (List.mem_cons_of_mem _ hy)) _)

/-- The end of the command adds nothing to a frame. -/
theorem OnlyFields.commit {l : List Fld} {s u : State} (h : OnlyFields l s u) : OnlyFields l s u.commit :=
  h.trans (.of_delivered l (commit_delivered u))

end Sys2Proof.Machine
end

