-- ==== Sys2Proof/WellFormed.lean ====
section
/-! DEFINITION. Well-formed commands: an operand that the operand's own type does not bound lies in the range that the
spec gives it (32-bit registers in two windows of addresses, R555; interrupt sources, R475; 8-bit tags, R371). The
meanings do not depend on it: each takes any operands. -/

namespace Sys2Proof

/-- A register word. -/
def isWord (d : Nat) : Bool := decide (d < 2 ^ 32)
/-- A register address: BAR0, or BAR2 above it (R555). -/
def isAddr (a : Nat) : Bool := decide (a < 2 ^ 27)
/-- Energies of 20 domains, and of slices by number with six meters each (R514, R515). -/
def metersOk (e : Meters) : Bool :=
  e.doms.length == 20 && e.slices.all fun x => decide (x.1 < 256) && x.2.length == 6

def Instr.wf : Instr → Bool
  | .beatEdge e late _ => metersOk e && late.all fun f => decide (f < 131072)
  | .cutSettleEnd => true
  | .runDeadline late => late.all fun k => decide (k < 1088)
  | .deltaClose => true
  | .ackCutoff _ => true
  | .provisionalToggle _ => true
  | .egressGateSample => true
  | .syncTmoExpiry _ => true
  | .holdTimeExpiry _ => true
  | .startWaitExpiry _ => true
  | .beatEnable _ d => isWord d
  | .reseatRequest _ d => isWord d
  | .tqRequest _ d => isWord d
  | .freqAdjWrite _ v _ => isWord v
  | .ppsInEdge _ => true
  | .ppsOutPulse _ => true
  | .beatTimeRead _ _ => true
  | .frameRx _ _ _ _ _ => true
  | .verifyComplete _ _ => true
  | .samplePlace _ => true
  | .loftRecordWrite => true
  | .portEnable _ _ d => isWord d
  | .portUnhold _ _ d => isWord d
  | .pcsLock _ _ => true
  | .linkTrainingDone _ => true
  | .upHoldExpiry _ _ => true
  | .linkFault _ _ _ _ => true
  | .downDebExpiry _ _ => true
  | .flapHoldExpiry _ _ => true
  | .remoteFault _ _ => true
  | .lrefFault _ _ => true
  | .pllLossOfLock _ _ => true
  | .portGlbEnable _ d => isWord d
  | .laneEnable _ _ d => isWord d
  | .supervisionTx _ _ => true
  | .nodeForgetExpiry _ mac _ => decide (mac < 2 ^ 48)
  | .entryForgetExpiry _ mac _ => decide (mac < 2 ^ 48)
  | .frameTxDone _ _ _ => true
  | .gateEnable _ d => isWord d
  | .gateRead _ => true
  | .gateWrite _ => true
  | .gateInvalidate _ => true
  | .resetReplay _ => true
  | .setQuar _ => true
  | .clearQuar _ => true
  | .readStats _ => true
  | .readReplay _ => true
  | .setNext _ => true
  | .readMeta _ => true
  | .retire _ => true
  | .instanceIdleExpiry _ _ => true
  | .templateKeyPropagate => true
  | .macJobDone _ _ => true
  | .macJobTimeout _ _ => true
  | .myardEnable _ d => isWord d
  | .myardRead _ => true
  | .myardWrite _ => true
  | .myardInvalidate _ => true
  | .myardReadStats _ => true
  | .loftEnable _ d _ _ => isWord d
  | .loftInitDone _ _ => true
  | .triggerLoft _ => true
  | .releaseLoft _ _ => true
  | .readSlot _ _ => true
  | .loftExportGo _ d => isWord d
  | .loftExportComplete _ _ _ => true
  | .loftTestStep _ _ _ _ => true
  | .rv32Compute _ _ _ _ => true
  | .ebreak _ _ _ => true
  | .loadWord _ _ _ => true
  | .loadDataReturn _ _ _ _ _ => true
  | .storeWord _ _ _ => true
  | .storeDrain _ _ _ _ => true
  | .fence _ _ _ => true
  | .fenceI _ _ _ => true
  | .csrAccess _ _ _ => true
  | .qadd _ _ _ => true
  | .qsub _ _ _ => true
  | .qmul _ _ _ => true
  | .qadd16 _ _ _ => true
  | .qsub16 _ _ _ => true
  | .qmul16 _ _ _ => true
  | .qabs _ _ _ => true
  | .qneg _ _ _ => true
  | .cmac _ _ _ => true
  | .cmacj _ _ _ => true
  | .cmsu _ _ _ => true
  | .cmsuj _ _ _ => true
  | .aclr _ _ _ => true
  | .ardre _ _ _ => true
  | .ardim _ _ _ => true
  | .apk16 _ _ _ => true
  | .lsh _ _ _ => true
  | .lsw _ _ _ => true
  | .lsp _ _ _ => true
  | .doneSvc _ _ _ _ => true
  | .outputSvc _ _ _ _ => true
  | .timeSvc _ _ _ _ => true
  | .failSvc _ _ _ _ => true
  | .badService _ _ _ _ => true
  | .semaphoreAcquire _ _ _ => true
  | .semaphoreRelease _ _ _ => true
  | .handOver _ => true
  | .shedEnable _ _ d => isWord d
  | .shedInitDone _ _ => true
  | .cntClr _ _ => true
  | .semForce _ _ d => isWord d
  | .bankPwrWrite _ _ d => isWord d
  | .stallPwrWrite _ _ d => isWord d
  | .sramWakeDone _ _ _ => true
  | .groomEnable _ d => isWord d
  | .groomIaccRead _ => true
  | .groomIaccWrite _ => true
  | .groomIaccInvalidate _ => true
  | .groomFaccRead _ => true
  | .groomFaccWrite _ => true
  | .movePage _ _ => true
  | .sstatLatch _ _ => true
  | .blogLatch _ _ => true
  | .frameBuildDone _ => true
  | .gooseRepetition _ _ => true
  | .sealEnable _ d => isWord d
  | .sealRead _ => true
  | .sealWrite _ => true
  | .sealInvalidate _ => true
  | .taccDataWrite _ d => isWord d
  | .pairEnable _ d => isWord d
  | .pairHandover _ => true
  | .pairHandoverCold _ => true
  | .pairResync _ => true
  | .pairFailing _ => true
  | .helloTx _ => true
  | .heartbeatTx _ => true
  | .heartbeatMiss _ => true
  | .pairLinkLock _ _ => true
  | .helloRx _ _ => true
  | .heartbeatRx _ _ => true
  | .deltaRx _ _ => true
  | .ackRx _ _ => true
  | .outcomeRx _ _ => true
  | .digestRx _ _ => true
  | .noticeRx _ _ => true
  | .resyncRx _ _ => true
  | .failingRx _ _ => true
  | .slicesRx _ _ => true
  | .resyncFrameSend _ => true
  | .actInTransition _ => true
  | .listenTmo _ => true
  | .probeDone _ _ => true
  | .driverTest _ => true
  | .driverTestEnd _ => true
  | .tudelEnable _ d => isWord d
  | .tudelFaccRead _ => true
  | .tudelFaccWrite _ => true
  | .tudelFaccInvalidate _ => true
  | .tudelFrzGo _ d => isWord d
  | .tudelLock _ _ => true
  | .tudelTrainTmo _ _ => true
  | .tudelAloneRetry _ _ => true
  | .tudelHelloTx _ _ => true
  | .tudelHelloRx _ _ _ _ => true
  | .tudelLinkLoss _ _ _ => true
  | .sqTailDoorbell _ _ d => isWord d
  | .commandFetch _ e _ => e.all fun b => b.length == 128
  | .submit _ _ => true
  | .macJob _ _ => true
  | .pkJob _ _ => true
  | .flowInstall _ _ => true
  | .flowRemove _ _ => true
  | .flowSetNext _ _ => true
  | .flowStats _ _ => true
  | .replayReset _ _ => true
  | .itemWrite _ _ => true
  | .itemInvalidate _ _ => true
  | .keyLoad _ _ => true
  | .keyRetire _ _ => true
  | .keyMeta _ _ => true
  | .histRead _ _ => true
  | .histWrite _ _ => true
  | .programLoad _ _ => true
  | .loftFreeze _ _ => true
  | .loftExport _ _ => true
  | .loftRelease _ _ => true
  | .loftSlot _ _ => true
  | .dmaCommandDone _ _ _ _ _ => true
  | .cqHeadDoorbell _ _ d => isWord d
  | .evrHeadDoorbell _ _ d => isWord d
  | .drHeadDoorbell _ _ d => isWord d
  | .stagedDelivery _ _ _ => true
  | .sliceEnable _ _ d => isWord d
  | .freeze _ _ => true
  | .thaw _ _ => true
  | .saveSlice _ _ => true
  | .saveDone _ _ _ _ _ => true
  | .restoreSlice _ _ => true
  | .restoreDone _ _ _ _ => true
  | .sliceClearDone _ _ => true
  | .ltrSend _ => true
  | .perstAssert _ => true
  | .perstDeassert _ => true
  | .functionLevelReset _ => true
  | .hotReset _ => true
  | .d3hotEntry _ => true
  | .d0Entry _ => true
  | .pcieLinkUp _ => true
  | .guardEnable _ d => isWord d
  | .guardRaccRead _ => true
  | .guardRaccWrite _ => true
  | .guardRaccInvalidate _ => true
  | .fillTags _ colour => decide (colour < 256)
  | .tagRead _ colour => decide (colour < 256)
  | .repPop _ d => isWord d
  | .polClr _ _ d => isWord d
  | .vaultEnable _ d => isWord d
  | .vaultLoad _ => true
  | .loadPlain _ => true
  | .generate _ => true
  | .wrapOut _ => true
  | .attest _ => true
  | .slotGen _ => true
  | .slotImport _ => true
  | .slotMeta _ => true
  | .rngRead _ => true
  | .reseed _ => true
  | .certRead _ => true
  | .vaultCmdDone _ _ _ => true
  | .holdBoundExpiry _ _ => true
  | .vaultStartDone _ _ _ => true
  | .noiseHealthTest _ _ _ => true
  | .rngRetest _ _ => true
  | .drbgReseed _ _ => true
  | .rngRawRead _ _ => true
  | .pkSign _ _ _ _ _ _ => true
  | .pkVerify _ _ _ _ _ _ => true
  | .pkKeygen _ _ _ _ => true
  | .pkDerive _ _ _ _ _ _ => true
  | .pkAttest _ _ _ _ _ _ => true
  | .pkRandom _ _ _ => true
  | .pkJobTimeout _ _ => true
  | .challenge _ d => isWord d
  | .cancelChal _ d => isWord d
  | .challengeExpiry _ => true
  | .imageAccept _ _ => true
  | .keyImport _ _ _ _ => true
  | .sliceBind _ _ => true
  | .sliceUnbind _ _ => true
  | .tripSet _ _ => true
  | .lifeTransition _ _ => true
  | .tamperRearm _ _ => true
  | .ledgerClear _ _ => true
  | .custIdxWrite _ d => isWord d
  | .toBench _ => true
  | .setDigest _ _ => true
  | .dbgEnd _ => true
  | .toScrap _ => true
  | .otpTransitionDone _ _ => true
  | .scrapReset _ => true
  | .tamperOccurrence _ _ _ _ => true
  | .refclkLoss _ => true
  | .refclkRecovered _ => true
  | .invFieldRead _ a => isAddr a
  | .tampEnable _ d => isWord d
  | .grantExpiry _ => true
  | .idcode => true
  | .extest _ => true
  | .samplePreload _ _ => true
  | .clamp => true
  | .highz => true
  | .extestPulse _ => true
  | .extestTrain _ => true
  | .dbgChal => true
  | .dbgResp _ => true
  | .dbgStatus => true
  | .dbgAccess _ a d _ => isAddr a && isWord d
  | .bypass => true
  | .tapReset => true
  | .evtClaim _ => true
  | .evtEoi _ src => decide (src < 512)
  | .fwEvent _ code => isWord code
  | .softRaise _ mask => isWord mask
  | .evtEnable _ d => isWord d
  | .ldgEnable _ d => isWord d
  | .ledgerRecoveryDone _ => true
  | .ledgerProgramDone => true
  | .foldExpiry _ => true
  | .eventRingWrite _ => true
  | .ldgRdLatch _ k => isWord k
  | .ldgExportGo _ d => isWord d
  | .ldgExportDone _ => true
  | .ledgerEraseDone => true
  | .pwrEnable _ d => isWord d
  | .toleranceChange _ _ src _ => decide (src < 8)
  | .dwellExpiry _ _ => true
  | .domainEntryDone _ _ => true
  | .domainWakeDone _ _ => true
  | .ymWfi => true
  | .bankIdleExpiry _ _ _ => true
  | .tempSample _ _ _ => true
  | .meterLatchMs e _ => metersOk e
  | .smtrLatch _ n => decide (n < 256)
  | .porAssert _ _ _ => true
  | .porRelease _ _ _ _ => true
  | .wrstAssert _ => true
  | .wrstRelease _ _ _ _ => true
  | .bootOperational _ _ _ _ _ => true
  | .eraseImg _ d => isWord d
  | .imgWrite _ d => isWord d
  | .imgDigest _ d => isWord d
  | .confirm _ d => isWord d
  | .preferImg _ d => isWord d
  | .restartImg _ d => isWord d
  | .imgCmdDone _ _ _ => true
  | .confirmAutoExpiry _ => true
  | .registerWrite _ a d _ _ _ => isAddr a && isWord d
  | .lowWordRead _ a _ => isAddr a
  | .readClear _ a => isAddr a
  | .tmrScrub _ => true
  | .mtestEnable _ d => isWord d
  | .mtestStep _ _ _ _ => true
  | .ageTick _ => true
  | .ageLogExpiry _ => true
  | .pkCmdGo _ d => isWord d
  | .registerReadRefused _ a _ => isAddr a
  | .peRefclkChange _ _ => true

end Sys2Proof
end

