-- ==== Sys2Proof/Tests/Slice0.lean ====
section
/-! SUPPORT. Own tests: an ill-formed command for each check of WellFormed, worked examples of the spec's own chapters (each
test names its chapter), and for every statement with hypotheses a witness for each of its clauses: concrete states and
operands that meet the hypotheses together. -/

set_option Elab.async false

namespace Sys2Proof.Machine

/-- Reset with some register fields written. -/
def st (l : List (Fld × Nat)) : State := l.foldl (fun s e => s.put e.1 e.2) State.reset
/-- A ledger record. -/
def ldg0 : LedgerRec := ⟨0x0001, 0, 1, 0, 1, false, false, false, 186, 0, 0, 0, 0, 0, 0⟩
def ev0 : EventRec := ⟨0x0001, 1, 0, 0, 0, 0, 0, 0⟩
/-- A flow entry of chapter 3: FLAGS, GOOSE over Ethernet, any ingress, TS_TOL 10 ms, GROUP none, IDLE 1 s. -/
def fe0 (flags : Nat) : List Byte :=
  setLe (setLe (setLe (setLe (setLe (setLe [] 0 4 (0x01000100 + flags)) 4 2 0x7FFF) 34 2 0xFFFF) 38 2 10) 48 2 1) 63 1 0
/-- Reset with one flow entry. -/
def flowSt (n flags : Nat) : State := State.reset.setFlow n fun x => { x with e := fe0 flags }
/-- An item of slice 0 and flow 0, handed over to stall 0. -/
def item0 : Item := ⟨[], none, 0, 0, 3, none, false, false, some 0, 0, 0⟩
/-- Stall 0 of shed 0 runs an item of slice 0 whose next instruction word is `w`, at the start of the slice's code. -/
def stallSt (w : Nat) (g : Stall → Stall) : State :=
  ((((st [(F.GUARD_CTRL, 1), (sh F.SHED_STATUS_RUNNING 0, 1), (stl F.SHED_STALL_STATn_STATE 0, 2)]).setLoft fun x =>
      { x with hist := Memory.store 0 [] 0 (leBytes 4 w), tags := [(0, 1, 2)] }).setYard fun x => { x with tags := [(0, 1024, 2)] })).setStall 0
    fun x => g { x with
      item := some item0, regions := regionBytes 0x10000000 0x1000FFFF 2 1 :: State.reset.stallSet 0, tags := [(0, 1024, 2)],
      core := { x.core with pc := 0x20000000 } }
/-- The state after stall 0 has fetched. -/
def fetched0 (s : State) : State := ((s.elapse 0).fetch 0).1
/-- Stall 0 with registers set. -/
def regsSt (w : Nat) (l : List (Nat × Word)) : State :=
  stallSt w fun x => { x with core := l.foldl (fun c r => c.wx r.1 r.2) x.core }
/-- A submission entry: opcode, FLAGS, CMD_ID 7, the arguments and 64 bytes of body (R347). -/
def sq0 (op : Nat) (args : List Nat) (body : List Byte) : List Byte :=
  let e := leBytes 1 op ++ leBytes 1 0 ++ leBytes 2 7 ++ leBytes 4 0 ++ (args.flatMap (leBytes 8))
  let e := e ++ List.replicate (32 - e.length) 0 ++ body
  e ++ List.replicate (128 - e.length) 0
/-- An HRS PDU (R116): one synchronised instant of one 16-bit channel at 4,000 per second, with a tag trailer of key ID 5. -/
def hrsPdu (pos sec idx : Nat) : List Byte :=
  beBytes 1 1 ++ beBytes 1 1 ++ beBytes 2 48 ++ beBytes 4 1 ++ beBytes 8 pos ++ beBytes 6 sec ++ beBytes 2 0 ++ beBytes 4 idx
    ++ beBytes 4 4000 ++ beBytes 1 1 ++ beBytes 1 1 ++ beBytes 2 1 ++ beBytes 2 2 ++ beBytes 10 0 ++ beBytes 2 0x0102
    ++ beBytes 4 5 ++ beBytes 1 1 ++ beBytes 1 10 ++ List.replicate 36 0
/-- The frame that carries it, to a group address. -/
def hrsFrame : List Byte :=
  beBytes 6 0x010000000000 ++ beBytes 6 7 ++ beBytes 2 (State.reset.get F.PORT_GLB_ETYPE_HRS_ETYPE) ++ hrsPdu 9 0 0
/-- The flow entry that takes it: kind HRS, algorithm 1, group 3. -/
def feHrs : List Byte :=
  setLe (setLe (setLe (setLe (setLe (setLe (fe0 1) 1 1 3) 3 1 1) 6 2 0x0FFF) 8 4 1) 16 1 0) 34 2 3
/-- The flow entry with the sender's address as SOURCE. -/
def feHrsSrc : List Byte := feHrs.take 16 ++ pad16 (beBytes 6 7) ++ feHrs.drop 32
def rxHrs (pos sec idx : Nat) : RxFrame := ⟨95, 0, 3, 0, 1, 1, pad16 (beBytes 6 7), 7, none, hrsPdu pos sec idx⟩
def secHrs (tag : List Byte) : Sec := ⟨5, 1, 0, [], tag, 10, [], false⟩
/-- A frame between stages 5 and 6 with check value `tag`. -/
def inHrs (tag : List Byte) : Inflight := ⟨0, rxHrs 9 0 0, 65535, feHrsSrc, secHrs tag, 0, []⟩
/-- A waiting frame of flow 65535 for group 3, verified in beat `b`. -/
def hoHrs (sec b : Nat) : Handover := ⟨rxHrs 9 sec 0, 65535, feHrsSrc, b, 1, false, true, some 1023, []⟩
/-- A state whose yard holds group 3 of kind HRS with one member and an open window `k`, and a waiting frame. -/
def yardSt (h : Handover) (k : Nat) : State :=
  ((st [(F.MYARD_CTRL, 1)]).setGroup 3 fun x =>
    { x with e := geDerive State.reset.rate (setLe (setLe (setLe (setLe (setLe (setLe [] 0 1 1) 1 1 1) 4 4 4000) 8 2 1024) 12 1 1) 13 1 1),
             members := [⟨1023, 65535, none⟩], wins := [⟨k, false⟩] }).setYard fun x => { x with queue := [h] }
/-- An item of flow 131071 with TRIP capacity, ready while dispatch is open and stall 1023 (stall 15 of shed 67) is idle. -/
def itemT : Item := ⟨setLe [] 4 4 131071, none, 5, 0, 1, none, false, false, none, 0, 0⟩
def handSt : State :=
  { st [(F.GROOM_CTRL, 1), (F.PAIR_STATUS_STATE, 5), (sh F.SHED_CTRL_EN 67, 1), (sh F.SHED_STATUS_RUNNING 67, 1),
        (fixRst (sh F.SHED_CFG 67), 63), (sh F.SHED_STALL_OK 67, 0x8000), ((sh F.SHED_STALL_STATn_STATE 67).idx 15, 1)] with
    bt := { State.reset.bt with running := true, dispatchOpen := true, next := 1 }
    groom := { State.reset.groom with ready := [itemT], flows := [(131071, { FlowRec.empty with pageValid := true, pos := 63 })] } }
def satCore : Core := { Core.zero with dflags := 1 }
/-- Slice `n` is bound with its queues open in D0, and has fetched the entry `e`. -/
def slSt (n : Nat) (e : List Byte) : State :=
  ((st [(sl F.SLICE_STATUS_STATE n, 1), (sl F.SLICE_CTRL_EN n, 1), (sl F.SLICE_SQ_SIZE n, 4), (sl F.SLICE_CQ_SIZE n, 4),
        (sl F.SLICE_DR_SIZE n, 16), (sl F.SLICE_EVR_SIZE n, 4)]).setHost fun x => { x with fn := .d0 }).setSlice n
    fun x => { x with fetched := [e] }
/-- The entry of flow 131071, owned by slice 255 and keyed from its key cache. -/
def fe255 : List Byte := setLe (setLe (setLe (setLe (fe0 1) 1 1 1) 2 1 255) 3 1 1) 40 2 65535
/-- An item descriptor of slice 255 for that flow. -/
def desc0 (trigger period : Nat) : List Byte :=
  setLe (setLe (setLe (setLe (setLe (setLe (setLe (setLe (setLe (setLe [] 0 1 1) 1 1 1) 2 1 trigger) 3 1 255) 4 4 131071) 8 2 0xFFFF)
    10 2 period) 16 4 0x20000000) 20 4 1) 24 4 0xFFFFFFFF
/-- That slice with that flow and a state page length for it. -/
def slFlow (n : Nat) (e : List Byte) : State :=
  ((slSt n e).setFlow 131071 fun x => { x with e := fe255 }).setFlowRec 131071 fun r => { r with len := 1 }
/-- A publication with algorithm 4 and key 65535, and a frame of it that waits to be built. -/
def frame0 : SFrame := ⟨8191, 8, 0, 0, [1, 2], 0, 0, 0, 0, 0, false, false, 0, [], [], false⟩
def sealFs (keySt : Nat) : State :=
  { (st [(F.SEAL_CTRL, 1)]).setKey 65535 fun x => { x with st := keySt, usage := 8, alg := 4 } with
    sealSt := { State.reset.sealSt with
      pubs := [(8191, setLe (setLe [] 14 1 4) 12 2 65535)], frames := [frame0], reps := [(8191, ⟨frame0, 0, 0, 0⟩)] } }
/-- A slot record of a migration key, and a state in which slice 255 saves with it. -/
def migRec : List Byte := setLe (setLe (List.replicate 80 0) 2 1 1) 3 1 3
def migSt : State :=
  { (st [(sl F.SLICE_STATUS_STATE 255, 4)]).setSlice 255 fun x => { x with inProg := [⟨0x103, 0, false, 0, 0, 0, [], 0⟩] } with
    vault := { State.reset.vault with root := some (List.replicate 32 0), slots := [(0, ⟨migRec, false⟩)] } }
/-- MAC job of slice 255 with its key 255, and a state in which it waits. -/
def macJob0 (op : Nat) : MacJob := ⟨255, 7, false, setLe (setLe (setLe (setLe [] 0 1 op) 1 1 255) 2 1 (if op ≤ 2 then 16 else 10)) 4 4 9216, 0, true⟩
def macSt (op : Nat) : State :=
  ((slSt 255 []).setKey 65535 fun x => { x with st := 1, alg := if op ≤ 2 then 5 else 1, usage := 6 }).setGate
    fun x => { x with jobs := [macJob0 op] }
/-- A public-key job of slice 255, and a state in which engine 7 runs it. -/
def pkJob0 (op alg inLen outLen : Nat) : PkJob :=
  ⟨some 255, 7, setLe (setLe (setLe (setLe [] 0 1 op) 1 1 alg) 24 4 inLen) 56 4 outLen, 0⟩
def pkSt (j : PkJob) : State :=
  (slSt 255 []).setVault fun v => { v with root := some (List.replicate 32 0), engines := [(7, ⟨some (j, 0), 0, none⟩)] }
/-- A vault command of the yardmaster in service, in a FIELD device. -/
def vcSt (op en : Nat) : State :=
  (st [(F.VAULT_CTRL, en), (F.LIFE_STATE_STATE, 2)]).setVault fun v =>
    { v with root := some (List.replicate 32 0), cur := some ⟨.ym, op, setLe (setLe [] 0 1 op) 16 4 1, some 0⟩ }
/-- An envelope for TAMPER_REARM with one challenge of 32 bytes 0. -/
def env0 : List Byte :=
  beBytes 2 0x0100 ++ beBytes 1 7 ++ beBytes 1 1 ++ leBytes 4 16 ++ List.replicate 104 0 ++ List.replicate 104 0 ++ beBytes 1 1
    ++ List.replicate 103 0
def envSt : State :=
  (st [(F.VAULT_CTRL, 1), (F.LIFE_STATE_STATE, 2), (F.VAULT_PK_STATUS_ENG_OK, 0x80)]).setVault fun v =>
    { v with envelope := some (0, env0.length, false, 0), chals := [(List.replicate 32 0, 0)] }
/-- A pair frame (R283) of a type with FLAGS, beat 0 and a payload; what it says; and the state that has accepted it. -/
def pf (typ flags : Nat) (pay : List Byte) : List Byte :=
  let h := beBytes 1 typ ++ beBytes 1 flags ++ beBytes 2 pay.length ++ beBytes 4 0 ++ beBytes 8 0 ++ pay
  h ++ beBytes 4 (crc32c h)
def pfOf (bs : List Byte) : PFrame := ⟨beAt bs 1 1, beAt bs 8 8, (bs.take (bs.length - 4)).drop 16⟩
def rcv (s : State) (bs : List Byte) : State :=
  (s.elapse 0).setPair fun x => { x with lastRx := s.clk + 0, lost := none, rxSeq := some (beAt bs 4 4) }
/-- A device in a role with the pair link up. -/
def roleSt (role : Nat) : State := st [(F.PAIR_STATUS_STATE, role), (F.PAIR_STATUS_LINK_UP, 1)]
/-- HELLO: strap, state and PREFER of the sender. -/
def hello0 (strap role prefer : Nat) : List Byte :=
  beBytes 2 7 ++ beBytes 1 strap ++ beBytes 1 role ++ beBytes 5 0 ++ beBytes 1 prefer ++ List.replicate 54 0
/-- HEARTBEAT at `ns`. -/
def beat0 (ns : Nat) : List Byte := beBytes 6 0 ++ beBytes 4 ns ++ beBytes 6 0
/-- An empty delta of beat 0: BEGIN and END. -/
def begin0 : List Byte := beBytes 1 0x10 ++ List.replicate 31 0
def delta0 : List Byte := begin0 ++ beBytes 1 0x1F ++ beBytes 3 0 ++ beBytes 4 2 ++ beBytes 8 0 ++ beBytes 8 (crc64 begin0) ++ beBytes 40 0
/-- A run beat whose dispatch is open, with an item on stall 1087. -/
def busySt (role : Nat) (g : BeatSt → BeatSt) : State :=
  { st [(F.PAIR_STATUS_STATE, role)] with
    bt := g { State.reset.bt with running := true, dispatchOpen := true }
    pool := { State.reset.pool with stalls := [(1087, { Stall.init with item := some item0 })] } }
/-- A stall that asks for OUTPUT of the last 16 bytes of U scratch. -/
def outSt : State := fetched0 (regsSt 0x00000073 [(17, 1), (10, 0xEEF0), (11, 16)])

/-! Ill-formed commands, one for each check of WellFormed, and a well-formed one beside each. -/

def meters0 : Meters := ⟨List.replicate 20 0, 0, 0, [(255, [0, 0, 0, 0, 0, 0])]⟩
theorem test_wf_word : (Instr.beatEnable .host 0xFFFFFFFF).wf = true ∧ (Instr.beatEnable .host 0x100000000).wf = false := by
  decide
theorem test_wf_addr : (Instr.lowWordRead .host 0x7FFFFFF 0).wf = true ∧ (Instr.lowWordRead .host 0x8000000 0).wf = false := by
  decide
theorem test_wf_write_word : (Instr.registerWrite .host 0 0x100000000 4 true true).wf = false := by decide
theorem test_wf_debug : (Instr.dbgAccess true 0x8000000 0 true).wf = false := by decide
theorem test_wf_evtEoi : (Instr.evtEoi .host 511).wf = true ∧ (Instr.evtEoi .host 512).wf = false := by decide
theorem test_wf_tolerance : (Instr.toleranceChange 0 false 7 0).wf = true ∧ (Instr.toleranceChange 0 false 8 0).wf = false := by
  decide
theorem test_wf_colour : (Instr.fillTags .host 255).wf = true ∧ (Instr.fillTags .host 256).wf = false := by decide
theorem test_wf_tagRead : (Instr.tagRead .host 256).wf = false := by decide
theorem test_wf_smtr : (Instr.smtrLatch .host 255).wf = true ∧ (Instr.smtrLatch .host 256).wf = false := by decide
theorem test_wf_mac : (Instr.nodeForgetExpiry 0 (2 ^ 48) 0).wf = false ∧ (Instr.entryForgetExpiry 0 (2 ^ 48) 0).wf = false := by
  decide
theorem test_wf_entry : (Instr.commandFetch 0 (some (List.replicate 128 0)) 0).wf = true
    ∧ (Instr.commandFetch 0 (some (List.replicate 127 0)) 0).wf = false := by decide +kernel
theorem test_wf_meters : (Instr.meterLatchMs meters0 0).wf = true
    ∧ (Instr.meterLatchMs { meters0 with doms := [] } 0).wf = false
    ∧ (Instr.meterLatchMs { meters0 with slices := [(256, [0, 0, 0, 0, 0, 0])] } 0).wf = false
    ∧ (Instr.meterLatchMs { meters0 with slices := [(0, [0])] } 0).wf = false := by decide
theorem test_wf_edge : (Instr.beatEdge meters0 [131071] true).wf = true ∧ (Instr.beatEdge meters0 [131072] true).wf = false
    ∧ (Instr.runDeadline [1087]).wf = true ∧ (Instr.runDeadline [1088]).wf = false := by decide

/-! Worked examples of the spec. -/

/-- The edge times of chapter 1's examples (01_beat.md). -/
theorem test_edge_times : edgeNs 48000 81600000019792 = 1700000000412333333 ∧ edgeNs 48000 81600000019793 = 1700000000412354166
    ∧ edgeNs 48000 81600000156001 = 1700000003250020833 := by decide
/-- The slab sizes of the two groups of chapter 4's examples: sizes, presence, status and data offsets, ring (04_marshalling_yard.md). -/
theorem test_derive_4800 :
    let e := geDerive 4800 (setLe (setLe (setLe (setLe [] 4 4 4800) 8 2 8) 12 1 8) 2 1 1)
    [geSize e, presOfs e, statOfs e, dataOfs e, ringBytes e] = [768, 128, 192, 256, 2304] := by decide
theorem test_derive_48000 :
    let e := geDerive 48000 (setLe (setLe (setLe (setLe (setLe (setLe [] 1 1 1) 4 4 2000000) 8 2 64) 12 1 16) 13 1 1) 2 1 1)
    [geSize e, ringBytes e] = [87360, 262080] := by decide
/-- Which window an instant falls in (04_marshalling_yard.md). -/
theorem test_windows : windowOf 4800 250000000 = 1200
    ∧ [80, 83, 84, 121].map (fun i => windowOf 48000 (gridTime 2000000 i)) = [1, 1, 2, 2]
    ∧ [1, 2, 3].map (gridOfEdge 48000 2000000) = [42, 84, 125] := by decide
/-- The low word of CMAC and of the example load of chapter 6 (06_stalls_sheds.md). -/
theorem test_decode : decode32 0x00B5108B = .c .cmac 1 10 11 ∧ decode32 0x018613AB = .l .lsw 7 12 0x18 := by decide
/-- Wrapped length of a 16-byte key (13_vault_keys_rng.md). -/
theorem test_wrap_len : wrapLenOf 16 = 56 := by decide
/-- One hour at 87 °C counts 0.342 h, at 105 °C 1 h, in units of 1/256 h (21_service_life.md). -/
theorem test_age : ageAdvance (87 * 4) 1 = 87 ∧ ageAdvance (105 * 4) 1 = 256 := by decide

/-- Two readers of one counter (19_registers.md): each keeps the high word of its own low-word read. -/
def run (s : State) (c : State → Res) : State := match c s with | .next t => t | _ => s
def cs0 : State := st [(F.GATE_CNT_ACCEPT, 0x2FFFFFFF0)]
theorem test_shadow_host : (run cs0 (execLowWordRead .host 0x400100 0)).rdata = 0xFFFFFFF0
    ∧ (run (run cs0 (execLowWordRead .host 0x400100 0)) (execLowWordRead .host 0x400104 0)).rdata = 2 := by decide
/-- The same read after the counter has wrapped into its high word keeps the host's shadow and gives the yardmaster its own. -/
def cs1 : State := (run cs0 (execLowWordRead .host 0x400100 0)).put F.GATE_CNT_ACCEPT 0x300000005
theorem test_shadow_two : (run cs1 (execLowWordRead .yardmaster 0x400100 0)).rdata = 5
    ∧ (run (run cs1 (execLowWordRead .yardmaster 0x400100 0)) (execLowWordRead .host 0x400104 0)).rdata = 2
    ∧ (run (run cs1 (execLowWordRead .yardmaster 0x400100 0)) (execLowWordRead .yardmaster 0x400104 0)).rdata = 3 := by decide

/-! A transition on ACT_IN_N inside and outside the window of R290, as an active device. -/

theorem wit_actIn_inside : ∃ (s : State) (dt : Nat), s.role = 4 ∧ s.bt.running = true ∧ s.cutoffNs - 60 ≤ (s.elapse dt).nowNs
    ∧ (s.elapse dt).nowNs ≤ s.cutoffNs + 230 := by
  refine ⟨{ roleSt 4 with bt := { State.reset.bt with running := true, next := 1 } }, 20583, ?_⟩
  decide
theorem wit_actIn_outside : ∃ (s : State) (dt : Nat), s.role = 4 ∧ ¬(s.bt.running = true
      ∧ s.cutoffNs - 60 ≤ (s.elapse dt).nowNs
    ∧ (s.elapse dt).nowNs ≤ s.cutoffNs + 230) := ⟨roleSt 4, 0, by decide⟩

/-! For each statement that has hypotheses, states and operands that meet all of them, clause by clause. -/

theorem wit_StepKeepsSettled : ∃ s t : State, s.Settled ∧ step s = .next t :=
  ⟨State.reset, State.reset, ⟨by decide +kernel, by decide +kernel, by decide +kernel, by decide +kernel, by decide +kernel⟩,
      rfl⟩

theorem wit_InterruptStack :
    (∃ (m : Master) (s : State) (i : Nat), m ≠ .debug ∧ s.winner = some i)
    ∧ (∃ (m : Master) (s : State), m ≠ .debug ∧ s.winner = none)
    ∧ (∃ (m : Master) (s : State) (i p : Nat) (rest : List (Nat × Nat)), Reaches s m 0xE00014 ∧ s.evt.stack = (i, p) :: rest
        ∧ i < 512)
    ∧ (∃ (m : Master) (s : State) (src : Nat), Reaches s m 0xE00014 ∧ s.evt.stack.head?.map (·.1) ≠ some (src % 512))
    ∧ (∃ (m : Master) (s : State) (code : Nat), Reaches s m 0xE0001C ∧ 0xF800 ≤ code ∧ code < 2 ^ 16)
    ∧ (∃ (m : Master) (s : State) (mask i : Nat), Reaches s m 0xE00030 ∧ i < 32 ∧ bitOf mask i = true) :=
  ⟨⟨.yardmaster, (st [(F.EVT_CTRL_EN, 1), (F.EVT_SRCn_CFG_EN.idx 100, 1), (F.EVT_SRCn_CFG_PRIO.idx 100, 3)]).setPending 100,
      100, (by decide +kernel), (by decide +kernel)⟩,
   ⟨.yardmaster, State.reset, (by decide +kernel), (by decide +kernel)⟩,
   ⟨.yardmaster, { State.reset with evt := { State.reset.evt with stack := [(511, 15), (3, 1)] } }, 511, 15, [(3, 1)],
       (by unfold Reaches; decide +kernel), (by decide +kernel), (by decide +kernel)⟩,
   ⟨.yardmaster, State.reset, 0, (by unfold Reaches; decide +kernel), (by decide +kernel)⟩,
   ⟨.yardmaster, State.reset, 0xFFFF, (by unfold Reaches; decide +kernel), (by decide +kernel), (by decide +kernel)⟩,
   ⟨.yardmaster, State.reset, 0x80000000, 31, (by unfold Reaches; decide +kernel), (by decide +kernel), (by decide +kernel)⟩⟩

theorem wit_EventAndLedgerEnables :
    (∃ (m : Master) (s : State) (d : Nat), Reaches s m 0xE00000 ∧ bitOf d 0 = true ∧ s.hostvecOk = true)
    ∧ (∃ (m : Master) (s : State) (d : Nat), Reaches s m 0xE00000 ∧ bitOf d 1 = true ∧ s.bit F.EVT_CTRL_LDG_EN = false) :=
  ⟨⟨.yardmaster, State.reset, 1, (by unfold Reaches; decide +kernel), (by decide +kernel), (by decide +kernel)⟩,
   ⟨.yardmaster, State.reset, 2, (by unfold Reaches; decide +kernel), (by decide +kernel), (by decide +kernel)⟩⟩

theorem wit_LedgerEngine :
    (∃ (s : State) (r : LedgerRec) (rest : List LedgerRec), s.ledgerRuns = true ∧ s.evt.buf = r :: rest
        ∧ s.get F.LDG_NEXT + 2 < ledgerSlots ∧ s.evt.dropped = 0 ∧ ∃ a,
        (a < slotAddr (s.get F.LDG_NEXT) ∨ slotAddr (s.get F.LDG_NEXT) + 64 ≤ a))
    ∧ (∃ (s : State) (agree : Bool), s.bit F.EVT_STATUS_RECOVER_BUSY = true ∧ s.bit F.EVT_STATUS_CLEARING = false
        ∧ s.searchErased 21 0 ledgerSlots = 0)
    ∧ (∃ (m : Master) (s : State) (k i : Nat), Reaches s m 0xE00110 ∧ k < 2 ^ 21 ∧ i < 16)
    ∧ (∃ (m : Master) (s : State) (d : Nat), Reaches s m 0xE00160 ∧ s.bit F.LDG_EXP_CMD_BUSY = false ∧ bitOf d 4 = true
        ∧ s.flashOk = true)
    ∧ (∃ s : State, s.bit F.LDG_EXP_CMD_BUSY = true)
    ∧ (∃ (s : State) (p : Nat), s.bit F.EVT_STATUS_CLEARING = true ∧ s.flashOk = true ∧ s.bit F.EVT_CTRL_LDG_EN = true
        ∧ s.get F.LDG_CLR_POS = p ∧ p ≠ 0) :=
  ⟨⟨{ st [(F.EVT_CTRL_LDG_EN, 1), (F.LDG_NEXT, 1048573)] with evt := { State.reset.evt with buf := [ldg0] } }, ldg0, [],
      (by decide +kernel), (by decide +kernel), (by decide +kernel), (by decide +kernel), 0, (by decide +kernel)⟩,
   ⟨st [(F.EVT_STATUS_RECOVER_BUSY, 1)], false, (by decide +kernel), (by decide +kernel), (by decide +kernel)⟩,
   ⟨.yardmaster, State.reset, 0, 15, (by unfold Reaches; decide +kernel), (by decide +kernel), (by decide +kernel)⟩,
   ⟨.yardmaster, State.reset, 16, (by unfold Reaches; decide +kernel), (by decide +kernel), (by decide +kernel),
       (by decide +kernel)⟩,
   ⟨st [(F.LDG_EXP_CMD_BUSY, 1)], (by decide +kernel)⟩,
   ⟨st [(F.EVT_STATUS_CLEARING, 1), (F.EVT_CTRL_LDG_EN, 1), (F.LDG_CLR_POS, 1)], 1, (by decide +kernel), (by decide +kernel),
       (by decide +kernel), (by decide +kernel), (by decide +kernel)⟩⟩

theorem wit_RecordsClose :
    (∃ (s : State) (dt t0 : Nat) (r : LedgerRec), s.evt.openRec = some (r, t0) ∧ s.get F.LDG_CFG * 1000000 + t0 ≤ s.clk + dt
        ∧ s.evt.buf.length < ledgerBufMax ∧ s.Calm)
    ∧ (∃ (s : State) (dt : Nat), (∀ r t0, s.evt.openRec = some (r, t0) → s.clk + dt < s.get F.LDG_CFG * 1000000 + t0)
        ∧ s.Calm)
    ∧ (∃ (s : State) (n : Fin 256) (e : EventRec) (es : List EventRec), (s.slice n).evStage = e :: es ∧ s.evRoom n = true
        ∧ s.Calm ∧ es = [])
    ∧ (∃ (s : State) (n : Fin 256), ((s.slice n).evStage = [] ∨ s.evRoom n = false) ∧ s.Calm
        ∧ s.get (sl F.SLICE_STATUS_STATE n) ≠ 2) :=
  ⟨⟨{ State.reset with evt := { State.reset.evt with openRec := some (ldg0, 0) } }, 10000000000, 0, ldg0,
      (by decide +kernel), (by decide +kernel), (by decide +kernel), (by unfold State.Calm; decide +kernel)⟩,
   ⟨State.reset, 0, (fun r t0 h => by change (none : Option (LedgerRec × Nat)) = _ at h; cases h),
       (by unfold State.Calm; decide +kernel)⟩,
   ⟨((st [(sl F.SLICE_STATUS_STATE 0, 1), (sl F.SLICE_CTRL_EN 0, 1), (sl F.SLICE_EVR_SIZE 0,
       4)]).setSlice 0 fun x => { x with evStage := [ev0] }).setHost fun x => { x with fn := .d0 }, 0, ev0, [],
       (by decide +kernel), (by decide +kernel), (by unfold State.Calm; decide +kernel), (by decide +kernel)⟩,
   ⟨State.reset, 0, (by decide +kernel), (by unfold State.Calm; decide +kernel), (by decide +kernel)⟩⟩

theorem wit_BeatControlWrites :
    (∃ (m : Master) (s : State) (d : Nat), Reaches s m 0x100000 ∧ s.bit F.BEAT_CTRL_EN = false ∧ bitOf d 0 = true
        ∧ s.beatCfgOk = true)
    ∧ (∃ (m : Master) (s : State) (d : Nat), Reaches s m 0x100000 ∧ s.bit F.BEAT_CTRL_EN = false ∧ bitOf d 0 = true
        ∧ bitOf d 2 = false ∧ s.beatCfgOk = false)
    ∧ (∃ (m : Master) (s : State) (d : Nat), Reaches s m 0x100000 ∧ bitOf d 0 = false)
    ∧ (∃ (m : Master) (s : State) (d : Nat), Reaches s m 0x100000 ∧ s.bit F.BEAT_CTRL_EN = true
        ∧ s.bit F.BEAT_CTRL_RESEAT = false ∧ bitOf d 0 = true ∧ bitOf d 2 = true)
    ∧ (∃ (m : Master) (s : State) (d : Nat), Reaches s m 0x10001C ∧ bitsOf d 4 3 ≠ 0)
    ∧ (∃ (m : Master) (s : State) (v dt : Nat), Reaches s m 0x100040 ∧ (toSigned 32 v < -51200000 ∨ 51200000 < toSigned 32 v))
    ∧ (∃ (s : State) (b q : Nat), s.bt.reqPend = some q ∧ s.bt.reseatPend = none ∧ s.tq ≠ 4 ∧ let allowed : Prop := s.tq = 1 ∧ q = 2 ∨ s.tq = 2 ∧ (q = 1 ∨ q = 3) ∨ s.tq = 3 ∧ q = 1; allowed)
    ∧ (∃ (s : State) (b q : Nat), s.bt.reqPend = some q ∧ s.bt.reseatPend = none ∧ s.tq ≠ 4 ∧ let allowed : Prop := s.tq = 1 ∧ q = 2 ∨ s.tq = 2 ∧ (q = 1 ∨ q = 3) ∨ s.tq = 3 ∧ q = 1; ¬allowed)
    ∧ (∃ (s : State) (b : Nat) (o : Int), s.bt.reseatPend = some o ∧ let tgt := s.get F.BEAT_TQ_RESEAT_TGT; let allowed : Prop := s.tq = 0 ∧ tgt = 1 ∨ (s.tq = 1 ∨ s.tq = 2 ∨ s.tq = 3) ∧ (tgt = 1 ∨ tgt = 3); allowed)
    ∧ (∃ (s : State) (b : Nat) (o : Int), s.bt.reseatPend = some o ∧ let tgt := s.get F.BEAT_TQ_RESEAT_TGT; let allowed : Prop := s.tq = 0 ∧ tgt = 1 ∨ (s.tq = 1 ∨ s.tq = 2 ∨ s.tq = 3) ∧ (tgt = 1 ∨ tgt = 3); ¬allowed ∧ s.bt.reqPend = none ∧ s.timerMove = .stay) :=
  ⟨⟨.yardmaster, State.reset, 1, (by unfold Reaches; decide +kernel), (by decide +kernel), (by decide +kernel),
      (by decide +kernel)⟩,
   ⟨.yardmaster, st [(F.BEAT_HOLD_CFG_SYNC_TMO, 0)], 1, (by unfold Reaches; decide +kernel), (by decide +kernel),
       (by decide +kernel), (by decide +kernel), (by decide +kernel)⟩,
   ⟨.yardmaster, State.reset, 0, (by unfold Reaches; decide +kernel), (by decide +kernel)⟩,
   ⟨.yardmaster, st [(F.BEAT_CTRL_EN, 1)], 5, (by unfold Reaches; decide +kernel), (by decide +kernel), (by decide +kernel),
       (by decide +kernel), (by decide +kernel)⟩,
   ⟨.yardmaster, State.reset, 0x10, (by unfold Reaches; decide +kernel), (by decide +kernel)⟩,
   ⟨.yardmaster, State.reset, 0x80000000, 0, (by unfold Reaches; decide +kernel), (by decide +kernel)⟩,
   ⟨(st [(F.BEAT_TQ_TQ, 2)]).setBt fun x => { x with reqPend := some 3 }, 5, 3, (by decide +kernel), (by decide +kernel),
       (by decide +kernel), (by decide +kernel)⟩,
   ⟨(st [(F.BEAT_TQ_TQ, 3)]).setBt fun x => { x with reqPend := some 2 }, 5, 2, (by decide +kernel), (by decide +kernel),
       (by decide +kernel), (by decide +kernel)⟩,
   ⟨(st [(F.BEAT_TQ_TQ, 1), (F.BEAT_TQ_RESEAT_TGT, 3)]).setBt fun x => { x with reqPend := some 2, reseatPend := some 7 }, 5,
       7, (by decide +kernel), (by decide +kernel)⟩,
   ⟨(st [(F.BEAT_TQ_TQ, 1), (F.BEAT_TQ_RESEAT_TGT, 2), (F.BEAT_CTRL_RESEAT,
       1)]).setBt fun x => { x with reseatPend := some 7 }, 5, 7, (by decide +kernel), (by decide +kernel),
       (by decide +kernel), (by decide +kernel)⟩⟩

theorem wit_BeatTimersAndPps :
    (∃ (s : State) (dt : Nat), s.tq = 1 ∧ s.bit F.BEAT_CTRL_EN = true
        ∧ s.bt.syncAt + s.get F.BEAT_HOLD_CFG_SYNC_TMO * 1000000000 ≤ s.clk + dt)
    ∧ (∃ (s : State) (dt : Nat), s.tq = 2 ∧ s.bit F.BEAT_CTRL_EN = true
        ∧ s.bt.holdAt + s.get F.BEAT_HOLD_CFG_HOLD_TIME * 1000000000 ≤ s.clk + dt)
    ∧ (∃ (s : State) (dt : Nat), s.tq = 0 ∧ s.bit F.BEAT_CTRL_EN = true ∧ s.bit F.BEAT_CFG_FREE_START = true
        ∧ s.bt.startAt + s.get F.BEAT_HOLD_CFG_START_WAIT * 1000000000 ≤ s.clk + dt)
    ∧ (∃ (s : State) (dt : Nat), s.bit F.BEAT_CTRL_PPS_OUT_EN = true ∧ s.tq ≠ 0 ∧ (s.elapse dt).wholeSecond = true
        ∧ (s.elapse dt).ppsOut = false ∧ ∃ d, d < 1000000)
    ∧ (∃ (s : State) (dt : Nat), s.bit F.BEAT_CTRL_PPS_OUT_EN = true ∧ s.tq ≠ 0 ∧ (s.elapse dt).wholeSecond = true
        ∧ (s.elapse dt).ppsOut = false ∧ ∃ d, 1000000 ≤ d)
    ∧ (∃ (s : State) (dt : Nat), (s.bit F.BEAT_CTRL_PPS_OUT_EN = false ∨ s.tq = 0 ∨ (s.elapse dt).wholeSecond = false))
    ∧ (∃ (m : Master) (s : State) (dt : Nat), ReadReaches s m 0x100030) :=
  ⟨⟨st [(F.BEAT_TQ_TQ, 1), (F.BEAT_CTRL_EN, 1)], 65535000000000, (by decide +kernel), (by decide +kernel),
      (by decide +kernel)⟩,
   ⟨st [(F.BEAT_TQ_TQ, 2), (F.BEAT_CTRL_EN, 1)], 65535000000000, (by decide +kernel), (by decide +kernel),
       (by decide +kernel)⟩,
   ⟨st [(F.BEAT_TQ_TQ, 0), (F.BEAT_CTRL_EN, 1), (F.BEAT_CFG_FREE_START, 1)], 65535000000000, (by decide +kernel),
       (by decide +kernel), (by decide +kernel), (by decide +kernel)⟩,
   ⟨st [(F.BEAT_CTRL_PPS_OUT_EN, 1), (F.BEAT_TQ_TQ, 1)], 0, (by decide +kernel), (by decide +kernel), (by decide +kernel),
       (by decide +kernel), 999999, (by decide +kernel)⟩,
   ⟨st [(F.BEAT_CTRL_PPS_OUT_EN, 1), (F.BEAT_TQ_TQ, 1)], 0, (by decide +kernel), (by decide +kernel), (by decide +kernel),
       (by decide +kernel), 1000000, (by decide +kernel)⟩,
   ⟨State.reset, 0, (by decide +kernel)⟩,
   ⟨.yardmaster, State.reset, 0, (by unfold ReadReaches; decide +kernel)⟩⟩

theorem wit_PowerTargets :
    (∃ (m : Master) (s : State) (d : Nat), Reaches s m 0xF00000 ∧ bitOf d 0 = true ∧ s.bit F.PWR_CTRL = false ∧ (∀ i, i < 20
        → s.get (domFloor (i + 1)) ≤ domLowest (i + 1)) ∧ s.get F.PWR_POLICY_BANK_IDLE ≠ 0)
    ∧ (∃ (m : Master) (s : State) (d i : Nat), Reaches s m 0xF00000 ∧ bitOf d 0 = true ∧ s.bit F.PWR_CTRL = false ∧ i < 20
        ∧ domLowest (i + 1) < s.get (domFloor (i + 1)))
    ∧ (∃ (s : State) (d : Fin 20) (l1 : Bool) (src dt : Nat), let u := (s.elapse dt).setPwr fun x => { x with linkL1 := l1 }; u.target (d + 1) < s.domState (d + 1))
    ∧ (∃ (s : State) (d : Fin 20) (l1 : Bool) (src dt : Nat), let u := (s.elapse dt).setPwr fun x => { x with linkL1 := l1 }; s.domState (d + 1) < u.target (d + 1) ∧ s.vaultHeld (d + 1) = false ∧ (s.dom (d + 1)).dwellAt = none ∧ (s.dom (d + 1)).entering = none)
    ∧ (∃ (s : State) (d : Fin 20) (dt t0 : Nat), (s.dom (d + 1)).dwellAt = some t0
        ∧ t0 + s.get F.PWR_POLICY_DWELL * 1000 ≤ s.clk + dt ∧ s.domState (d + 1) < (s.elapse dt).target (d + 1)
        ∧ s.vaultHeld (d + 1) = false)
    ∧ (∃ (s : State) (d : Fin 19) (st dt : Nat), (s.dom (d + 1)).entering = some st ∧ st < 3)
    ∧ (∃ (s : State) (dt : Nat), (s.dom 13).entering = some 3)
    ∧ (∃ (s : State) (d : Fin 20) (dt : Nat), s.domWaking (d + 1) = true ∧ (d : Nat) ≠ 16) :=
  ⟨⟨.yardmaster, st [(F.PWR_POLICY_BANK_IDLE, 1)], 1, (by unfold Reaches; decide +kernel), (by decide +kernel),
      (by decide +kernel), (by decide +kernel), (by decide +kernel)⟩,
   ⟨.yardmaster, st [(domFloor 20, 2)], 1, 19, (by unfold Reaches; decide +kernel), (by decide +kernel), (by decide +kernel),
       (by decide +kernel), (by decide +kernel)⟩,
   ⟨st [(F.PWR_DOMd_STAT_STATE.idx 0, 3)], 0, false, 0, 0, (by decide +kernel)⟩,
   ⟨st [(F.PWR_CTRL, 1)], 0, false, 0, 0, (by decide +kernel), (by decide +kernel), (by decide +kernel), (by decide +kernel)⟩,
   ⟨(st [(F.PWR_CTRL, 1)]).setDom 1 fun x => { x with dwellAt := some 0 }, 0, 100000, 0, (by decide +kernel),
       (by decide +kernel), (by decide +kernel), (by decide +kernel)⟩,
   ⟨State.reset.setDom 1 fun x => { x with entering := some 2 }, 0, 2, 0, (by decide +kernel), (by decide +kernel)⟩,
   ⟨State.reset.setDom 13 fun x => { x with entering := some 3 }, 0, (by decide +kernel)⟩,
   ⟨st [(F.PWR_DOMd_STAT_WAKING.idx 0, 1)], 0, 0, (by decide +kernel), (by decide +kernel)⟩⟩

theorem wit_PowerSensorsAndMeters :
    (∃ (s : State) (tj : Int) (sensor : Fin 64) (dt : Nat), s.bit F.PWR_STATUS_THERM_WARN = false
        ∧ 4 * (s.get F.PWR_THERM_CFG_WARN : Int) < tj)
    ∧ (∃ (s : State) (tj : Int) (sensor : Fin 64) (dt : Nat), s.bit F.PWR_STATUS_THERM_WARN = true
        ∧ tj < 4 * ((s.get F.PWR_THERM_CFG_WARN : Int) - s.get F.PWR_THERM_CFG_HYST))
    ∧ (∃ (s : State) (e : Meters) (dt : Nat), s.bit F.BEAT_CTRL_EN = false ∧ ∃ i, i < 20)
    ∧ (∃ (m : Master) (s : State) (n i : Nat), Reaches s m 0xF00180 ∧ n < 256 ∧ i < 6)
    ∧ (∃ (s : State) (e : RateEntry), s.Calm ∧ s.winner = none ∧ s.bit F.PWR_CTRL = true
        ∧ rateFind 0xF101 20 s.evt.rate = some e ∧ s.clk < e.last + 1000000000) :=
  ⟨⟨State.reset, 461, 0, 0, (by decide +kernel), (by decide +kernel)⟩,
   ⟨st [(F.PWR_STATUS_THERM_WARN, 1)], 0, 0, 0, (by decide +kernel), (by decide +kernel)⟩,
   ⟨State.reset, ⟨[], 0, 0, []⟩, 0, (by decide +kernel), 19, (by decide +kernel)⟩,
   ⟨.yardmaster, State.reset, 255, 5, (by unfold Reaches; decide +kernel), (by decide +kernel), (by decide +kernel)⟩,
   ⟨(st [(F.PWR_CTRL, 1)]).setEvt fun x => { x with rate := [⟨0xF101, 20, 0, 0⟩] }, ⟨0xF101, 20, 0, 0⟩,
       (by unfold State.Calm; decide +kernel), (by decide +kernel), (by decide +kernel), (by decide +kernel),
       (by decide +kernel)⟩⟩

theorem wit_PortLinkStates :
    (∃ (m : Master) (s : State) (n : Fin 96) (d : Nat), Reaches s m (0x200000 + 0x1000 * n) ∧ bitOf d 0 = true
        ∧ s.bit (pt F.PORT_CTRL_EN n) = false ∧ (s.putB (pt F.PORT_CTRL_TX_DISABLE n) (bitOf d 1)).layoutFault n = none
        ∧ ∃ l, l ∈ s.portLanes n)
    ∧ (∃ (m : Master) (s : State) (n : Fin 96) (d r : Nat), Reaches s m (0x200000 + 0x1000 * n) ∧ bitOf d 0 = true
        ∧ bitOf d 2 = false ∧ s.bit (pt F.PORT_CTRL_EN n) = false
        ∧ (s.putB (pt F.PORT_CTRL_TX_DISABLE n) (bitOf d 1)).layoutFault n = some r)
    ∧ (∃ (m : Master) (s : State) (n : Fin 96) (d : Nat), Reaches s m (0x200000 + 0x1000 * n) ∧ bitOf d 0 = false
        ∧ s.bit (pt F.PORT_CTRL_EN n) = true)
    ∧ (∃ (m : Master) (s : State) (n : Fin 96) (d : Nat), Reaches s m (0x200000 + 0x1000 * n) ∧ bitOf d 0 = true
        ∧ bitOf d 2 = true ∧ s.bit (pt F.PORT_CTRL_EN n) = true ∧ s.lstate n = 4)
    ∧ (∃ (s : State) (n : Fin 96) (dt : Nat), s.lstate n = 1 ∧ s.lrefGone (s.portGroup n) = false ∧ s.trained n = true)
    ∧ (∃ (s : State) (n : Fin 96) (dt : Nat), s.lstate n = 2
        ∧ (s.port n).upAt + s.get (pt F.PORT_LINK_CFG_UP_HOLD n) * 1000000 ≤ s.clk + dt)
    ∧ (∃ (s : State) (n : Fin 96) (kind : Fin 4) (lanes dt : Nat), (kind = 1 → s.get (pt F.PORT_CFG_FEC n) ≠ 0)
        ∧ s.lstate n = 3 ∧ (s.port n).faultAt = none)
    ∧ (∃ (s : State) (n : Fin 96) (lanes dt : Nat), s.get (pt F.PORT_CFG_FEC n) = 0)
    ∧ (∃ (s : State) (n : Fin 96) (dt t0 : Nat), s.lstate n = 3 ∧ (s.port n).faultAt = some t0
        ∧ t0 + s.get (pt F.PORT_LINK_CFG_DOWN_DEB n) * 1000 ≤ s.clk + dt ∧ s.get (pt F.PORT_FLAP_CFG_FLAP_N n) ≤ 1)
    ∧ (∃ (s : State) (n : Fin 96) (dt : Nat), s.lstate n = 4
        ∧ (s.port n).heldAt + s.get (pt F.PORT_FLAP_CFG_FLAP_HOLD n) * 1000000000 ≤ s.clk + dt) :=
  ⟨⟨.yardmaster, State.reset, 0, 1, (by unfold Reaches; decide +kernel), (by decide +kernel), (by decide +kernel),
      (by decide +kernel), 0, (by decide +kernel)⟩,
   ⟨.yardmaster, st [(pt F.PORT_CFG_SPEED 0, 7)], 0, 1, 6, (by unfold Reaches; decide +kernel), (by decide +kernel),
       (by decide +kernel), (by decide +kernel), (by decide +kernel)⟩,
   ⟨.yardmaster, st [(pt F.PORT_CTRL_EN 0, 1)], 0, 0, (by unfold Reaches; decide +kernel), (by decide +kernel),
       (by decide +kernel)⟩,
   ⟨.yardmaster, st [(pt F.PORT_CTRL_EN 0, 1), (pt F.PORT_STATUS_LSTATE 0, 4)], 0, 5, (by unfold Reaches; decide +kernel),
       (by decide +kernel), (by decide +kernel), (by decide +kernel), (by decide +kernel)⟩,
   ⟨st [(pt F.PORT_STATUS_LSTATE 0, 1)], 0, 0, (by decide +kernel), (by decide +kernel), (by decide +kernel)⟩,
   ⟨st [(pt F.PORT_STATUS_LSTATE 0, 2)], 0, 100000000, (by decide +kernel), (by decide +kernel)⟩,
   ⟨st [(pt F.PORT_STATUS_LSTATE 0, 3)], 0, 0, 0, 0, (by decide +kernel), (by decide +kernel), (by decide +kernel)⟩,
   ⟨st [(pt F.PORT_CFG_FEC 0, 0)], 0, 0, 0, (by decide +kernel)⟩,
   ⟨(st [(pt F.PORT_STATUS_LSTATE 0, 3), (pt F.PORT_FLAP_CFG_FLAP_N 0, 1)]).setPort 0 fun x => { x with faultAt := some 0 },
       0, 10000, 0, (by decide +kernel), (by decide +kernel), (by decide +kernel), (by decide +kernel)⟩,
   ⟨st [(pt F.PORT_STATUS_LSTATE 0, 4)], 0, 30000000000, (by decide +kernel), (by decide +kernel)⟩⟩

theorem wit_LanesAndReferences :
    (∃ (m : Master) (s : State) (l : Fin 128) (d : Nat), Reaches s m (0x300000 + 0x400 * l))
    ∧ (∃ (s : State) (n : Fin 96), s.lstate n = 1 ∧ ∃ l, l ∈ s.portLanes n ∧ s.trains n l = true
        ∧ s.bit (ln F.LANE_CTRL l) = true)
    ∧ (∃ (s : State) (g : Fin 8), s.domState (g + 1) = 0 ∧ s.lrefGone g = false ∧ ∃ l : Fin 128, laneGroup l = g)
    ∧ (∃ (s : State) (g : Fin 8), s.lrefGone g = true ∧ ∃ l : Fin 128, laneGroup l = g ∧ s.bit (ln F.LANE_CTRL l) = true) :=
  ⟨⟨.yardmaster, State.reset, 0, 0, (by unfold Reaches; decide +kernel)⟩,
   ⟨st [(pt F.PORT_STATUS_LSTATE 0, 1), (ln F.LANE_CTRL 0, 1), (ln F.LANE_CFG_TRAIN 0, 1), (pt F.PORT_CFG_SPEED 0, 1)], 0,
       (by decide +kernel), 0, (by decide +kernel), (by decide +kernel), (by decide +kernel)⟩,
   ⟨State.reset, 0, (by decide +kernel), (by decide +kernel), 0, (by decide +kernel)⟩,
   ⟨{ st [(ln F.LANE_CTRL 0, 1)] with prt := { State.reset.prt with lrefAbsent := [0] } }, 0, (by decide +kernel), 0,
       (by decide +kernel), (by decide +kernel)⟩⟩

theorem wit_RedundancyPairs :
    (∃ (m : Master) (s : State) (d : Nat), Reaches s m 0x260000 ∧ bitOf d 0 = true ∧ s.bit F.PORT_GLB_CTRL = false
        ∧ (∀ k ∈ s.redPairs, s.badPair k = false) ∧ ∃ k, k ∈ s.redPairs)
    ∧ (∃ (m : Master) (s : State) (d k : Nat), Reaches s m 0x260000 ∧ bitOf d 0 = true ∧ s.bit F.PORT_GLB_CTRL = false
        ∧ k ∈ s.redPairs ∧ s.badPair k = true)
    ∧ (∃ (s : State) (m : Fin 48) (dt : Nat), s.bit F.PORT_GLB_CTRL = true ∧ s.redMode m ≠ 0 ∧ s.redA m ≠ s.redB m
        ∧ (s.red m).lifeAt + s.get (rd F.RED_TIMES_LIFE_CHECK m) * 1000000000 ≤ s.clk + dt ∧ ∃ (n : Nat) (f : OutFrame),
        (n = s.redA m ∨ n = s.redB m) ∧ f = ⟨1, none,
        supervisionBytes (s.get (pt F.PORT_MAC n)) (s.redMode m) (s.red m).txSeq⟩ ∧ s.lstate n = 3 ∧ (s.port n).tx = none
        ∧ s.eq n = [] ∧ s.bit (pt F.PORT_CTRL_TX_DISABLE n) = false)
    ∧ (∃ (s : State) (n : Fin 96) (ym : List (Bool × List Byte)) (f : OutFrame) (t0 dt : Nat), (s.port n).tx = some (f, t0)
        ∧ ym = [] ∧ (s.eq n).isEmpty = true) :=
  ⟨⟨.yardmaster, st [(rd F.RED_CFG_MODE 0, 1), (rd F.RED_CFG_PORT_B 0, 1)], 1, (by unfold Reaches; decide +kernel),
      (by decide +kernel), (by decide +kernel), (by decide +kernel), 0, (by decide +kernel)⟩,
   ⟨.yardmaster, st [(rd F.RED_CFG_MODE 0, 3), (rd F.RED_CFG_PORT_B 0, 1)], 1, 0, (by unfold Reaches; decide +kernel),
       (by decide +kernel), (by decide +kernel), (by decide +kernel), (by decide +kernel)⟩,
   ⟨st [(F.PORT_GLB_CTRL, 1), (rd F.RED_CFG_MODE 0, 1), (rd F.RED_CFG_PORT_B 0, 1), (pt F.PORT_STATUS_LSTATE 0, 3),
       (pt F.PORT_STATUS_LSTATE 1, 3)], 0, 60000000000, (by decide +kernel), (by decide +kernel), (by decide +kernel),
       (by decide +kernel), 0, ⟨1, none, supervisionBytes (State.reset.get (pt F.PORT_MAC 0)) 1 0⟩, (by decide +kernel), rfl,
       (by decide +kernel), (by decide +kernel), (by decide +kernel), (by decide +kernel)⟩,
   ⟨State.reset.setPort 0 fun x => { x with tx := some (⟨7, none, []⟩, 0) }, 0, [], ⟨7, none, []⟩, 0, 0, (by decide +kernel),
       (by decide +kernel), (by decide +kernel)⟩⟩

theorem wit_FlowAccess :
    (∃ (m : Master) (s : State) (i : Nat), Reaches s m 0x400024 ∧ s.bit F.GATE_FACC_CMD_BUSY = false ∧ i < 16)
    ∧ (∃ (m : Master) (s : State), Reaches s m 0x400024 ∧ s.bit F.GATE_FACC_CMD_BUSY = false ∧ s.bit F.GATE_CTRL = true)
    ∧ (∃ (m : Master) (s : State), Reaches s m 0x400024 ∧ s.bit F.GATE_FACC_CMD_BUSY = false ∧ s.bit F.GATE_CTRL = false
        ∧ 65536 ≤ s.faccFlow)
    ∧ (∃ (m : Master) (s : State), Reaches s m 0x400024 ∧ s.bit F.GATE_FACC_CMD_BUSY = false ∧ let e := feKeepHw (s.flow s.faccFlow).e (s.getBytes F.GATE_FACC_DATAn 16); s.bit F.GATE_CTRL = false ∧ s.faccFlow < 65536 ∧ s.feAccept s.faccFlow e = false)
    ∧ (∃ (m : Master) (s : State), Reaches s m 0x400024 ∧ s.bit F.GATE_FACC_CMD_BUSY = false ∧ s.gate.inflight = []
        ∧ s.gate.changes = [] ∧ feValid (s.flow s.faccFlow).e = true ∧ s.faccFlow < 65536)
    ∧ (∃ (m : Master) (s : State) (i : Nat), Reaches s m 0x400024 ∧ s.bit F.GATE_FACC_CMD_BUSY = false
        ∧ feValid (s.flow s.faccFlow).e = true ∧ i < 10)
    ∧ (∃ (m : Master) (s : State) (i : Nat), Reaches s m 0x400024 ∧ s.bit F.GATE_FACC_CMD_BUSY = false
        ∧ feValid (s.flow s.faccFlow).e = true ∧ i < 8)
    ∧ (∃ (m : Master) (s : State) (i : Instr),
        (i = .resetReplay m ∨ i = .setQuar m ∨ i = .clearQuar m ∨ i = .readStats m ∨ i = .readReplay m ∨ i = .setNext m)
        ∧ Reaches s m 0x400024 ∧ s.bit F.GATE_FACC_CMD_BUSY = false ∧ feValid (s.flow s.faccFlow).e = false) :=
  ⟨⟨.yardmaster, State.reset, 15, (by unfold Reaches; decide +kernel), (by decide +kernel), (by decide +kernel)⟩,
   ⟨.yardmaster, st [(F.GATE_CTRL, 1)], (by unfold Reaches; decide +kernel), (by decide +kernel), (by decide +kernel)⟩,
   ⟨.yardmaster, st [(F.GATE_FACC_IDX, 65536)], (by unfold Reaches; decide +kernel), (by decide +kernel),
       (by decide +kernel), (by decide +kernel)⟩,
   ⟨.yardmaster, st [(F.GATE_FACC_DATAn.idx 0, 1)], (by unfold Reaches; decide +kernel), (by decide +kernel),
       (by decide +kernel), (by decide +kernel), (by decide +kernel)⟩,
   ⟨.yardmaster, flowSt 0 1, (by unfold Reaches; decide +kernel), (by decide +kernel), (by decide +kernel),
       (by decide +kernel), (by decide +kernel), (by decide +kernel)⟩,
   ⟨.yardmaster, flowSt 0 1, 9, (by unfold Reaches; decide +kernel), (by decide +kernel), (by decide +kernel),
       (by decide +kernel)⟩,
   ⟨.yardmaster, flowSt 0 1, 7, (by unfold Reaches; decide +kernel), (by decide +kernel), (by decide +kernel),
       (by decide +kernel)⟩,
   ⟨.yardmaster, State.reset, .resetReplay .yardmaster, (by decide +kernel), (by unfold Reaches; decide +kernel),
       (by decide +kernel), (by decide +kernel)⟩⟩

theorem wit_KeyAccessAndInstances :
    (∃ (m : Master) (s : State) (d : Nat), Reaches s m 0x400000)
    ∧ (∃ (m : Master) (s : State) (i : Nat), Reaches s m 0x400084 ∧ s.bit F.GATE_KACC_CMD_BUSY = false ∧ i < 6)
    ∧ (∃ (m : Master) (s : State), Reaches s m 0x400084 ∧ s.bit F.GATE_KACC_CMD_BUSY = false
        ∧ (s.keyE (s.get F.GATE_KACC_IDX)).st ≠ 0)
    ∧ (∃ (m : Master) (s : State), Reaches s m 0x400084 ∧ s.bit F.GATE_KACC_CMD_BUSY = false
        ∧ (s.keyE (s.get F.GATE_KACC_IDX)).st = 0)
    ∧ (∃ (s : State) (n dt : Nat), s.gate.inflight = [] ∧ s.gate.changes = [] ∧ feValid (s.flow n).e = true
        ∧ feInstance (s.flow n).e = true ∧ s.standby = false
        ∧ (s.flow n).lastAt + feIdle (s.flow n).e * 1000000000 ≤ s.clk + dt)
    ∧ (∃ (s : State) (tpl : Nat) (rest : List Nat) (f : Nat × FlowEnt), s.gate.inflight = [] ∧ s.gate.changes = []
        ∧ s.gate.propagate = tpl :: rest ∧ f ∈ s.gate.flows ∧ feValid f.2.e = true ∧ feInstance f.2.e = true
        ∧ feTplRef f.2.e = tpl) :=
  ⟨⟨.yardmaster, State.reset, 0, (by unfold Reaches; decide +kernel)⟩,
   ⟨.yardmaster, State.reset, 5, (by unfold Reaches; decide +kernel), (by decide +kernel), (by decide +kernel)⟩,
   ⟨.yardmaster, State.reset.setKey 0 fun x => { x with st := 1 }, (by unfold Reaches; decide +kernel), (by decide +kernel),
       (by decide +kernel)⟩,
   ⟨.yardmaster, State.reset, (by unfold Reaches; decide +kernel), (by decide +kernel), (by decide +kernel)⟩,
   ⟨flowSt 65535 5, 65535, 1000000000, (by decide +kernel), (by decide +kernel), (by decide +kernel), (by decide +kernel),
       (by decide +kernel), (by decide +kernel)⟩,
   ⟨(flowSt 3 5).setGate fun x => { x with propagate := [0] }, 0, [], (3, { FlowEnt.empty with e := fe0 5 }),
       (by decide +kernel), (by decide +kernel), (by decide +kernel), (by decide +kernel), (by decide +kernel),
       (by decide +kernel), (by decide +kernel)⟩⟩

theorem wit_FrameReception :
    (∃ (s : State) (n : Fin 96) (bs : List Byte) (uncorr dt : Nat), s.lstate n = 3 ∧ s.get (pt F.PORT_CFG_FEC n) ≠ 0)
    ∧ (∃ (s : State) (n : Fin 96) (bs : List Byte) (uncorr dt : Nat) (tag : Option (Nat × Nat)), let u := s.elapse dt; s.lstate n = 3 ∧ 60 ≤ bs.length ∧ bs.length + 4 ≤ s.get (pt F.PORT_MTU n) ∧ s.pairOf n = none ∧ (isGroupMac (beAt bs 0 6) = true ∨ beAt bs 0 6 = s.get (pt F.PORT_MAC n)) ∧ u.rxPath n (u.arrival n) bs = (.stray, tag) ∧ s.get F.GATE_CFG_STRAY_SAMPLE = 0)
    ∧ (∃ (s : State) (n : Fin 96) (bs : List Byte) (uncorr dt : Nat) (tag : Option (Nat × Nat)) (fr : RxFrame) (k fl : Nat) (sec : Sec), let u := s.elapse dt; s.lstate n = 3 ∧ 60 ≤ bs.length ∧ bs.length + 4 ≤ s.get (pt F.PORT_MTU n) ∧ s.pairOf n = none ∧ (isGroupMac (beAt bs 0 6) = true ∨ beAt bs 0 6 = s.get (pt F.PORT_MAC n)) ∧ u.rxPath n (u.arrival n) bs = (.flow fr, tag) ∧ fr.port = n ∧ s.bit F.GATE_CTRL = true ∧ s.classify fr = some fl ∧ parseSec fr = some sec ∧ lenOk fr sec = true ∧ u.stage4 (s.viewFlow fl) sec = .inr k ∧ (if algGmac sec.alg then u.runEngines.gate.gmac else u.runEngines.gate.hmac).admits (fePrio (s.viewFlow fl).e) = true)
    ∧ (∃ (s : State) (i dt : Nat) (f : Inflight), let u := s.elapse dt; s.gate.inflight[i]? = some f ∧ s.inTurn i f = f ∧ s.gate.changes = [] ∧ (s.keyE f.key).st ≠ 2 ∧ (timeValid s.tq = true → keyInTime (s.keyE f.key) (u.nowNs / 1000000000) = true) ∧ Config.checkValue f.sec.alg f.material f.sec.iv f.sec.span ≠ f.sec.tag)
    ∧ (∃ (s : State) (i dt p cnt : Nat) (f : Inflight), let u := s.elapse dt; let tol := feTsTol f.entry * 1000000; s.gate.inflight[i]? = some f ∧ s.inTurn i f = f ∧ s.gate.changes = [] ∧ (s.keyE f.key).st ≠ 2 ∧ (timeValid s.tq = true → keyInTime (s.keyE f.key) (u.nowNs / 1000000000) = true ∧ u.nowNs ≤ f.sec.ts + tol ∧ f.sec.ts ≤ u.nowNs + tol) ∧ Config.checkValue f.sec.alg f.material f.sec.iv f.sec.span = f.sec.tag ∧ feTemplate f.entry = false ∧ f.fr.kind ≠ 4 ∧ framePos f.fr f.entry (s.flow f.flow).rep = (p, cnt) ∧ replayCheck (s.flow f.flow).rep p cnt f.sec.ts (timeValid s.tq) = .new ∧ feQuar f.entry = false) :=
  ⟨⟨st [(pt F.PORT_STATUS_LSTATE 0, 3), (pt F.PORT_CFG_FEC 0, 1)], 0, [], 0, 0, (by decide +kernel), (by decide +kernel)⟩,
   ⟨st [(pt F.PORT_STATUS_LSTATE 95, 3), (F.GATE_CFG_STRAY_SAMPLE, 0)], 95, beBytes 6 0x010000000000 ++ List.replicate 54 0,
       0, 0, none, (by decide +kernel), (by decide +kernel), (by decide +kernel), (by decide +kernel), (by decide +kernel),
       (by decide +kernel), (by decide +kernel)⟩,
   ⟨((st [(pt F.PORT_STATUS_LSTATE 95, 3), (F.GATE_CTRL,
       1)]).setFlow 65535 fun x => { x with e := feHrsSrc }).setKey 0 fun x => { x with keyId := 5, alg := 1, st := 1, usage := 1 }, 95, hrsFrame, 0, 0, none, rxHrs 9 0 0, 0, 65535, ⟨5, 1, 0, List.replicate 12 0, List.replicate 10 0, 10, (hrsPdu 9 0 0).take 82, false⟩, (by decide +kernel), (by decide +kernel), (by decide +kernel), (by decide +kernel), (by decide +kernel), (by decide +kernel), (by decide +kernel), (by decide +kernel), (by decide +kernel), (by decide +kernel), (by decide +kernel), (by decide +kernel), (by decide +kernel)⟩,
   ⟨(st [(F.BEAT_TQ_TQ, 1)]).setGate fun x => { x with inflight := [inHrs (Config.checkValue 1 [] [] [] ++ [0])] }, 0, 0,
       inHrs (Config.checkValue 1 [] [] [] ++ [0]), rfl, rfl, (by decide +kernel), (by decide +kernel),
       fun _ => by decide +kernel,
       fun h => absurd (congrArg List.length (show Config.checkValue 1 [] [] [] = Config.checkValue 1 [] [] [] ++ [0] from h)) (by simp)⟩,
   ⟨(st [(F.BEAT_TQ_TQ, 1)]).setGate fun x => { x with inflight := [inHrs (Config.checkValue 1 [] [] [])] }, 0, 0, 9, 1,
       inHrs (Config.checkValue 1 [] [] []), rfl, rfl, (by decide +kernel), (by decide +kernel), fun _ => by decide +kernel,
       rfl, (by decide +kernel), (by decide +kernel), (by decide +kernel), (by decide +kernel), (by decide +kernel)⟩⟩

theorem wit_ReplayWindow : ∃ (r : Replay) (p n ts ts' : Nat) (valid : Bool), r.bitmap < 2 ^ 64 ∧ 0 < n ∧ n ≤ 16
      ∧ replayCheck r p n ts valid = .new ∧ let r' := replayCommit r p n ts false; ∃ x, r.active = true ∧ x ≤ r.top
      ∧ r.top - x < 64 ∧ bitOf r.bitmap (r.top - x) = true ∧ r'.top - x < 64 :=
  ⟨⟨70, 2 ^ 64 - 1, 0, true⟩, 71, 16, 0, 0, false, (by decide +kernel), (by decide +kernel), (by decide +kernel),
      (by decide +kernel), 23, (by decide +kernel), (by decide +kernel), (by decide +kernel), (by decide +kernel),
      (by decide +kernel)⟩

theorem wit_GroupAccess :
    (∃ (m : Master) (s : State) (d : Nat), Reaches s m 0x500000 ∧ bitOf d 0 = true ∧ s.bit F.MYARD_CTRL = false ∧ s.domState 14 = 0 ∧ let valid := s.groupList.filter fun n => geValid (s.group n).e; let u := s.each valid fun n t => t.setGroup n fun x => { x with e := geDerive t.rate (setLe x.e 0 1 (clearBit (geFlags x.e) 1)) }; ((∃ n ∈ valid, geOk (u.group n).e = false) ∨ 131072 * s.get F.MYARD_CAP_BANKS < (valid.map fun n => ringBytes (u.group n).e).sum))
    ∧ (∃ (m : Master) (s : State) (d : Nat), Reaches s m 0x500000 ∧ bitOf d 0 = true ∧ s.bit F.MYARD_CTRL = false
        ∧ s.domState 14 ≠ 0)
    ∧ (∃ (m : Master) (s : State) (d : Nat), Reaches s m 0x500000 ∧ bitOf d 0 = false ∧ s.bit F.MYARD_CTRL = true ∧ ∃ g,
        g ∈ s.groupList)
    ∧ (∃ (m : Master) (s : State) (i : Nat), Reaches s m 0x500024 ∧ s.bit F.MYARD_GACC_CMD_BUSY = false ∧ i < 8)
    ∧ (∃ (m : Master) (s : State), Reaches s m 0x500024 ∧ s.bit F.MYARD_GACC_CMD_BUSY = false ∧ s.bit F.MYARD_CTRL = false)
    ∧ (∃ (m : Master) (s : State) (i : Instr), (i = .myardWrite m ∨ i = .myardInvalidate m) ∧ Reaches s m 0x500024
        ∧ s.bit F.MYARD_GACC_CMD_BUSY = false ∧ s.bit F.MYARD_CTRL = true) :=
  ⟨⟨.yardmaster, State.reset.setGroup 255 fun x => { x with e := setLe [] 0 1 1 }, 1, (by unfold Reaches; decide +kernel),
      (by decide +kernel), (by decide +kernel), (by decide +kernel), .inl (by decide +kernel)⟩,
   ⟨.yardmaster, st [(F.PWR_DOMd_STAT_STATE.idx 13, 1)], 1, (by unfold Reaches; decide +kernel), (by decide +kernel),
       (by decide +kernel), (by decide +kernel)⟩,
   ⟨.yardmaster, (st [(F.MYARD_CTRL, 1)]).setGroup 255 fun x => { x with e := setLe [] 0 1 1 }, 0,
       (by unfold Reaches; decide +kernel), (by decide +kernel), (by decide +kernel), 255, (by decide +kernel)⟩,
   ⟨.yardmaster, State.reset, 7, (by unfold Reaches; decide +kernel), (by decide +kernel), (by decide +kernel)⟩,
   ⟨.yardmaster, State.reset, (by unfold Reaches; decide +kernel), (by decide +kernel), (by decide +kernel)⟩,
   ⟨.yardmaster, st [(F.MYARD_CTRL, 1)], .myardWrite .yardmaster, (by decide +kernel), (by unfold Reaches; decide +kernel),
       (by decide +kernel), (by decide +kernel)⟩⟩

theorem wit_SamplePlacement :
    (∃ (s : State) (i : Nat) (h : Handover), s.yard.queue[i]? = some h ∧ h.on = false
        ∧ geKind (s.group (feGroup h.entry)).e ≠ 2)
    ∧ (∃ (s : State) (i : Nat) (h : Handover), s.yard.queue[i]? = some h ∧ ∃ (m : Nat) (w : Win) (k slot : Nat) (d : List Byte) (u : Bool), let g := feGroup h.entry; let e := (s.group g).e; let pa := slabAddr e k + presOfs e + 8 * (m * presWords e + slot / 64); h.on = true ∧ h.gone = [] ∧ g ≠ 0xFFFF ∧ geValid e = true ∧ geWithdrawn e = false ∧ tqRuns h.tq = true ∧ h.member = some m ∧ geKind e ≤ 1 ∧ s.samples g h = .inr [.put k slot d u] ∧ k ≤ h.beat ∧ h.beat < k + 1 + geLag e ∧ s.win g k = some w ∧ w.closed = false ∧ m < geMax e ∧ slot < geSlots e ∧ bitOf (s.yLe pa 8) (slot % 64) = false ∧ ∃ a, (a < slabAddr e k ∨ slabAddr e k + slabSize e ≤ a))
    ∧ (∃ (s : State) (i : Nat) (h : Handover), s.yard.queue[i]? = some h ∧ ∃ (m : Nat) (w : Win) (k slot : Nat) (d : List Byte) (u : Bool), let g := feGroup h.entry; let e := (s.group g).e; h.on = true ∧ h.gone = [] ∧ g ≠ 0xFFFF ∧ geValid e = true ∧ geWithdrawn e = false ∧ tqRuns h.tq = true ∧ h.member = some m ∧ geKind e ≤ 1 ∧ s.samples g h = .inr [.put k slot d u] ∧ k + 1 + geLag e ≤ h.beat)
    ∧ (∃ (s : State) (i : Nat) (h : Handover), s.yard.queue[i]? = some h ∧ ∃ (m : Nat) (w : Win) (k slot : Nat) (d : List Byte) (u : Bool), let g := feGroup h.entry; let e := (s.group g).e; h.on = true ∧ h.gone = [] ∧ g ≠ 0xFFFF ∧ geValid e = true ∧ geWithdrawn e = false ∧ tqRuns h.tq = true ∧ h.member = some m ∧ geKind e ≤ 1 ∧ s.samples g h = .inr [.put k slot d u] ∧ h.beat < k) :=
  ⟨⟨State.reset.setYard fun x => { x with queue := [{ hoHrs 0 0 with on := false }] }, 0, { hoHrs 0 0 with on := false },
      (by decide +kernel), (by decide +kernel), (by decide +kernel)⟩,
   ⟨yardSt (hoHrs 0 0) 0, 0, hoHrs 0 0, (by decide +kernel), 1023, ⟨0, false⟩, 0, 0, [2, 1], false, (by decide +kernel),
       (by decide +kernel), (by decide +kernel), (by decide +kernel), (by decide +kernel), (by decide +kernel),
       (by decide +kernel), (by decide +kernel), (by decide +kernel), (by decide +kernel), (by decide +kernel),
       (by decide +kernel), (by decide +kernel), (by decide +kernel), (by decide +kernel), (by decide +kernel), 2 ^ 20,
       (by decide +kernel)⟩,
   ⟨yardSt (hoHrs 0 1) 0, 0, hoHrs 0 1, (by decide +kernel), 1023, ⟨0, false⟩, 0, 0, [2, 1], false, (by decide +kernel),
       (by decide +kernel), (by decide +kernel), (by decide +kernel), (by decide +kernel), (by decide +kernel),
       (by decide +kernel), (by decide +kernel), (by decide +kernel), (by decide +kernel)⟩,
   ⟨yardSt (hoHrs 1 47999) 48000, 0, hoHrs 1 47999, (by decide +kernel), 1023, ⟨48000, false⟩, 48000, 0, [2, 1], false,
       (by decide +kernel), (by decide +kernel), (by decide +kernel), (by decide +kernel), (by decide +kernel),
       (by decide +kernel), (by decide +kernel), (by decide +kernel), (by decide +kernel), (by decide +kernel)⟩⟩

theorem wit_LoftRecording :
    (∃ (m : Master) (s : State) (d : Nat), Reaches s m 0x600000 ∧ bitOf d 0 = true ∧ s.bit F.LOFT_CTRL = false
        ∧ (s.halvesOk (s.get F.LOFT_CFG_HALVES) = false ∨ 75 < s.get F.LOFT_CFG_PIN_MAX))
    ∧ (∃ s : State, s.bit F.LOFT_STATUS_INIT_BUSY = true ∧ s.loft.segs = [] ∧ ∃ (ce : Nat) (ue : List Nat), ue = [])
    ∧ (∃ (s : State) (beat n : Nat) (e : List Byte) (rest : List (Nat × List Byte)), s.loft.buf = (beat, e) :: rest
        ∧ s.bit F.LOFT_STATUS_RUNNING = true ∧ s.loft.openSeg = some n ∧ (s.seg n).closed = false
        ∧ (s.seg n).used + e.length ≤ segBytes)
    ∧ (∃ (s : State) (idx : Nat), s.bit F.LOFT_STATUS_RUNNING = true ∧ s.testable false idx = true)
    ∧ (∃ (s : State) (hist : Bool) (idx : Nat) (pass repaired : Bool), s.bit F.LOFT_STATUS_RUNNING = true
        ∧ s.testable hist idx = true ∧ (pass = true ∨ repaired = true)) :=
  ⟨⟨.yardmaster, st [(F.LOFT_CFG_PIN_MAX, 76)], 1, (by unfold Reaches; decide +kernel), (by decide +kernel),
      (by decide +kernel), (by decide +kernel)⟩,
   ⟨{ st [(F.LOFT_STATUS_INIT_BUSY, 1)] with loft := { State.reset.loft with segs := [] } }, (by decide +kernel),
       (by decide +kernel), 0, [], (by decide +kernel)⟩,
   ⟨{ st [(F.LOFT_STATUS_RUNNING, 1)] with loft := { State.reset.loft with buf := [(3, List.replicate 70 0)], bufBytes := 70, openSeg := some 7 } }, 3, 7, List.replicate 70 0, [], (by decide +kernel), (by decide +kernel), (by decide +kernel), (by decide +kernel), (by decide +kernel)⟩,
   ⟨st [(F.LOFT_STATUS_RUNNING, 1)], 0, (by decide +kernel), (by decide +kernel)⟩,
   ⟨st [(F.LOFT_STATUS_RUNNING, 1)], false, 0, true, false, (by decide +kernel), (by decide +kernel), (by decide +kernel)⟩⟩

theorem wit_LoftFreezes :
    (∃ (m : Master) (s : State) (i : Nat), Reaches s m 0x600030 ∧ s.bit F.LOFT_FRZ_CMD_BUSY = false
        ∧ ((List.range 16).find? (fun j => (s.frz j).st == 0) = some i) ∧ s.get (F.LOFT_FRZ_ARG01.idx 0) ≤ 60000000
        ∧ s.get (F.LOFT_FRZ_ARG01.idx 1) ≤ 60000000)
    ∧ (∃ (m : Master) (s : State), Reaches s m 0x600030 ∧ s.bit F.LOFT_FRZ_CMD_BUSY = false
        ∧ ((List.range 16).find? (fun j => (s.frz j).st == 0) = none))
    ∧ (∃ (m : Master) (s : State) (i : Fin 16), Reaches s m 0x600030 ∧ s.bit F.LOFT_FRZ_CMD_BUSY = false)
    ∧ (∃ (m : Master) (s : State) (d : Nat), Reaches s m 0x600060 ∧ s.bit F.LOFT_EXP_CMD_BUSY = false ∧ bitOf d 4 = true
        ∧ (s.frz (bitsOf d 0 4)).st ≠ 2)
    ∧ (∃ (s : State) (x : ExpReq), s.loft.exports = [x] ∧ x.cmd = none
        ∧ ∃ (fault : Option Nat) (ce : Nat) (ue : List (Nat × List Byte)), fault = none ∧ (x.scope = 1
        → s.get (sl F.SLICE_STATUS_STATE x.slice) ≠ 0))
    ∧ (∃ (s : State) (x : ExpReq), s.loft.exports = [x] ∧ x.cmd = none
        ∧ ∃ (fault : Option Nat) (ce : Nat) (ue : List (Nat × List Byte)), (fault ≠ none ∨ (x.scope = 1
        ∧ s.get (sl F.SLICE_STATUS_STATE x.slice) = 0))) :=
  ⟨⟨.yardmaster, State.reset, 0, (by unfold Reaches; decide +kernel), (by decide +kernel), (by decide +kernel),
      (by decide +kernel), (by decide +kernel)⟩,
   ⟨.yardmaster,
       { State.reset with loft := { State.reset.loft with slots := (List.range 16).map fun j => (j, { FrzSlot.free with st := 1 }) } }, (by unfold Reaches; decide +kernel), (by decide +kernel), (by decide +kernel)⟩,
   ⟨.yardmaster, State.reset, 0, (by unfold Reaches; decide +kernel), (by decide +kernel)⟩,
   ⟨.yardmaster, State.reset, 16, (by unfold Reaches; decide +kernel), (by decide +kernel), (by decide +kernel),
       (by decide +kernel)⟩,
   ⟨State.reset.setLoft fun l => { l with exports := [⟨15, 0, 0, 0, 0, 0, 0, none, 0⟩] }, ⟨15, 0, 0, 0, 0, 0, 0, none, 0⟩,
       (by decide +kernel), (by decide +kernel), none, 0, [], (by decide +kernel), (by decide +kernel)⟩,
   ⟨State.reset.setLoft fun l => { l with exports := [⟨15, 0, 0, 0, 0, 0, 0, none, 0⟩] }, ⟨15, 0, 0, 0, 0, 0, 0, none, 0⟩,
       (by decide +kernel), (by decide +kernel), some 3, 0, [], .inl (by decide)⟩⟩

theorem wit_XdlpArithmetic :
    (∃ (s u : State) (p : Fin 68) (l : Fin 16) (dt len rd a b : Nat), Issues s p l dt len (.q .qadd rd a b) u)
    ∧ (∃ (s u : State) (p : Fin 68) (l : Fin 16) (dt len rd a b : Nat), Issues s p l dt len (.q .qsub rd a b) u)
    ∧ (∃ (s u : State) (p : Fin 68) (l : Fin 16) (dt len rd a b : Nat), Issues s p l dt len (.q .qmul rd a b) u)
    ∧ (∃ (s u : State) (p : Fin 68) (l : Fin 16) (dt len rd a b : Nat), Issues s p l dt len (.q .qadd16 rd a b) u)
    ∧ (∃ (s u : State) (p : Fin 68) (l : Fin 16) (dt len rd a b : Nat), Issues s p l dt len (.q .qsub16 rd a b) u)
    ∧ (∃ (s u : State) (p : Fin 68) (l : Fin 16) (dt len rd a b : Nat), Issues s p l dt len (.q .qmul16 rd a b) u)
    ∧ (∃ (s u : State) (p : Fin 68) (l : Fin 16) (dt len rd a b : Nat), Issues s p l dt len (.q .qabs rd a b) u)
    ∧ (∃ (s u : State) (p : Fin 68) (l : Fin 16) (dt len rd a b : Nat), Issues s p l dt len (.q .qneg rd a b) u)
    ∧ (∃ (s u : State) (p : Fin 68) (l : Fin 16) (dt len rd a b i h : Nat), let c := u.coreOf p l; i < c.acc.length ∧ Issues s p l dt len (.c .cmac i a b) u)
    ∧ (∃ (s u : State) (p : Fin 68) (l : Fin 16) (dt len rd a b i h : Nat), let c := u.coreOf p l; i < c.acc.length ∧ Issues s p l dt len (.c .cmacj i a b) u)
    ∧ (∃ (s u : State) (p : Fin 68) (l : Fin 16) (dt len rd a b i h : Nat), let c := u.coreOf p l; i < c.acc.length ∧ Issues s p l dt len (.c .cmsu i a b) u)
    ∧ (∃ (s u : State) (p : Fin 68) (l : Fin 16) (dt len rd a b i h : Nat), let c := u.coreOf p l; i < c.acc.length ∧ Issues s p l dt len (.c .cmsuj i a b) u)
    ∧ (∃ (s u : State) (p : Fin 68) (l : Fin 16) (dt len rd a b i h : Nat), let c := u.coreOf p l; i < c.acc.length ∧ Issues s p l dt len (.aclr i) u)
    ∧ (∃ (s u : State) (p : Fin 68) (l : Fin 16) (dt len rd a b i h : Nat), Issues s p l dt len (.r .ardre rd i h) u)
    ∧ (∃ (s u : State) (p : Fin 68) (l : Fin 16) (dt len rd a b i h : Nat), Issues s p l dt len (.r .ardim rd i h) u)
    ∧ (∃ (s u : State) (p : Fin 68) (l : Fin 16) (dt len rd a b i h : Nat), Issues s p l dt len (.r .apk16 rd i h) u) :=
  ⟨⟨regsSt 0x01F08F8B [], fetched0 (regsSt 0x01F08F8B []), 0, 0, 0, 4, 31, 1, 31, ⟨by decide +kernel, by decide +kernel,
      Prod.ext rfl (by decide +kernel)⟩⟩,
   ⟨regsSt 0x03F08F8B [], fetched0 (regsSt 0x03F08F8B []), 0, 0, 0, 4, 31, 1, 31, ⟨by decide +kernel, by decide +kernel,
       Prod.ext rfl (by decide +kernel)⟩⟩,
   ⟨regsSt 0x05F08F8B [], fetched0 (regsSt 0x05F08F8B []), 0, 0, 0, 4, 31, 1, 31, ⟨by decide +kernel, by decide +kernel,
       Prod.ext rfl (by decide +kernel)⟩⟩,
   ⟨regsSt 0x09F08F8B [], fetched0 (regsSt 0x09F08F8B []), 0, 0, 0, 4, 31, 1, 31, ⟨by decide +kernel, by decide +kernel,
       Prod.ext rfl (by decide +kernel)⟩⟩,
   ⟨regsSt 0x0BF08F8B [], fetched0 (regsSt 0x0BF08F8B []), 0, 0, 0, 4, 31, 1, 31, ⟨by decide +kernel, by decide +kernel,
       Prod.ext rfl (by decide +kernel)⟩⟩,
   ⟨regsSt 0x0DF08F8B [], fetched0 (regsSt 0x0DF08F8B []), 0, 0, 0, 4, 31, 1, 31, ⟨by decide +kernel, by decide +kernel,
       Prod.ext rfl (by decide +kernel)⟩⟩,
   ⟨regsSt 0x100F8F8B [], fetched0 (regsSt 0x100F8F8B []), 0, 0, 0, 4, 31, 31, 0, ⟨by decide +kernel, by decide +kernel,
       Prod.ext rfl (by decide +kernel)⟩⟩,
   ⟨regsSt 0x120F8F8B [], fetched0 (regsSt 0x120F8F8B []), 0, 0, 0, 4, 31, 31, 0, ⟨by decide +kernel, by decide +kernel,
       Prod.ext rfl (by decide +kernel)⟩⟩,
   ⟨regsSt 0x01F0918B [], fetched0 (regsSt 0x01F0918B []), 0, 0, 0, 4, 0, 1, 31, 3, 0, (by decide +kernel),
       ⟨by decide +kernel, by decide +kernel, Prod.ext rfl (by decide +kernel)⟩⟩,
   ⟨regsSt 0x03F0918B [], fetched0 (regsSt 0x03F0918B []), 0, 0, 0, 4, 0, 1, 31, 3, 0, (by decide +kernel),
       ⟨by decide +kernel, by decide +kernel, Prod.ext rfl (by decide +kernel)⟩⟩,
   ⟨regsSt 0x05F0918B [], fetched0 (regsSt 0x05F0918B []), 0, 0, 0, 4, 0, 1, 31, 3, 0, (by decide +kernel),
       ⟨by decide +kernel, by decide +kernel, Prod.ext rfl (by decide +kernel)⟩⟩,
   ⟨regsSt 0x07F0918B [], fetched0 (regsSt 0x07F0918B []), 0, 0, 0, 4, 0, 1, 31, 3, 0, (by decide +kernel),
       ⟨by decide +kernel, by decide +kernel, Prod.ext rfl (by decide +kernel)⟩⟩,
   ⟨regsSt 0x0800118B [], fetched0 (regsSt 0x0800118B []), 0, 0, 0, 4, 0, 0, 0, 3, 0, (by decide +kernel),
       ⟨by decide +kernel, by decide +kernel, Prod.ext rfl (by decide +kernel)⟩⟩,
   ⟨regsSt 0x01F1AF8B [], fetched0 (regsSt 0x01F1AF8B []), 0, 0, 0, 4, 31, 0, 0, 3, 31, ⟨by decide +kernel,
       by decide +kernel, Prod.ext rfl (by decide +kernel)⟩⟩,
   ⟨regsSt 0x03F1AF8B [], fetched0 (regsSt 0x03F1AF8B []), 0, 0, 0, 4, 31, 0, 0, 3, 31, ⟨by decide +kernel,
       by decide +kernel, Prod.ext rfl (by decide +kernel)⟩⟩,
   ⟨regsSt 0x05F1AF8B [], fetched0 (regsSt 0x05F1AF8B []), 0, 0, 0, 4, 31, 0, 0, 3, 31, ⟨by decide +kernel,
       by decide +kernel, Prod.ext rfl (by decide +kernel)⟩⟩⟩

theorem wit_SaturationFlagSticks :
    (∃ (c c' : Core) (len : Nat) (rv : Rv) (e : CsrEnv) (op rd rs1 n : Nat) (useImm : Bool), c.xdlp len rv = some c'
        ∧ bitOf c.dflags 0 = true)
    ∧ (∃ (c c' : Core) (len : Nat) (rv : Rv) (e : CsrEnv) (op rd rs1 n : Nat) (useImm : Bool), c.compute len rv = some c'
        ∧ bitOf c.dflags 0 = true)
    ∧ (∃ (c c' : Core) (len : Nat) (rv : Rv) (e : CsrEnv) (op rd rs1 n : Nat) (useImm : Bool),
        c.csrOp e len op rd useImm rs1 n = some c' ∧ bitOf c.dflags 0 = true) :=
  ⟨⟨satCore, (satCore.xdlp 4 (.aclr 3)).getD Core.zero, 4, .aclr 3, ⟨0, 0, 0, 0, 0⟩, 0, 0, 0, 0, false, (by decide +kernel),
      (by decide +kernel)⟩,
   ⟨satCore, (satCore.compute 4 (.lui 31 0xFFFFF000)).getD Core.zero, 4, .lui 31 0xFFFFF000, ⟨0, 0, 0, 0, 0⟩, 0, 0, 0, 0,
       false, (by decide +kernel), (by decide +kernel)⟩,
   ⟨satCore, (satCore.csrOp ⟨0, 0, 0, 0, 0⟩ 4 3 31 true 1 0x806).getD Core.zero, 4, .illegal, ⟨0, 0, 0, 0, 0⟩, 3, 31, 1,
       0x806, true, (by decide +kernel), (by decide +kernel)⟩⟩

theorem wit_StallExecution :
    (∃ (s u : State) (p : Fin 68) (l : Fin 16) (dt len rd a b : Nat) (imm : Word), ∃ o : Alu,
        Issues s p l dt len (.alu o rd a b) u)
    ∧ (∃ (s u : State) (p : Fin 68) (l : Fin 16) (dt len rd a b : Nat) (imm : Word), Issues s p l dt len (.jal rd imm) u
        ∧ rd ≠ 0)
    ∧ (∃ (s u : State) (p : Fin 68) (l : Fin 16) (dt len rd a b : Nat) (imm : Word), ∃ cond,
        Issues s p l dt len (.branch cond a b imm) u)
    ∧ (∃ (s u : State) (p : Fin 68) (l : Fin 16) (dt len rd a b : Nat) (imm : Word), let k := 16 * p.val + l.val; Issues s p l dt len .illegal u ∧ u.saveReady k = true)
    ∧ (∃ (s u : State) (p : Fin 68) (l : Fin 16) (dt len rd a b : Nat) (imm : Word), let k := 16 * p.val + l.val; ∃ err v, (s.elapse dt).canIssue k = true ∧ (s.elapse dt).fetchReady k = true ∧ (s.elapse dt).fetchError k err = (v, true) ∧ v.saveReady k = true)
    ∧ (∃ (s u : State) (p : Fin 68) (l : Fin 16) (dt len rd a b : Nat) (imm : Word), let k := 16 * p.val + l.val; ∃ err v, (s.elapse dt).canIssue k = true ∧ (s.elapse dt).fetchReady k = true ∧ (s.elapse dt).fetchError k err = (v, false))
    ∧ (∃ (s u : State) (p : Fin 68) (l : Fin 16) (dt len rd a b : Nat) (imm : Word), let k := 16 * p.val + l.val; Issues s p l dt len .ebreak u ∧ u.saveReady k = true)
    ∧ (∃ (s u : State) (p : Fin 68) (l : Fin 16) (dt len rd a b : Nat) (imm : Word), let k := 16 * p.val + l.val; let c := u.coreOf p l; ∃ (n : Nat) (v : Word), Issues s p l dt len (.csr 2 rd false 0 n) u ∧ c.csrRead (u.csrEnv k) n = some v)
    ∧ (∃ (s u : State) (p : Fin 68) (l : Fin 16) (dt len rd a b : Nat) (imm : Word),
        Issues s p l dt len (.csr 1 0 false a 0x806) u)
    ∧ (∃ (s u : State) (p : Fin 68) (l : Fin 16) (dt len rd a b : Nat) (imm : Word), let k := 16 * p.val + l.val; let c := u.coreOf p l; ∃ op n, Issues s p l dt len (.csr op rd false a n) u ∧ c.csrRead (u.csrEnv k) n = none ∧ u.saveReady k = true)
    ∧ (∃ (s u : State) (p : Fin 68) (l : Fin 16) (dt len rd a b : Nat) (imm : Word), Issues s p l dt len .fence u)
    ∧ (∃ (s u : State) (p : Fin 68) (l : Fin 16) (dt len rd a b : Nat) (imm : Word), Issues s p l dt len .fenceI u) :=
  ⟨⟨regsSt 0x01F08FB3 [], fetched0 (regsSt 0x01F08FB3 []), 0, 0, 0, 4, 31, 1, 31, 0, .add, ⟨by decide +kernel,
      by decide +kernel, Prod.ext rfl (by decide +kernel)⟩⟩,
   ⟨regsSt 0xFFDFFFEF [], fetched0 (regsSt 0xFFDFFFEF []), 0, 0, 0, 4, 31, 0, 0, 0xFFFFFFFC, ⟨by decide +kernel,
       by decide +kernel, Prod.ext rfl (by decide +kernel)⟩, (by decide +kernel)⟩,
   ⟨regsSt 0xFFF0FEE3 [], fetched0 (regsSt 0xFFF0FEE3 []), 0, 0, 0, 4, 0, 1, 31, 0xFFFFFFFC, 7, ⟨by decide +kernel,
       by decide +kernel, Prod.ext rfl (by decide +kernel)⟩⟩,
   ⟨regsSt 0x0000007F [], fetched0 (regsSt 0x0000007F []), 0, 0, 0, 4, 0, 0, 0, 0, ⟨by decide +kernel, by decide +kernel,
       Prod.ext rfl (by decide +kernel)⟩, (by decide +kernel)⟩,
   ⟨regsSt 0x0000007F [], State.reset, 0, 0, 0, 0, 0, 0, 0, 0, .ue, (((regsSt 0x0000007F []).elapse 0).fetchError 0 .ue).1,
       (by decide +kernel), (by decide +kernel), Prod.ext rfl (by decide +kernel), (by decide +kernel)⟩,
   ⟨regsSt 0x0000007F [], State.reset, 0, 0, 0, 0, 0, 0, 0, 0, .ce, (((regsSt 0x0000007F []).elapse 0).fetchError 0 .ce).1,
       (by decide +kernel), (by decide +kernel), Prod.ext rfl (by decide +kernel)⟩,
   ⟨regsSt 0x00100073 [], fetched0 (regsSt 0x00100073 []), 0, 0, 0, 4, 0, 0, 0, 0, ⟨by decide +kernel, by decide +kernel,
       Prod.ext rfl (by decide +kernel)⟩, (by decide +kernel)⟩,
   ⟨regsSt 0xC00022F3 [], fetched0 (regsSt 0xC00022F3 []), 0, 0, 0, 4, 5, 0, 0, 0, 0xC00, 0, ⟨by decide +kernel,
       by decide +kernel, Prod.ext rfl (by decide +kernel)⟩, (by decide +kernel)⟩,
   ⟨regsSt 0x80609073 [], fetched0 (regsSt 0x80609073 []), 0, 0, 0, 4, 0, 1, 0, 0, ⟨by decide +kernel, by decide +kernel,
       Prod.ext rfl (by decide +kernel)⟩⟩,
   ⟨regsSt 0x300092F3 [], fetched0 (regsSt 0x300092F3 []), 0, 0, 0, 4, 5, 1, 0, 0, 1, 0x300, ⟨by decide +kernel,
       by decide +kernel, Prod.ext rfl (by decide +kernel)⟩, (by decide +kernel), (by decide +kernel)⟩,
   ⟨regsSt 0x0FF0000F [], fetched0 (regsSt 0x0FF0000F []), 0, 0, 0, 4, 0, 0, 0, 0, ⟨by decide +kernel, by decide +kernel,
       Prod.ext rfl (by decide +kernel)⟩⟩,
   ⟨regsSt 0x0000100F [], fetched0 (regsSt 0x0000100F []), 0, 0, 0, 4, 0, 0, 0, 0, ⟨by decide +kernel, by decide +kernel,
       Prod.ext rfl (by decide +kernel)⟩⟩⟩

theorem wit_StallLoads :
    (∃ (s u : State) (p : Fin 68) (l : Fin 16) (dt len rd a : Nat) (imm : Word), let k := 16 * p.val + l.val; let c := u.coreOf p l; ∃ (fp sg : Bool) (size : Nat), let ad := c.rx a + imm; Issues s p l dt len (.load fp rd a imm size sg) u ∧ isSem ad = false ∧ ad.toNat % size ≠ 0 ∧ u.saveReady k = true)
    ∧ (∃ (s u : State) (p : Fin 68) (l : Fin 16) (dt len rd a : Nat) (imm : Word), let k := 16 * p.val + l.val; let c := u.coreOf p l; ∃ (fp sg : Bool) (size : Nat), let ad := c.rx a + imm; Issues s p l dt len (.load fp rd a imm size sg) u ∧ isSem ad = false ∧ ∃ e, ad.toNat % size = 0 ∧ overlap (u.stall k).sb ad.toNat size = some e ∧ e.addr = ad ∧ e.size = size ∧ fp = false ∧ sg = false)
    ∧ (∃ (s u : State) (p : Fin 68) (l : Fin 16) (dt len rd a : Nat) (imm : Word), let k := 16 * p.val + l.val; let c := u.coreOf p l; ∃ (fp sg : Bool) (size : Nat), let ad := c.rx a + imm; Issues s p l dt len (.load fp rd a imm size sg) u ∧ isSem ad = false ∧ ad.toNat % size = 0 ∧ overlap (u.stall k).sb ad.toNat size = none ∧ (u.stallVerdict k ad.toNat 0).1.cause = 0 ∧ u.memReady (u.stallTarget k ad.toNat) = .yes)
    ∧ (∃ (s u : State) (p : Fin 68) (l : Fin 16) (dt len rd a : Nat) (imm : Word), let k := 16 * p.val + l.val; ∃ (d : PendLoad) (waits : Nat), (s.stall k).load = some d ∧ d.granted = true ∧ d.fp = false ∧ d.bit = none)
    ∧ (∃ (s u : State) (p : Fin 68) (l : Fin 16) (dt len rd a : Nat) (imm : Word), let c := u.coreOf p l; ∃ (o : Lop) (i : Instr), ((o = .lsh ∧ i = .lsh p l dt) ∨ (o = .lsw ∧ i = .lsw p l dt) ∨ (o = .lsp ∧ i = .lsp p l dt)) ∧ Issues s p l dt len (.l o rd a imm) u ∧ c.slabEA o a imm = none ∧ rd ≠ 0)
    ∧ (∃ (s u : State) (p : Fin 68) (l : Fin 16) (dt len rd a : Nat) (imm : Word), let k := 16 * p.val + l.val; let c := u.coreOf p l; ∃ ea, c.slabEA .lsh a imm = some ea ∧ Issues s p l dt len (.l .lsh rd a imm) u ∧ isSem ea = false ∧ ea.toNat % 2 = 0 ∧ overlap (u.stall k).sb ea.toNat 2 = none ∧ (u.stallVerdict k ea.toNat 0).1.cause = 0 ∧ u.memReady (u.stallTarget k ea.toNat) = .yes)
    ∧ (∃ (s u : State) (p : Fin 68) (l : Fin 16) (dt len rd a : Nat) (imm : Word), let k := 16 * p.val + l.val; let c := u.coreOf p l; ∃ ea, c.slabEA .lsw a imm = some ea ∧ Issues s p l dt len (.l .lsw rd a imm) u ∧ isSem ea = false ∧ ea.toNat % 4 = 0 ∧ overlap (u.stall k).sb ea.toNat 4 = none ∧ (u.stallVerdict k ea.toNat 0).1.cause = 0 ∧ u.memReady (u.stallTarget k ea.toNat) = .yes)
    ∧ (∃ (s u : State) (p : Fin 68) (l : Fin 16) (dt len rd a : Nat) (imm : Word), let k := 16 * p.val + l.val; let c := u.coreOf p l; ∃ ea, c.slabEA .lsp a imm = some ea ∧ Issues s p l dt len (.l .lsp rd a imm) u ∧ isSem ea = false ∧ ea.toNat % 4 = 0 ∧ overlap (u.stall k).sb ea.toNat 4 = none ∧ (u.stallVerdict k ea.toNat 0).1.cause = 0 ∧ u.memReady (u.stallTarget k ea.toNat) = .yes) :=
  ⟨⟨regsSt 0x00102283 [], fetched0 (regsSt 0x00102283 []), 0, 0, 0, 4, 5, 0, 1, false, true, 4, ⟨by decide +kernel,
      by decide +kernel, Prod.ext rfl (by decide +kernel)⟩, (by decide +kernel), (by decide +kernel), (by decide +kernel)⟩,
   ⟨stallSt 0x7FE05283 (fun x => { x with sb := [⟨0x7FE, 2, 7⟩] }),
       fetched0 (stallSt 0x7FE05283 (fun x => { x with sb := [⟨0x7FE, 2, 7⟩] })), 0, 0, 0, 4, 5, 0, 0x7FE, false, false, 2,
       ⟨by decide +kernel, by decide +kernel, Prod.ext rfl (by decide +kernel)⟩, (by decide +kernel), ⟨0x7FE, 2, 7⟩,
       (by decide +kernel), (by decide +kernel), (by decide +kernel), (by decide +kernel), (by decide +kernel),
       (by decide +kernel)⟩,
   ⟨regsSt 0x0000AF83 [(1, 0xEEFC)], fetched0 (regsSt 0x0000AF83 [(1, 0xEEFC)]), 0, 0, 0, 4, 31, 1, 0, false, true, 4,
       ⟨by decide +kernel, by decide +kernel, Prod.ext rfl (by decide +kernel)⟩, (by decide +kernel), (by decide +kernel),
       (by decide +kernel), (by decide +kernel), (by decide +kernel)⟩,
   ⟨stallSt 0 fun x => { x with load := some ⟨false, 31, 0xEEFC, 4, true, none, true, 4⟩ }, State.reset, 0, 0, 0, 0, 0, 0, 0,
       ⟨false, 31, 0xEEFC, 4, true, none, true, 4⟩, 0, (by decide +kernel), (by decide +kernel), (by decide +kernel),
       (by decide +kernel)⟩,
   ⟨regsSt 0x018613AB [], fetched0 (regsSt 0x018613AB []), 0, 0, 0, 4, 7, 12, 24, .lsw, .lsw 0 0 0, (by decide +kernel),
       ⟨by decide +kernel, by decide +kernel, Prod.ext rfl (by decide +kernel)⟩, (by decide +kernel), (by decide +kernel)⟩,
   ⟨stallSt 0x03E603AB (fun x => { x with core := { x.core with win := 0x10000000, wdata := 0x100, wpres := 0x80, wstride := 128, welem := 64, wlim := 0x00020002 } }), fetched0 (stallSt 0x03E603AB (fun x => { x with core := { x.core with win := 0x10000000, wdata := 0x100, wpres := 0x80, wstride := 128, welem := 64, wlim := 0x00020002 } })), 0, 0, 0, 4, 7, 12, 62, 0x1000013E, (by decide +kernel), ⟨by decide +kernel, by decide +kernel, Prod.ext rfl (by decide +kernel)⟩, (by decide +kernel), (by decide +kernel), (by decide +kernel), (by decide +kernel), (by decide +kernel)⟩,
   ⟨stallSt 0x03C613AB (fun x => { x with core := { x.core with win := 0x10000000, wdata := 0x100, wpres := 0x80, wstride := 128, welem := 64, wlim := 0x00020002 } }), fetched0 (stallSt 0x03C613AB (fun x => { x with core := { x.core with win := 0x10000000, wdata := 0x100, wpres := 0x80, wstride := 128, welem := 64, wlim := 0x00020002 } })), 0, 0, 0, 4, 7, 12, 60, 0x1000013C, (by decide +kernel), ⟨by decide +kernel, by decide +kernel, Prod.ext rfl (by decide +kernel)⟩, (by decide +kernel), (by decide +kernel), (by decide +kernel), (by decide +kernel), (by decide +kernel)⟩,
   ⟨stallSt 0x000623AB (fun x => { x with core := { x.core with win := 0x10000000, wdata := 0x100, wpres := 0x80, wstride := 128, welem := 64, wlim := 0x00020002 } }), fetched0 (stallSt 0x000623AB (fun x => { x with core := { x.core with win := 0x10000000, wdata := 0x100, wpres := 0x80, wstride := 128, welem := 64, wlim := 0x00020002 } })), 0, 0, 0, 4, 7, 12, 0, 0x10000080, (by decide +kernel), ⟨by decide +kernel, by decide +kernel, Prod.ext rfl (by decide +kernel)⟩, (by decide +kernel), (by decide +kernel), (by decide +kernel), (by decide +kernel), (by decide +kernel)⟩⟩

theorem wit_StallStores :
    (∃ (s u : State) (p : Fin 68) (l : Fin 16) (dt len r a : Nat) (imm : Word), let k := 16 * p.val + l.val; let c := u.coreOf p l; let ad := c.rx a + imm; ∃ (fp : Bool) (size : Nat), Issues s p l dt len (.store fp r a imm size) u ∧ ad.toNat % size ≠ 0 ∧ u.saveReady k = true)
    ∧ (∃ (s u : State) (p : Fin 68) (l : Fin 16) (dt len r a : Nat) (imm : Word), let k := 16 * p.val + l.val; let c := u.coreOf p l; let ad := c.rx a + imm; ∃ (fp : Bool) (size : Nat), Issues s p l dt len (.store fp r a imm size) u ∧ ad.toNat % size = 0 ∧ isSem ad = false ∧ (u.stall k).sb.length < 4)
    ∧ (∃ (s u : State) (p : Fin 68) (l : Fin 16) (dt len r a : Nat) (imm : Word), let k := 16 * p.val + l.val; ∃ (waits : Nat) (e : SbEnt) (rest : List SbEnt), let tg := s.stallTarget k e.addr.toNat; (s.stall k).sb = e :: rest ∧ (s.stallVerdict k e.addr.toNat 1).1.cause = 0 ∧ s.memReady tg = .yes ∧ ((∃ j o, tg = .localMem j o) ∨ (∃ q o, tg = .shedMem q o) ∨ ∃ h, tg = .hist h))
    ∧ (∃ (s u : State) (p : Fin 68) (l : Fin 16) (dt len r a : Nat) (imm : Word), let k := 16 * p.val + l.val; let c := u.coreOf p l; let ad := c.rx a + imm; let n := (ad.toNat - 0x200000) / 4; Issues s p l dt len (.load false r a imm 4 true) u ∧ isSem ad = true ∧ ad.toNat % 4 = 0 ∧ (u.stall k).sb = [] ∧ u.semEvents p u.pending = [] ∧ bitOf (u.get (sh F.SHED_SEM_EN p)) n = true ∧ Table.find n (u.shed p).holders = none ∧ u.semOwner p n = ((u.stall k).item.map itSlice).getD 0) :=
  ⟨⟨regsSt 0x005020A3 [], fetched0 (regsSt 0x005020A3 []), 0, 0, 0, 4, 5, 0, 1, false, 4, ⟨by decide +kernel,
      by decide +kernel, Prod.ext rfl (by decide +kernel)⟩, (by decide +kernel), (by decide +kernel)⟩,
   ⟨stallSt 0x7FF02E23 (fun x => { x with sb := [⟨0, 4, 0⟩, ⟨4, 4, 0⟩, ⟨8, 4, 0⟩] }),
       fetched0 (stallSt 0x7FF02E23 (fun x => { x with sb := [⟨0, 4, 0⟩, ⟨4, 4, 0⟩, ⟨8, 4, 0⟩] })), 0, 0, 0, 4, 31, 0, 0x7FC,
       false, 4, ⟨by decide +kernel, by decide +kernel, Prod.ext rfl (by decide +kernel)⟩, (by decide +kernel),
       (by decide +kernel), (by decide +kernel)⟩,
   ⟨stallSt 0 fun x => { x with sb := [⟨0xEEFC, 4, 0xFFFFFFFF⟩] }, State.reset, 0, 0, 0, 0, 0, 0, 0, 0, ⟨0xEEFC, 4,
       0xFFFFFFFF⟩, [], (by decide +kernel), (by decide +kernel), (by decide +kernel), .inl ⟨0, 0xEEFC, by decide +kernel⟩⟩,
   ⟨(regsSt 0x07C0A283 [(1, 0x200000)]).put (sh F.SHED_SEM_EN 0) 0x80000000, fetched0 ((regsSt 0x07C0A283 [(1,
       0x200000)]).put (sh F.SHED_SEM_EN 0) 0x80000000), 0, 0, 0, 4, 5, 1, 0x7C, ⟨by decide +kernel, by decide +kernel,
       Prod.ext rfl (by decide +kernel)⟩, (by decide +kernel), (by decide +kernel), (by decide +kernel), (by decide +kernel),
       (by decide +kernel), (by decide +kernel), (by decide +kernel)⟩⟩

theorem wit_SemaphoreRelease :
    (∃ (s u : State) (p : Fin 68) (l : Fin 16) (dt len r a size : Nat) (imm : Word) (fp : Bool), let k := 16 * p.val + l.val; let c := u.coreOf p l; let ad := c.rx a + imm; let n := (ad.toNat - 0x200000) / 4; Issues s p l dt len (.store fp r a imm size) u ∧ isSem ad = true ∧ ad.toNat % size = 0 ∧ (u.stall k).sb = [] ∧ u.semWasEarly p n l.val = true)
    ∧ (∃ (s u : State) (p : Fin 68) (l : Fin 16) (dt len r a size : Nat) (imm : Word) (fp : Bool), let k := 16 * p.val + l.val; let c := u.coreOf p l; let ad := c.rx a + imm; let n := (ad.toNat - 0x200000) / 4; Issues s p l dt len (.store fp r a imm size) u ∧ isSem ad = true ∧ ad.toNat % size = 0 ∧ (u.stall k).sb = [] ∧ u.semWasEarly p n l.val = false ∧ Table.find n (u.shed p).holders = some l.val)
    ∧ (∃ (s u : State) (p : Fin 68) (l : Fin 16) (dt len r a size : Nat) (imm : Word) (fp : Bool), let k := 16 * p.val + l.val; let c := u.coreOf p l; let ad := c.rx a + imm; let n := (ad.toNat - 0x200000) / 4; Issues s p l dt len (.store fp r a imm size) u ∧ isSem ad = true ∧ ad.toNat % size = 0 ∧ (u.stall k).sb = [] ∧ u.semWasEarly p n l.val = false ∧ Table.find n (u.shed p).holders ≠ some l.val) :=
  ⟨⟨(regsSt 0x0650AE23 [(1, 0x200000)]).setShed 0 fun x => { x with early := [(31, 0, 0)] },
      fetched0 ((regsSt 0x0650AE23 [(1, 0x200000)]).setShed 0 fun x => { x with early := [(31, 0, 0)] }), 0, 0, 0, 4, 5, 1,
      4, 0x7C, false, ⟨by decide +kernel, by decide +kernel, Prod.ext rfl (by decide +kernel)⟩, (by decide +kernel),
      (by decide +kernel), (by decide +kernel), (by decide +kernel)⟩,
   ⟨(regsSt 0x0650AE23 [(1, 0x200000)]).setShed 0 fun x => { x with holders := [(31, 0)] }, fetched0 ((regsSt 0x0650AE23 [(1,
       0x200000)]).setShed 0 fun x => { x with holders := [(31, 0)] }), 0, 0, 0, 4, 5, 1, 4, 0x7C, false, ⟨by decide +kernel,
       by decide +kernel, Prod.ext rfl (by decide +kernel)⟩, (by decide +kernel), (by decide +kernel), (by decide +kernel),
       (by decide +kernel), (by decide +kernel)⟩,
   ⟨(regsSt 0x00508023 [(1, 0x200000)]).setShed 0 fun x => { x with holders := [(0, 1)] }, fetched0 ((regsSt 0x00508023 [(1,
       0x200000)]).setShed 0 fun x => { x with holders := [(0, 1)] }), 0, 0, 0, 4, 5, 1, 1, 0, false, ⟨by decide +kernel,
       by decide +kernel, Prod.ext rfl (by decide +kernel)⟩, (by decide +kernel), (by decide +kernel), (by decide +kernel),
       (by decide +kernel), (by decide +kernel)⟩⟩

theorem wit_StallServices :
    (∃ (s u : State) (p : Fin 68) (l : Fin 16) (dt len : Nat) (i : Item), let k := 16 * p.val + l.val; let c := u.coreOf p l; u.saveReady k = true ∧ (u.stall k).item = some i ∧ Issues s p l dt len .ecall u ∧ (c.rx 17).toNat = 0)
    ∧ (∃ (s u : State) (p : Fin 68) (l : Fin 16) (dt len : Nat) (i : Item), let k := 16 * p.val + l.val; let c := u.coreOf p l; u.saveReady k = true ∧ (u.stall k).item = some i ∧ Issues s p l dt len .ecall u ∧ (c.rx 17).toNat = 3)
    ∧ (∃ (s u : State) (p : Fin 68) (l : Fin 16) (dt len : Nat) (i : Item), let k := 16 * p.val + l.val; let c := u.coreOf p l; u.saveReady k = true ∧ (u.stall k).item = some i ∧ Issues s p l dt len .ecall u ∧ (c.rx 17).toNat = 2)
    ∧ (∃ (s u : State) (p : Fin 68) (l : Fin 16) (dt len : Nat) (i : Item), let k := 16 * p.val + l.val; let c := u.coreOf p l; u.saveReady k = true ∧ (u.stall k).item = some i ∧ Issues s p l dt len .ecall u ∧ 3 < (c.rx 17).toNat)
    ∧ (∃ (s u : State) (p : Fin 68) (l : Fin 16) (dt len : Nat) (i : Item), let k := 16 * p.val + l.val; let c := u.coreOf p l; u.saveReady k = true ∧ (u.stall k).item = some i ∧ Issues s p l dt len .ecall u ∧ (c.rx 17).toNat = 1 ∧ (9216 < (c.rx 11).toNat ∨ 0xEF00 < (c.rx 10).toNat + (c.rx 11).toNat))
    ∧ (∃ (s u : State) (p : Fin 68) (l : Fin 16) (dt len : Nat) (i : Item), let k := 16 * p.val + l.val; let c := u.coreOf p l; let v := u.trapSave k 8 0; u.saveReady k = true ∧ (u.stall k).item = some i ∧ Issues s p l dt len .ecall u ∧ ∃ b, (c.rx 17).toNat = 1 ∧ (c.rx 11).toNat ≤ 9216 ∧ (c.rx 10).toNat + (c.rx 11).toNat ≤ 0xEF00 ∧ v.scratchRead k (c.rx 10).toNat (c.rx 11).toNat = (v, b))
    ∧ (∃ (s u : State) (p : Fin 68) (l : Fin 16) (dt len : Nat) (i : Item), let k := 16 * p.val + l.val; u.saveReady k = true ∧ (u.stall k).item = some i ∧ (s.elapse dt).canIssue k = true ∧ (s.elapse dt).fetch k = (u, .stub)) :=
  ⟨⟨regsSt 0x00000073 [], fetched0 (regsSt 0x00000073 []), 0, 0, 0, 4, item0, (by decide +kernel), (by decide +kernel),
      ⟨by decide +kernel, by decide +kernel, Prod.ext rfl (by decide +kernel)⟩, (by decide +kernel)⟩,
   ⟨regsSt 0x00000073 [(17, 3)], fetched0 (regsSt 0x00000073 [(17, 3)]), 0, 0, 0, 4, item0, (by decide +kernel),
       (by decide +kernel), ⟨by decide +kernel, by decide +kernel, Prod.ext rfl (by decide +kernel)⟩, (by decide +kernel)⟩,
   ⟨regsSt 0x00000073 [(17, 2)], fetched0 (regsSt 0x00000073 [(17, 2)]), 0, 0, 0, 4, item0, (by decide +kernel),
       (by decide +kernel), ⟨by decide +kernel, by decide +kernel, Prod.ext rfl (by decide +kernel)⟩, (by decide +kernel)⟩,
   ⟨regsSt 0x00000073 [(17, 4)], fetched0 (regsSt 0x00000073 [(17, 4)]), 0, 0, 0, 4, item0, (by decide +kernel),
       (by decide +kernel), ⟨by decide +kernel, by decide +kernel, Prod.ext rfl (by decide +kernel)⟩, (by decide +kernel)⟩,
   ⟨regsSt 0x00000073 [(17, 1), (11, 9217)], fetched0 (regsSt 0x00000073 [(17, 1), (11, 9217)]), 0, 0, 0, 4, item0,
       (by decide +kernel), (by decide +kernel), ⟨by decide +kernel, by decide +kernel, Prod.ext rfl (by decide +kernel)⟩,
       (by decide +kernel), (by decide +kernel)⟩,
   ⟨regsSt 0x00000073 [(17, 1), (10, 0xEEF0), (11, 16)], fetched0 (regsSt 0x00000073 [(17, 1), (10, 0xEEF0), (11, 16)]), 0,
       0, 0, 4, item0, (by decide +kernel), (by decide +kernel), ⟨by decide +kernel, by decide +kernel,
       Prod.ext rfl (by decide +kernel)⟩, ((outSt.trapSave 0 8 0).scratchRead 0 0xEEF0 16).2, (by decide +kernel),
       (by decide +kernel), (by decide +kernel), Prod.ext rfl rfl⟩,
   ⟨stallSt 0 fun x => { x with core := { x.core with pc := 0x30000 } },
       fetched0 (stallSt 0 fun x => { x with core := { x.core with pc := 0x30000 } }), 0, 0, 0, 0, item0,
       (by decide +kernel), (by decide +kernel), (by decide +kernel), rfl⟩⟩

theorem wit_ShedControl :
    (∃ (m : Master) (s : State) (p : Fin 68) (d : Nat), Reaches s m (0x800000 + 0x1000 * p) ∧ bitOf d 0 = true
        ∧ bitOf d 1 = false ∧ s.bit (sh F.SHED_CTRL_EN p) = false ∧ s.posFree p = true)
    ∧ (∃ (m : Master) (s : State) (p : Fin 68) (d : Nat), Reaches s m (0x800000 + 0x1000 * p) ∧ bitOf d 0 = true
        ∧ bitOf d 1 = false ∧ s.bit (sh F.SHED_CTRL_EN p) = false ∧ s.posFree p = false)
    ∧ (∃ (m : Master) (s : State) (p : Fin 68) (d : Nat), Reaches s m (0x800000 + 0x1000 * p) ∧ bitOf d 0 = false
        ∧ s.bit (sh F.SHED_CTRL_EN p) = true)
    ∧ (∃ (s : State) (p : Fin 68), s.bit (sh F.SHED_STATUS_INIT_BUSY p) = true)
    ∧ (∃ (m : Master) (s : State) (p : Fin 68) (d n : Nat), Reaches s m (0x80004C + 0x1000 * p) ∧ n < 32 ∧ bitOf d n = true
        ∧ (Table.find n (s.shed p).holders).isSome = true) :=
  ⟨⟨.yardmaster, State.reset, 0, 1, (by unfold Reaches; decide +kernel), (by decide +kernel), (by decide +kernel),
      (by decide +kernel), (by decide +kernel)⟩,
   ⟨.yardmaster, st [(sh F.SHED_CTRL_EN 1, 1), (fixRst (sh F.SHED_CFG 1), 0)], 0, 1, (by unfold Reaches; decide +kernel),
       (by decide +kernel), (by decide +kernel), (by decide +kernel), (by decide +kernel)⟩,
   ⟨.yardmaster, st [(sh F.SHED_CTRL_EN 0, 1)], 0, 0, (by unfold Reaches; decide +kernel), (by decide +kernel),
       (by decide +kernel)⟩,
   ⟨st [(sh F.SHED_STATUS_INIT_BUSY 0, 1)], 0, (by decide +kernel)⟩,
   ⟨.yardmaster, State.reset.setShed 0 fun x => { x with holders := [(31, 0)] }, 0, 0x80000000, 31,
       (by unfold Reaches; decide +kernel), (by decide +kernel), (by decide +kernel), (by decide +kernel)⟩⟩

theorem wit_SramStates :
    (∃ (m : Master) (s : State) (p : Fin 68) (d : Nat) (b : Fin 16), Reaches s m (0x800018 + 0x1000 * p) ∧ let v := bitsOf d (2 * b) 2; v ≠ 3 ∧ (v = 2 → bitOf (s.get (sh F.SHED_BANK_LIVE p)) b = false))
    ∧ (∃ (m : Master) (s : State) (p : Fin 68) (d : Nat) (b : Fin 16), Reaches s m (0x800018 + 0x1000 * p) ∧ let v := bitsOf d (2 * b) 2; v = 3)
    ∧ (∃ (m : Master) (s : State) (p : Fin 68) (d : Nat) (b : Fin 16), Reaches s m (0x800018 + 0x1000 * p) ∧ let v := bitsOf d (2 * b) 2; v = 2 ∧ bitOf (s.get (sh F.SHED_BANK_LIVE p)) b = true)
    ∧ (∃ (m : Master) (s : State) (p : Fin 68) (d : Nat) (l : Fin 16), Reaches s m (0x800050 + 0x1000 * p) ∧ let v := bitsOf d (2 * l) 2; v = 2)
    ∧ (∃ (s : State) (p : Fin 68) (b : Fin 16) (dt : Nat), (s.shed p).waking.contains b.val = true)
    ∧ (∃ (s : State) (p : Fin 68) (b : Fin 16) (dt : Nat), (s.shed p).stallWaking.contains b.val = true)
    ∧ (∃ (s : State) (p : Fin 68) (b : Fin 16) (dt : Nat), s.bit F.PWR_CTRL = true ∧ s.shedRuns p = true
        ∧ (s.shed p).waking.contains b.val = false ∧ bitOf (s.get (sh F.SHED_BANK_LIVE p)) b = true ∧ s.bankState p b = 0
        ∧ s.get F.PWR_POLICY_BANK_IDLE + Table.at 0 b.val (s.shed p).bankBeat ≤ s.beat)
    ∧ (∃ (s : State) (p : Fin 68) (b : Fin 16) (dt : Nat), s.bit F.PWR_CTRL = true ∧ s.shedRuns p = true
        ∧ s.ramState (16 * p.val + b.val) = 0 ∧ (s.stall (16 * p.val + b.val)).item = none
        ∧ s.get F.PWR_POLICY_BANK_IDLE + (s.stall (16 * p.val + b.val)).handBeat ≤ s.beat) :=
  ⟨⟨.yardmaster, State.reset, 0, 0, 0, (by unfold Reaches; decide +kernel), (by decide +kernel), (by decide +kernel)⟩,
   ⟨.yardmaster, State.reset, 0, 0xC0000000, 15, (by unfold Reaches; decide +kernel), (by decide +kernel)⟩,
   ⟨.yardmaster, st [(sh F.SHED_BANK_LIVE 0, 0x8000)], 0, 0x80000000, 15, (by unfold Reaches; decide +kernel),
       (by decide +kernel), (by decide +kernel)⟩,
   ⟨.yardmaster, State.reset, 0, 0x80000000, 15, (by unfold Reaches; decide +kernel), (by decide +kernel)⟩,
   ⟨State.reset.setShed 0 fun x => { x with waking := [15] }, 0, 15, 0, (by decide +kernel)⟩,
   ⟨State.reset.setShed 0 fun x => { x with stallWaking := [15] }, 0, 15, 0, (by decide +kernel)⟩,
   ⟨st [(F.PWR_CTRL, 1), (sh F.SHED_STATUS_RUNNING 0, 1), (sh F.SHED_BANK_LIVE 0, 0x8000), (F.BEAT_NUM, 16)], 0, 15, 0,
       (by decide +kernel), (by decide +kernel), (by decide +kernel), (by decide +kernel), (by decide +kernel),
       (by decide +kernel)⟩,
   ⟨st [(F.PWR_CTRL, 1), (sh F.SHED_STATUS_RUNNING 0, 1), (F.BEAT_NUM, 16)], 0, 15, 0, (by decide +kernel),
       (by decide +kernel), (by decide +kernel), (by decide +kernel), (by decide +kernel)⟩⟩

theorem wit_HandOverItem : ∃ (s : State) (dt tier x k : Nat) (i : Item),
      let u := s.elapse dt; let v := ((u.sweep u.groom.ready.length).joinPool).markCap; u.dispatching = true
      ∧ v.nextHand = some (i, tier, x) ∧ v.stallPhys x = some k :=
  ⟨handSt, 0, 1, 1023, 1087, itemT, (by decide +kernel), (by decide +kernel), (by decide +kernel)⟩

theorem wit_GroomTables :
    (∃ (m : Master) (s : State) (d : Nat), Reaches s m 0x700000 ∧ bitOf d 0 = true ∧ s.bit F.GROOM_CTRL = false
        ∧ s.groomOk = true)
    ∧ (∃ (m : Master) (s : State) (d : Nat), Reaches s m 0x700000 ∧ bitOf d 0 = true ∧ s.bit F.GROOM_CTRL = false
        ∧ s.groomOk = false)
    ∧ (∃ (m : Master) (s : State) (d : Nat), Reaches s m 0x700000 ∧ bitOf d 0 = false)
    ∧ (∃ (m : Master) (s : State), Reaches s m 0x700034 ∧ ∃ i, i < 16)
    ∧ (∃ (m : Master) (s : State), Reaches s m 0x700034 ∧ let n := s.get F.GROOM_IACC_IDX; let d := s.getBytes F.GROOM_IACC_DATAn 16; s.bit F.GROOM_CTRL = false ∧ n < 32768 ∧ (dValid d = true → s.descRefusal false false d = 0))
    ∧ (∃ (m : Master) (s : State), Reaches s m 0x700034 ∧ let n := s.get F.GROOM_IACC_IDX; let d := s.getBytes F.GROOM_IACC_DATAn 16; s.bit F.GROOM_CTRL = false ∧ n < 32768 ∧ dValid d = true ∧ s.descRefusal false false d ≠ 0)
    ∧ (∃ (m : Master) (s : State), Reaches s m 0x700034 ∧ let n := s.get F.GROOM_IACC_IDX; (s.bit F.GROOM_CTRL = true ∨ 32768 ≤ n) ∧ ∃ i : Instr, (i = .groomIaccWrite m ∨ i = .groomIaccInvalidate m))
    ∧ (∃ (m : Master) (s : State), Reaches s m 0x700084 ∧ ∃ i, i < 4)
    ∧ (∃ (m : Master) (s : State), Reaches s m 0x700084 ∧ let b := s.getBytes F.GROOM_FACC_DATAn 4; s.bit F.GROOM_CTRL = false ∧ leAt b 4 2 ≤ 1024 ∧ (leAt b 6 1 < 64 ∨ leAt b 6 1 = 0x7F) ∧ leAt b 9 1 = 0)
    ∧ (∃ (m : Master) (s : State), Reaches s m 0x700084 ∧ s.bit F.GROOM_CTRL = true)
    ∧ (∃ (m : Master) (s : State), Reaches s m 0x700084 ∧ let f := s.get F.GROOM_FACC_IDX; ∃ (dest : Fin 128) (pos ofs : Nat), (s.flowRec f).movePending = false ∧ (s.flowRec f).pageValid = true ∧ s.movable (s.flowRec f).pos = true ∧ (s.choosePos (if dest.val = 0x7F then (s.flowRec f).home else dest) (64 * (s.flowRec f).len) (fun p => p != (s.flowRec f).pos && s.takesPage p && (dest.val == 0x7F || dest.val == p)) = some (pos, ofs)))
    ∧ (∃ (m : Master) (s : State), Reaches s m 0x700084 ∧ let f := s.get F.GROOM_FACC_IDX; ∃ dest : Fin 128, (s.flowRec f).movePending = true)
    ∧ (∃ (m : Master) (s : State) (n : Fin 256) (i : Nat), Reaches s m 0x7000A0 ∧ i < 16)
    ∧ (∃ (m : Master) (s : State) (n : Fin 8192) (i : Nat), Reaches s m 0x700108 ∧ i < 4) :=
  ⟨⟨.yardmaster, State.reset, 1, (by unfold Reaches; decide +kernel), (by decide +kernel), (by decide +kernel),
      (by decide +kernel)⟩,
   ⟨.yardmaster, st [(F.GROOM_FCAST_CFG_MIN_Q, 0)], 1, (by unfold Reaches; decide +kernel), (by decide +kernel),
       (by decide +kernel), (by decide +kernel)⟩,
   ⟨.yardmaster, State.reset, 0, (by unfold Reaches; decide +kernel), (by decide +kernel)⟩,
   ⟨.yardmaster, State.reset, (by unfold Reaches; decide +kernel), 15, (by decide +kernel)⟩,
   ⟨.yardmaster, State.reset, (by unfold Reaches; decide +kernel), (by decide +kernel), (by decide +kernel),
       (by decide +kernel)⟩,
   ⟨.yardmaster, st [(F.GROOM_IACC_IDX, 32767), (F.GROOM_IACC_DATAn.idx 0, 1)], (by unfold Reaches; decide +kernel),
       (by decide +kernel), (by decide +kernel), (by decide +kernel), (by decide +kernel)⟩,
   ⟨.yardmaster, st [(F.GROOM_IACC_IDX, 32768)], (by unfold Reaches; decide +kernel), (by decide +kernel),
       .groomIaccWrite .yardmaster, .inl rfl⟩,
   ⟨.yardmaster, State.reset, (by unfold Reaches; decide +kernel), 3, (by decide +kernel)⟩,
   ⟨.yardmaster, State.reset, (by unfold Reaches; decide +kernel), (by decide +kernel), (by decide +kernel),
       (by decide +kernel), (by decide +kernel)⟩,
   ⟨.yardmaster, st [(F.GROOM_CTRL, 1)], (by unfold Reaches; decide +kernel), (by decide +kernel)⟩,
   ⟨.yardmaster,
       { st [(sh F.SHED_CTRL_EN 0, 1), (sh F.SHED_CTRL_EN 67, 1), (fixRst (sh F.SHED_CFG 67), 63), (F.GROOM_FACC_IDX, 65535)] with groom := { State.reset.groom with flows := [(65535, { FlowRec.empty with pageValid := true, len := 3 })] } }, (by unfold Reaches; decide +kernel), 0x7F, 63, 0, (by decide +kernel), (by decide +kernel), (by decide +kernel), (by decide +kernel)⟩,
   ⟨.yardmaster,
       { st [(F.GROOM_FACC_IDX, 65535)] with groom := { State.reset.groom with flows := [(65535, { FlowRec.empty with movePending := true })] } }, (by unfold Reaches; decide +kernel), 0, (by decide +kernel)⟩,
   ⟨.yardmaster, State.reset, 0, 15, (by unfold Reaches; decide +kernel), (by decide +kernel)⟩,
   ⟨.yardmaster, State.reset, 0, 3, (by unfold Reaches; decide +kernel), (by decide +kernel)⟩⟩

theorem wit_GuardTables :
    (let legal (s : State) : Prop := (∀ n, n < 256 → ∀ c, c = s.scrCol n ∨ c = s.histCol n ∨ c = s.stateCol n → 2 ≤ c ∧ c ≤ 0xFE) ∧ ∀ r ∈ s.guard.regions, reValid r.2 = true → reOk r.2 = true; ∃ (m : Master) (s : State) (d : Nat), Reaches s m 0xD00000 ∧ bitOf d 0 = true ∧ s.bit F.GUARD_CTRL = false ∧ legal s)
    ∧ (let legal (s : State) : Prop := (∀ n, n < 256 → ∀ c, c = s.scrCol n ∨ c = s.histCol n ∨ c = s.stateCol n → 2 ≤ c ∧ c ≤ 0xFE) ∧ ∀ r ∈ s.guard.regions, reValid r.2 = true → reOk r.2 = true; ∃ (m : Master) (s : State) (d : Nat), Reaches s m 0xD00000 ∧ bitOf d 0 = true ∧ s.bit F.GUARD_CTRL = false ∧ ¬legal s)
    ∧ (∃ (m : Master) (s : State) (d : Nat), Reaches s m 0xD00000 ∧ bitOf d 0 = false)
    ∧ (∃ (m : Master) (s : State), Reaches s m 0xD00024 ∧ 4 ≤ s.get F.GUARD_RACC_IDX_REGION ∧ ∃ i, i < 4)
    ∧ (∃ (m : Master) (s : State), Reaches s m 0xD00024 ∧ let e := s.getBytes F.GUARD_RACC_DATAn 4; s.bit F.GUARD_CTRL = false ∧ 4 ≤ s.get F.GUARD_RACC_IDX_REGION ∧ (reValid e = true → reOk e = true) ∧ ∃ k, k ≠ s.raccKey)
    ∧ (∃ (m : Master) (s : State), Reaches s m 0xD00024 ∧ let e := s.getBytes F.GUARD_RACC_DATAn 4; s.bit F.GUARD_CTRL = false ∧ 4 ≤ s.get F.GUARD_RACC_IDX_REGION ∧ reValid e = true ∧ reOk e = false)
    ∧ (∃ (m : Master) (s : State), Reaches s m 0xD00024 ∧ s.bit F.GUARD_CTRL = true ∧ ∃ i : Instr,
        (i = .guardRaccWrite m ∨ i = .guardRaccInvalidate m))
    ∧ (∃ (m : Master) (s : State), Reaches s m 0xD00024 ∧ s.bit F.GUARD_CTRL = false ∧ s.get F.GUARD_RACC_IDX_REGION < 4
        ∧ ∃ i : Instr, (i = .guardRaccRead m ∨ i = .guardRaccWrite m ∨ i = .guardRaccInvalidate m)) :=
  ⟨⟨.yardmaster, State.reset, 1, (by unfold Reaches; decide +kernel), (by decide +kernel), (by decide +kernel),
      ⟨fun n hn c hc => (show ∀ k : Fin 256, (2 ≤ State.reset.scrCol k ∧ State.reset.scrCol k ≤ 0xFE)
      ∧ (2 ≤ State.reset.histCol k ∧ State.reset.histCol k ≤ 0xFE) ∧ (2 ≤ State.reset.stateCol k
      ∧ State.reset.stateCol k ≤ 0xFE) by decide +kernel) ⟨n,
      hn⟩ |> fun h => by exact hc.elim (fun a => a ▸ h.1) fun a => a.elim (fun b => b ▸ h.2.1) fun b => b ▸ h.2.2,
      by decide⟩⟩,
   ⟨.yardmaster, State.reset.setGuard fun g => { g with regions := [(4095, setLe [] 11 1 1)] }, 1,
       (by unfold Reaches; decide +kernel), (by decide +kernel), (by decide +kernel), fun h => absurd (h.2 (4095,
       setLe [] 11 1 1) (by decide +kernel) (by decide +kernel)) (by decide +kernel)⟩,
   ⟨.yardmaster, State.reset, 0, (by unfold Reaches; decide +kernel), (by decide +kernel)⟩,
   ⟨.yardmaster, st [(F.GUARD_RACC_IDX_REGION, 4)], (by unfold Reaches; decide +kernel), (by decide +kernel), 3,
       (by decide +kernel)⟩,
   ⟨.yardmaster, st [(F.GUARD_RACC_IDX_REGION, 15), (F.GUARD_RACC_IDX_SLICE, 255)], (by unfold Reaches; decide +kernel),
       (by decide +kernel), (by decide +kernel), (by decide +kernel), 0, (by decide +kernel)⟩,
   ⟨.yardmaster, st [(F.GUARD_RACC_IDX_REGION, 15), (F.GUARD_RACC_IDX_SLICE, 255), (F.GUARD_RACC_DATAn.idx 2, 0x01000000)],
       (by unfold Reaches; decide +kernel), (by decide +kernel), (by decide +kernel), (by decide +kernel),
       (by decide +kernel)⟩,
   ⟨.yardmaster, st [(F.GUARD_CTRL, 1)], (by unfold Reaches; decide +kernel), (by decide +kernel),
       .guardRaccWrite .yardmaster, (by decide +kernel)⟩,
   ⟨.yardmaster, State.reset, (by unfold Reaches; decide +kernel), (by decide +kernel), (by decide +kernel),
       .guardRaccRead .yardmaster, (by decide +kernel)⟩⟩

theorem wit_TagsAndReports :
    (∃ (m : Master) (s : State) (c : Nat) (tgt : Target) (size g : Nat), Reaches s m 0xD0004C ∧ s.tagMem = some (tgt, size, g) ∧ let o := s.get F.GUARD_TAG_OFS; o % g = 0 ∧ o < size)
    ∧ (∃ (m : Master) (s : State) (c : Nat) (tgt : Target) (size g : Nat), Reaches s m 0xD0004C ∧ s.tagMem = some (tgt, size, g) ∧ let o := s.get F.GUARD_TAG_OFS; let n := s.get F.GUARD_TAG_LEN; let ring := s.get F.GUARD_TAG_SEL_MEM = 0 ∧ ∃ k ∈ s.liveGroups, geBase (s.group k).e < o + n ∧ o < geBase (s.group k).e + ringBytes (s.group k).e; o % g = 0 ∧ n % g = 0 ∧ o + n ≤ size ∧ 0 < n ∧ ¬ring)
    ∧ (∃ (m : Master) (s : State) (c : Nat) (tgt : Target) (size g : Nat), Reaches s m 0xD0004C ∧ s.tagMem = some (tgt, size, g) ∧ let o := s.get F.GUARD_TAG_OFS; let n := s.get F.GUARD_TAG_LEN; let ring := s.get F.GUARD_TAG_SEL_MEM = 0 ∧ ∃ k ∈ s.liveGroups, geBase (s.group k).e < o + n ∧ o < geBase (s.group k).e + ringBytes (s.group k).e; o % g = 0 ∧ n % g = 0 ∧ o + n ≤ size ∧ ring)
    ∧ (∃ (m : Master) (s : State) (c : Nat) (tgt : Target) (size g : Nat), Reaches s m 0xD0004C ∧ s.tagMem = some (tgt, size, g) ∧ let o := s.get F.GUARD_TAG_OFS; o % g ≠ 0 ∧ ∃ i : Instr, (i = .tagRead m c ∨ i = .fillTags m c))
    ∧ (∃ (m : Master) (s : State) (d : Nat) (r : GuardRep) (rest : List GuardRep), Reaches s m 0xD00064 ∧ bitOf d 0 = true
        ∧ s.guard.reports = r :: rest ∧ ∃ q, rest.head? = some q ∧ ∃ i, i < 8)
    ∧ (∃ (m : Master) (s : State) (n : Fin 256) (d : Nat), Reaches s m (0xD00800 + 4 * n) ∧ bitOf d 15 = true) :=
  ⟨⟨.yardmaster, st [(F.GUARD_TAG_SEL_MEM, 1), (F.GUARD_TAG_SEL_INDEX, 67), (F.GUARD_TAG_OFS, 0xFFFC0)], 0,
      .shedMem 67 0xFFFC0, 0x100000, 64, (by unfold Reaches; decide +kernel), (by decide +kernel), (by decide +kernel),
      (by decide +kernel)⟩,
   ⟨.yardmaster, st [(F.GUARD_TAG_SEL_MEM, 1), (F.GUARD_TAG_SEL_INDEX, 67), (F.GUARD_TAG_OFS, 0xFFFC0), (F.GUARD_TAG_LEN,
       64)], 0xFE, .shedMem 67 0xFFFC0, 0x100000, 64, (by unfold Reaches; decide +kernel), (by decide +kernel),
       (by decide +kernel), (by decide +kernel), (by decide +kernel), (by decide +kernel),
       fun h => absurd h.1 (by decide +kernel)⟩,
   ⟨.yardmaster, (st [(F.GUARD_TAG_OFS, 64), (F.GUARD_TAG_LEN,
       64)]).setGroup 3 fun x => { x with e := setLe (setLe [] 0 1 1) 24 4 64 }, 0, .yard 64, yardBytes, 64,
       (by unfold Reaches; decide +kernel), (by decide +kernel), (by decide +kernel), (by decide +kernel),
       (by decide +kernel), ⟨by decide +kernel, 3, by decide +kernel, by decide +kernel, by decide +kernel⟩⟩,
   ⟨.yardmaster, st [(F.GUARD_TAG_SEL_MEM, 1), (F.GUARD_TAG_SEL_INDEX, 67), (F.GUARD_TAG_OFS, 63)], 0, .shedMem 67 63,
       0x100000, 64, (by unfold Reaches; decide +kernel), (by decide +kernel), (by decide +kernel), .fillTags .yardmaster 0,
       .inr rfl⟩,
   ⟨.yardmaster,
       State.reset.setGuard fun g => { g with reports := [⟨0, 0, 0, 0, 0, 0, 0, 0, 0, 0, 0, 0, 0⟩, ⟨1, 0, 0, 0, 0, 0, 0, 0, 0, 0, 0, 0, 0⟩] }, 1, ⟨0, 0, 0, 0, 0, 0, 0, 0, 0, 0, 0, 0, 0⟩, [⟨1, 0, 0, 0, 0, 0, 0, 0, 0, 0, 0, 0, 0⟩], (by unfold Reaches; decide +kernel), (by decide +kernel), (by decide +kernel), ⟨1, 0, 0, 0, 0, 0, 0, 0, 0, 0, 0, 0, 0⟩, (by decide +kernel), 7, (by decide +kernel)⟩,
   ⟨.yardmaster, State.reset, 0, 32768, (by unfold Reaches; decide +kernel), (by decide +kernel)⟩⟩

theorem wit_SealTables :
    (∃ (m : Master) (s : State) (d : Nat), Reaches s m 0x900000 ∧ bitOf d 0 = true ∧ s.sealOk = true)
    ∧ (∃ (m : Master) (s : State) (d : Nat), Reaches s m 0x900000 ∧ bitOf d 0 = true ∧ s.sealOk = false)
    ∧ (∃ (m : Master) (s : State) (d : Nat), Reaches s m 0x900000 ∧ bitOf d 0 = false)
    ∧ (∃ (m : Master) (s : State), Reaches s m 0x900034 ∧ ∃ i, i < 16)
    ∧ (∃ (m : Master) (s : State), Reaches s m 0x900034 ∧ let e := s.getBytes F.SEAL_PACC_DATAn 16; s.bit F.SEAL_CTRL = false ∧ (puValid e = true → puOk e = true))
    ∧ (∃ (m : Master) (s : State), Reaches s m 0x900034 ∧ let e := s.getBytes F.SEAL_PACC_DATAn 16; s.bit F.SEAL_CTRL = false ∧ puValid e = true ∧ puOk e = false)
    ∧ (∃ (m : Master) (s : State), Reaches s m 0x900034 ∧ s.bit F.SEAL_CTRL = true ∧ ∃ i : Instr,
        (i = .sealWrite m ∨ i = .sealInvalidate m))
    ∧ (∃ (m : Master) (s : State) (d : Nat), Reaches s m 0x900084 ∧ let o := s.get F.SEAL_TACC_ADDR; s.bit F.SEAL_CTRL = false ∧ ∃ a, (a < o ∨ o + 4 ≤ a))
    ∧ (∃ (m : Master) (s : State) (d : Nat), Reaches s m 0x900084 ∧ s.bit F.SEAL_CTRL = true) :=
  ⟨⟨.yardmaster, State.reset, 1, (by unfold Reaches; decide +kernel), (by decide +kernel), (by decide +kernel)⟩,
   ⟨.yardmaster, st [(F.SEAL_CURVEc_A_MULT.idx 7, 0)], 1, (by unfold Reaches; decide +kernel), (by decide +kernel),
       (by decide +kernel)⟩,
   ⟨.yardmaster, State.reset, 0, (by unfold Reaches; decide +kernel), (by decide +kernel)⟩,
   ⟨.yardmaster, State.reset, (by unfold Reaches; decide +kernel), 15, (by decide +kernel)⟩,
   ⟨.yardmaster, State.reset, (by unfold Reaches; decide +kernel), (by decide +kernel), (by decide +kernel)⟩,
   ⟨.yardmaster, st [(F.SEAL_PACC_DATAn.idx 0, 1)], (by unfold Reaches; decide +kernel), (by decide +kernel),
       (by decide +kernel), (by decide +kernel)⟩,
   ⟨.yardmaster, st [(F.SEAL_CTRL, 1)], (by unfold Reaches; decide +kernel), (by decide +kernel), .sealWrite .yardmaster,
       .inl rfl⟩,
   ⟨.yardmaster, st [(F.SEAL_TACC_ADDR, 0xFFFFC)], 0, (by unfold Reaches; decide +kernel), (by decide +kernel), 0xFFFFB,
       (by decide +kernel)⟩,
   ⟨.yardmaster, st [(F.SEAL_CTRL, 1)], 0, (by unfold Reaches; decide +kernel), (by decide +kernel)⟩⟩

theorem wit_FramesBuilt :
    (∃ (s : State) (dt i : Nat) (f : SFrame) (bs : List Byte), let u := s.elapse dt; let iv := if algGmac (puAlg (s.pub f.pub)) then beBytes 4 (s.get F.SEAL_IV_FIXED) ++ beBytes 8 (s.keyE (puKey (s.pub f.pub))).count else []; s.bit F.SEAL_CTRL = true ∧ s.nextBuild = some i ∧ s.sealSt.frames[i]? = some f ∧ f.released = false ∧ u.egressKeyOk (s.pub f.pub) = true ∧ u.formed f iv = some bs ∧ algGmac (s.keyE (puKey (s.pub f.pub))).alg = true)
    ∧ (∃ (s : State) (dt i : Nat) (f : SFrame), s.bit F.SEAL_CTRL = true ∧ s.nextBuild = some i
        ∧ s.sealSt.frames[i]? = some f ∧ f.released = false ∧ (s.elapse dt).egressKeyOk (s.pub f.pub) = false)
    ∧ (∃ (s : State) (dt : Nat) (p : Fin 8192) (r : Repeat), let u := s.elapse dt; let e := s.pub p; let sq := if puSeqB e = 0xFFFFFFFF then 1 else puSeqB e + 1; s.bit F.SEAL_CTRL = true ∧ Table.find p.val s.sealSt.reps = some r ∧ r.due ≤ s.clk + dt ∧ r.frame.pub = p ∧ u.egressKeyOk e = true ∧ u.edgeHere = false ∧ s.sealSt.repWait = [] ∧ let iv := if algGmac (puAlg e) then beBytes 4 (s.get F.SEAL_IV_FIXED) ++ beBytes 8 (s.keyE (puKey e)).count else []; (u.formed { r.frame with rep := r.k, seqB := sq, ttl := ttlOf (r.interval / 1000), st := 0, released := true } iv).isSome = true)
    ∧ (∃ (s : State) (dt : Nat) (p : Fin 8192) (r : Repeat), let u := s.elapse dt; u.edgeHere = true ∧ Table.find p.val s.sealSt.reps = some r ∧ r.due ≤ u.clk ∧ u.clk - r.due ≤ u.nowNs - edgeNs s.rate s.bt.next) :=
  ⟨⟨sealFs 1, 0, 0, frame0,
      (((sealFs 1).elapse 0).formed frame0 (beBytes 4 ((sealFs 1).get F.SEAL_IV_FIXED) ++ beBytes 8 0)).getD [],
      (by decide +kernel), (by decide +kernel), (by decide +kernel), (by decide +kernel), (by decide +kernel), rfl,
      (by decide +kernel)⟩,
   ⟨sealFs 3, 0, 0, frame0, (by decide +kernel), (by decide +kernel), (by decide +kernel), (by decide +kernel),
       (by decide +kernel)⟩,
   ⟨sealFs 1, 0, 8191, ⟨frame0, 0, 0, 0⟩, (by decide +kernel), (by decide +kernel), (by decide +kernel), (by decide +kernel),
       (by decide +kernel), rfl, (by decide +kernel), (by decide +kernel)⟩,
   ⟨sealFs 1 |> fun s => (s.put F.BEAT_CTRL_EN 1).put F.BEAT_CFG_RATE 8000, 0, 8191, ⟨frame0, 0, 0, 0⟩, (by decide +kernel),
       (by decide +kernel), (by decide +kernel), (by decide +kernel)⟩⟩

theorem wit_SliceQueues :
    (∃ (m : Master) (s : State) (n : Fin 256) (d : Nat), Reaches s m (winAddr n 0x1000))
    ∧ (∃ (m : Master) (s : State) (n : Fin 256) (d : Nat), Reaches s m (winAddr n 0x1008))
    ∧ (∃ (m : Master) (s : State) (n : Fin 256) (d : Nat), Reaches s m (winAddr n 0x1004) ∧ s.host.fn = .d0
        ∧ bitOf (s.msixWord (4 * n + 3)) 0 = false
        ∧ s.get (sl F.SLICE_CQ_TAIL n) % 2 ^ s.get (sl F.SLICE_CQ_SIZE n) ≠ d % 2 ^ 32 % 2 ^ s.get (sl F.SLICE_CQ_SIZE n))
    ∧ (∃ (m : Master) (s : State) (n : Fin 256) (d : Nat), Reaches s m (winAddr n 0x100C))
    ∧ (∃ (s : State) (n : Fin 256) (e : List Byte) (dt : Nat), let size := 2 ^ s.get (sl F.SLICE_SQ_SIZE n); s.sliceOpen n = true ∧ s.get (sl F.SLICE_SQ_HEAD n) % size ≠ s.get (sl F.SLICE_SQ_TAIL n) % size ∧ e.length = 128 ∧ 1000000 ≤ (s.slice n).bucket + (s.clk + dt - (s.slice n).bucketAt) * s.get (sl F.SLICE_RATE_CMD_RATE n) ∧ (∀ x ∈ (s.slice n).fetched ++ [e], sqOk x = true))
    ∧ (∃ (s : State) (n : Fin 256) (q : Fin 3) (dt : Nat), s.sliceOpen n = true)
    ∧ (∃ (s : State) (n : Fin 256) (dt : Nat) (e : Cqe), s.cqRoom n = true ∧ (s.slice n).lost = 0 ∧ (s.slice n).cqStage = [e]
        ∧ e.typ ≠ 6)
    ∧ (∃ (m : Master) (s : State) (n : Fin 256) (d : Nat), Reaches s m (winAddr n 0) ∧ bitOf d 0 = true
        ∧ s.bit (sl F.SLICE_CTRL_EN n) = false ∧ s.windowOk n = true)
    ∧ (∃ (m : Master) (s : State) (n : Fin 256) (d : Nat), Reaches s m (winAddr n 0) ∧ bitOf d 0 = true
        ∧ s.bit (sl F.SLICE_CTRL_EN n) = false ∧ s.windowOk n = false)
    ∧ (∃ (m : Master) (s : State) (n : Fin 256) (d : Nat), Reaches s m (winAddr n 0) ∧ bitOf d 0 = false) :=
  ⟨⟨.yardmaster, State.reset, 0, 0, (by unfold Reaches; decide +kernel)⟩,
   ⟨.yardmaster, State.reset, 0, 0, (by unfold Reaches; decide +kernel)⟩,
   ⟨.yardmaster, (st [(sl F.SLICE_CQ_SIZE 255, 4)]).setHost fun x => { x with fn := .d0, msix := [(1023, 0)] }, 255, 1,
       (by unfold Reaches; decide +kernel), (by decide +kernel), (by decide +kernel), (by decide +kernel)⟩,
   ⟨.yardmaster, State.reset, 0, 0, (by unfold Reaches; decide +kernel)⟩,
   ⟨((st [(sl F.SLICE_CTRL_EN 255, 1), (sl F.SLICE_SQ_SIZE 255, 4), (sl F.SLICE_SQ_TAIL 255,
       1)]).setHost fun x => { x with fn := .d0 }), 255, sq0 1 [] [], 0, (by decide +kernel), (by decide +kernel),
       (by decide +kernel), (by decide +kernel), (by decide +kernel)⟩,
   ⟨slSt 255 [], 255, 2, 0, (by decide +kernel)⟩,
   ⟨(slSt 255 []).setSlice 255 fun x => { x with cqStage := [⟨1, 7, 0, 0, 0, [], []⟩] }, 255, 0, ⟨1, 7, 0, 0, 0, [], []⟩,
       (by decide +kernel), (by decide +kernel), (by decide +kernel), (by decide +kernel)⟩,
   ⟨.yardmaster, (slSt 255 []).put (sl F.SLICE_CTRL_EN 255) 0, 255, 1, (by unfold Reaches; decide +kernel),
       (by decide +kernel), (by decide +kernel), (by decide +kernel)⟩,
   ⟨.yardmaster, State.reset, 0, 1, (by unfold Reaches; decide +kernel), (by decide +kernel), (by decide +kernel),
       (by decide +kernel)⟩,
   ⟨.yardmaster, State.reset, 0, 0, (by unfold Reaches; decide +kernel), (by decide +kernel)⟩⟩

theorem wit_SliceFlowsAndItems :
    (∃ (s : State) (n : Fin 256) (dt : Nat) (e : List Byte) (rest : List (List Byte)), let d := sqBody e 64; s.Heads n 0x01 e rest ∧ s.descRefusal true false d = 0 ∧ s.role ≠ 1 ∧ s.role ≠ 2 ∧ s.role ≠ 6 ∧ dSlice d = n)
    ∧ (∃ (s : State) (n : Fin 256) (dt : Nat) (e : List Byte) (rest : List (List Byte)), let d := sqBody e 64; s.Heads n 0x01 e rest ∧ s.descRefusal true false d ≠ 0)
    ∧ (∃ (s : State) (n : Fin 256) (dt : Nat) (e : List Byte) (rest : List (List Byte)), let f := rtFlow n (sqArg e 0 % 256); let d := sqBody e 64; let fe := feKeepHw (s.flow f).e d; let quiet := s.gate.inflight = [] ∧ s.gate.changes = []; s.Heads n 0x10 e rest ∧ quiet ∧ s.feAccept f fe = true ∧ (feValid fe = true → feSlice fe = n ∧ feKeyCur fe / 256 = n ∧ (feNextValid fe = true → feKeyNext fe / 256 = n) ∧ (feGroup fe = 0xFFFF ∨ (feGroup fe < 4096 ∧ geValid (s.group (feGroup fe)).e = true ∧ flowFits fe (s.group (feGroup fe)).e = true))) ∧ s.CqReady n)
    ∧ (∃ (s : State) (n : Fin 256) (dt : Nat) (e : List Byte) (rest : List (List Byte)), let f := rtFlow n (sqArg e 0 % 256); let d := sqBody e 64; let fe := feKeepHw (s.flow f).e d; s.Heads n 0x10 e rest ∧ feValid fe = true ∧ feSlice fe ≠ n ∧ s.CqReady n)
    ∧ (∃ (s : State) (n : Fin 256) (dt : Nat) (e : List Byte) (rest : List (List Byte)), let quiet := s.gate.inflight = [] ∧ s.gate.changes = []; s.Heads n 0x11 e rest ∧ quiet ∧ s.CqReady n)
    ∧ (∃ (s : State) (n : Fin 256) (dt : Nat) (e : List Byte) (rest : List (List Byte)), let g := sqArg e 0 % 131072; let quiet := s.gate.inflight = [] ∧ s.gate.changes = []; s.Heads n 0x12 e rest ∧ quiet ∧ s.ownsFlow n g = true ∧ s.CqReady n)
    ∧ (∃ (s : State) (n : Fin 256) (dt : Nat) (e : List Byte) (rest : List (List Byte)), let g := sqArg e 0 % 131072; s.Heads n 0x12 e rest ∧ s.ownsFlow n g = false ∧ s.CqReady n)
    ∧ (∃ (s : State) (n : Fin 256) (dt : Nat) (e : List Byte) (rest : List (List Byte)), s.Heads n 0x13 e rest ∧ s.CqReady n)
    ∧ (∃ (s : State) (n : Fin 256) (dt : Nat) (e : List Byte) (rest : List (List Byte)), let quiet := s.gate.inflight = [] ∧ s.gate.changes = []; s.Heads n 0x14 e rest ∧ quiet ∧ s.CqReady n)
    ∧ (∃ (s : State) (n : Fin 256) (dt : Nat) (e : List Byte) (rest : List (List Byte)), let d := sqBody e 64; s.Heads n 0x20 e rest ∧ (dValid d = true → dSlice d = n ∧ s.descRefusal false true d = 0))
    ∧ (∃ (s : State) (n : Fin 256) (dt : Nat) (e : List Byte) (rest : List (List Byte)), let d := sqBody e 64; s.Heads n 0x20 e rest ∧ dValid d = true ∧ dSlice d = n ∧ s.descRefusal false true d ≠ 0 ∧ s.CqReady n)
    ∧ (∃ (s : State) (n : Fin 256) (dt : Nat) (e : List Byte) (rest : List (List Byte)), s.Heads n 0x21 e rest) :=
  ⟨⟨slFlow 255 (sq0 1 [0, 0, 0] (desc0 2 0)), 255, 0, sq0 1 [0, 0, 0] (desc0 2 0), [], ⟨by decide +kernel, by decide +kernel,
      by decide +kernel, by decide +kernel⟩, (by decide +kernel), by decide +kernel, (by decide +kernel),
      (by decide +kernel), (by decide +kernel)⟩,
   ⟨slSt 255 (sq0 0x01 [] []), 255, 0, sq0 0x01 [] [], [], ⟨by decide +kernel, by decide +kernel, by decide +kernel,
       by decide +kernel⟩, (by decide +kernel)⟩,
   ⟨slSt 255 (sq0 0x10 [255] fe255), 255, 0, sq0 0x10 [255] fe255, [], ⟨by decide +kernel, by decide +kernel,
       by decide +kernel, by decide +kernel⟩, ⟨rfl, rfl⟩, (by decide +kernel), by decide +kernel,
       (by unfold State.CqReady; decide +kernel)⟩,
   ⟨slSt 255 (sq0 0x10 [255] (setLe fe255 2 1 254)), 255, 0, sq0 0x10 [255] (setLe fe255 2 1 254), [], ⟨by decide +kernel,
       by decide +kernel, by decide +kernel, by decide +kernel⟩, (by decide +kernel), (by decide +kernel),
       (by unfold State.CqReady; decide +kernel)⟩,
   ⟨slSt 255 (sq0 0x11 [] []), 255, 0, sq0 0x11 [] [], [], ⟨by decide +kernel, by decide +kernel, by decide +kernel,
       by decide +kernel⟩, ⟨rfl, rfl⟩, (by unfold State.CqReady; decide +kernel)⟩,
   ⟨slFlow 255 (sq0 0x12 [131071] []), 255, 0, sq0 0x12 [131071] [], [], ⟨by decide +kernel, by decide +kernel,
       by decide +kernel, by decide +kernel⟩, ⟨rfl, rfl⟩, (by decide +kernel), (by unfold State.CqReady; decide +kernel)⟩,
   ⟨slSt 255 (sq0 0x12 [131071] []), 255, 0, sq0 0x12 [131071] [], [], ⟨by decide +kernel, by decide +kernel,
       by decide +kernel, by decide +kernel⟩, (by decide +kernel), (by unfold State.CqReady; decide +kernel)⟩,
   ⟨slSt 255 (sq0 0x13 [] []), 255, 0, sq0 0x13 [] [], [], ⟨by decide +kernel, by decide +kernel, by decide +kernel,
       by decide +kernel⟩, (by unfold State.CqReady; decide +kernel)⟩,
   ⟨slSt 255 (sq0 0x14 [] []), 255, 0, sq0 0x14 [] [], [], ⟨by decide +kernel, by decide +kernel, by decide +kernel,
       by decide +kernel⟩, ⟨rfl, rfl⟩, (by unfold State.CqReady; decide +kernel)⟩,
   ⟨slFlow 255 (sq0 0x20 [127] (desc0 1 1)), 255, 0, sq0 0x20 [127] (desc0 1 1), [], ⟨by decide +kernel, by decide +kernel,
       by decide +kernel, by decide +kernel⟩, (by decide +kernel)⟩,
   ⟨slSt 255 (sq0 0x20 [127] (desc0 1 1)), 255, 0, sq0 0x20 [127] (desc0 1 1), [], ⟨by decide +kernel, by decide +kernel,
       by decide +kernel, by decide +kernel⟩, (by decide +kernel), (by decide +kernel), (by decide +kernel),
       (by unfold State.CqReady; decide +kernel)⟩,
   ⟨slSt 255 (sq0 0x21 [] []), 255, 0, sq0 0x21 [] [], [], ⟨by decide +kernel, by decide +kernel, by decide +kernel,
       by decide +kernel⟩⟩⟩

theorem wit_SliceKeysHistoryLoft :
    (∃ (s : State) (n : Fin 256) (dt : Nat) (e : List Byte) (rest : List (List Byte)), s.Heads n 0x30 e rest
        ∧ s.vault.cur.isSome = true)
    ∧ (∃ (s : State) (n : Fin 256) (dt : Nat) (e : List Byte) (rest : List (List Byte)), s.Heads n 0x31 e rest ∧ s.CqReady n)
    ∧ (∃ (s : State) (n : Fin 256) (dt : Nat) (e : List Byte) (rest : List (List Byte)), s.Heads n 0x32 e rest ∧ s.CqReady n)
    ∧ (∃ (s : State) (n : Fin 256) (dt : Nat) (e : List Byte) (rest : List (List Byte)), let len := sqArg e 2 % 2 ^ 32; let inRange := sqArg e 0 % 256 = 0 ∧ len % 256 = 0 ∧ len ≤ 0x1000000 ∧ sqArg e 0 + len ≤ histSize; s.Heads n 0x40 e rest ∧ inRange)
    ∧ (∃ (s : State) (n : Fin 256) (dt : Nat) (e : List Byte) (rest : List (List Byte)), let len := sqArg e 2 % 2 ^ 32; let inRange := sqArg e 0 % 256 = 0 ∧ len % 256 = 0 ∧ len ≤ 0x1000000 ∧ sqArg e 0 + len ≤ histSize; s.Heads n 0x41 e rest ∧ inRange ∧ s.sliceHeld n = false)
    ∧ (∃ (s : State) (n : Fin 256) (dt : Nat) (e : List Byte) (rest : List (List Byte)), let len := sqArg e 2 % 2 ^ 32; let inRange := sqArg e 0 % 256 = 0 ∧ len % 256 = 0 ∧ len ≤ 0x1000000 ∧ sqArg e 0 + len ≤ histSize; s.Heads n 0x42 e rest ∧ inRange ∧ s.sliceHeld n = false)
    ∧ (∃ (s : State) (n : Fin 256) (dt : Nat) (e : List Byte) (rest : List (List Byte)), let len := sqArg e 2 % 2 ^ 32; let inRange := sqArg e 0 % 256 = 0 ∧ len % 256 = 0 ∧ len ≤ 0x1000000 ∧ sqArg e 0 + len ≤ histSize; s.Heads n 0x41 e rest ∧ s.CqReady n ∧ ¬inRange)
    ∧ (∃ (s : State) (n : Fin 256) (dt : Nat) (e : List Byte) (rest : List (List Byte)), let len := sqArg e 2 % 2 ^ 32; let inRange := sqArg e 0 % 256 = 0 ∧ len % 256 = 0 ∧ len ≤ 0x1000000 ∧ sqArg e 0 + len ≤ histSize; s.Heads n 0x41 e rest ∧ s.CqReady n ∧ inRange ∧ s.sliceHeld n = true)
    ∧ (∃ (s : State) (n : Fin 256) (dt : Nat) (e : List Byte) (rest : List (List Byte)), let u := (s.elapse dt).setSlice n fun x => { x with fetched := rest }; s.Heads n 0x50 e rest ∧ s.CqReady n ∧ let r := (u.freezeRequest 2 (some n) (sqArg e 0 % 2 ^ 32) (sqArg e 0 / 2 ^ 32) (sqArg e 1 % 65536) u.nowNs u.beat).2; r = none)
    ∧ (∃ (s : State) (n : Fin 256) (dt : Nat) (e : List Byte) (rest : List (List Byte)), let i := sqArg e 0 % 16; s.Heads n 0x51 e rest ∧ s.slotForeign n i = false ∧ (s.frz i).st = 2)
    ∧ (∃ (s : State) (n : Fin 256) (dt : Nat) (e : List Byte) (rest : List (List Byte)), let i := sqArg e 0 % 16; s.Heads n 0x52 e rest ∧ s.CqReady n ∧ s.slotForeign n i = false)
    ∧ (∃ (s : State) (n : Fin 256) (dt : Nat) (e : List Byte) (rest : List (List Byte)), let i := sqArg e 0 % 16; s.Heads n 0x53 e rest ∧ s.CqReady n ∧ s.slotForeign n i = false)
    ∧ (∃ (s : State) (n : Fin 256) (dt : Nat) (e : List Byte) (rest : List (List Byte)), let i := sqArg e 0 % 16; ∃ p, (p = (0x51, Instr.loftExport n dt) ∨ p = (0x52, Instr.loftRelease n dt) ∨ p = (0x53, Instr.loftSlot n dt)) ∧ s.Heads n p.1 e rest ∧ s.CqReady n ∧ s.slotForeign n i = true)
    ∧ (∃ (s : State) (n : Fin 256) (dt : Nat) (e : List Byte) (rest : List (List Byte)), let len := sqArg e 2 % 2 ^ 32; let c : InProg := ⟨sqOp e, sqId e, sqQuiet e, sqArg e 0, sqArg e 1, len, [], s.clk + dt⟩; ∃ (w : InProg) (data : List Byte) (ce : Nat) (ue : List Nat), ((s.slice n).inProg.find? (fun c => decide (0x40 ≤ c.op ∧ c.op ≤ 0x42) && decide (c.a2 < 2 ^ 32)) = some w) ∧ w.op = 0x41 ∧ w.a2 % 256 = 0 ∧ w.a2 ≤ data.length ∧ (s.elapse dt).histGranted n w.a0 w.a2 = w.a2 / 256 ∧ ∃ a, (a < n * histSize + w.a0 ∨ n * histSize + w.a0 + w.a2 ≤ a))
    ∧ (∃ (s : State) (n : Fin 256) (dt : Nat) (e : List Byte) (rest : List (List Byte)), let len := sqArg e 2 % 2 ^ 32; let c : InProg := ⟨sqOp e, sqId e, sqQuiet e, sqArg e 0, sqArg e 1, len, [], s.clk + dt⟩; ∃ (w : InProg) (data : List Byte) (ce : Nat) (ue : List Nat), ((s.slice n).inProg.find? (fun c => decide (0x40 ≤ c.op ∧ c.op ≤ 0x42) && decide (c.a2 < 2 ^ 32)) = some w) ∧ w.op = 0x40 ∧ 0 < w.a2 ∧ w.a2 ≤ data.length ∧ (s.elapse dt).dmaAccess 0x492 (some n) 0 (histBase + w.a0) w.a2 = (s.elapse dt, w.a2, true) ∧ ue = []) :=
  ⟨⟨{ slSt 255 (sq0 0x30 [] []) with vault := { State.reset.vault with cur := some ⟨.ym, 1, [], none⟩ } }, 255, 0,
      sq0 0x30 [] [], [], ⟨by decide +kernel, by decide +kernel, by decide +kernel, by decide +kernel⟩, (by decide +kernel)⟩,
   ⟨slSt 255 (sq0 0x31 [] []), 255, 0, sq0 0x31 [] [], [], ⟨by decide +kernel, by decide +kernel, by decide +kernel,
       by decide +kernel⟩, (by unfold State.CqReady; decide +kernel)⟩,
   ⟨slSt 255 (sq0 0x32 [] []), 255, 0, sq0 0x32 [] [], [], ⟨by decide +kernel, by decide +kernel, by decide +kernel,
       by decide +kernel⟩, (by unfold State.CqReady; decide +kernel)⟩,
   ⟨slSt 255 (sq0 0x40 [0x3FFFF00, 0, 256] []), 255, 0, sq0 0x40 [0x3FFFF00, 0, 256] [], [], ⟨by decide +kernel,
       by decide +kernel, by decide +kernel, by decide +kernel⟩, (by decide +kernel)⟩,
   ⟨slSt 255 (sq0 0x41 [0x3FFFF00, 0, 256] []), 255, 0, sq0 0x41 [0x3FFFF00, 0, 256] [], [], ⟨by decide +kernel,
       by decide +kernel, by decide +kernel, by decide +kernel⟩, (by decide +kernel), (by decide +kernel)⟩,
   ⟨slSt 255 (sq0 0x42 [0x3FFFF00, 0, 256] []), 255, 0, sq0 0x42 [0x3FFFF00, 0, 256] [], [], ⟨by decide +kernel,
       by decide +kernel, by decide +kernel, by decide +kernel⟩, (by decide +kernel), (by decide +kernel)⟩,
   ⟨slSt 255 (sq0 0x41 [0x3FFFF00, 0, 512] []), 255, 0, sq0 0x41 [0x3FFFF00, 0, 512] [], [], ⟨by decide +kernel,
       by decide +kernel, by decide +kernel, by decide +kernel⟩, (by unfold State.CqReady; decide +kernel),
       (by decide +kernel)⟩,
   ⟨(slSt 255 (sq0 0x41 [0x3FFFF00, 0, 256] [])).put (sl F.SLICE_STATUS_STATE 255) 2, 255, 0, sq0 0x41 [0x3FFFF00, 0,
       256] [], [], ⟨by decide +kernel, by decide +kernel, by decide +kernel, by decide +kernel⟩,
       (by unfold State.CqReady; decide +kernel), (by decide +kernel), (by decide +kernel)⟩,
   ⟨{ slSt 255 (sq0 0x50 [] []) with loft := { State.reset.loft with slots := (List.range 16).map fun j => (j, { FrzSlot.free with st := 1 }) } }, 255, 0, sq0 0x50 [] [], [], ⟨by decide +kernel, by decide +kernel, by decide +kernel, by decide +kernel⟩, (by unfold State.CqReady; decide +kernel), (by decide +kernel)⟩,
   ⟨{ slSt 255 (sq0 0x51 [15] []) with loft := { State.reset.loft with slots := [(15, { FrzSlot.free with st := 2, slice := 255 })] } }, 255, 0, sq0 0x51 [15] [], [], ⟨by decide +kernel, by decide +kernel, by decide +kernel, by decide +kernel⟩, (by decide +kernel), (by decide +kernel)⟩,
   ⟨slSt 255 (sq0 0x52 [] []), 255, 0, sq0 0x52 [] [], [], ⟨by decide +kernel, by decide +kernel, by decide +kernel,
       by decide +kernel⟩, (by unfold State.CqReady; decide +kernel), (by decide +kernel)⟩,
   ⟨slSt 255 (sq0 0x53 [] []), 255, 0, sq0 0x53 [] [], [], ⟨by decide +kernel, by decide +kernel, by decide +kernel,
       by decide +kernel⟩, (by unfold State.CqReady; decide +kernel), (by decide +kernel)⟩,
   ⟨{ slSt 255 (sq0 0x53 [15] []) with loft := { State.reset.loft with slots := [(15, { FrzSlot.free with st := 2, slice := 254 })] } }, 255, 0, sq0 0x53 [15] [], [], (0x53, Instr.loftSlot 255 0), .inr (.inr rfl), ⟨by decide +kernel, by decide +kernel, by decide +kernel, by decide +kernel⟩, (by unfold State.CqReady; decide +kernel), (by decide +kernel)⟩,
   ⟨((slSt 255 []).put F.GUARD_CTRL 1).setSlice 255 fun x => { x with inProg := [⟨0x41, 7, false, 0x3FFFF00, 0, 256, [], 0⟩] }, 255, 0, [], [], ⟨0x41, 7, false, 0x3FFFF00, 0, 256, [], 0⟩, List.replicate 256 1, 0, [], (by decide +kernel), (by decide +kernel), (by decide +kernel), (by decide +kernel), (by decide +kernel), 256 * histSize - 257, .inl (by decide +kernel)⟩,
   ⟨(((slSt 255 []).put F.GUARD_CTRL 1).setLoft fun l => { l with tags := [(0x3FFFFFF, 1, 2)] }).setSlice 255 fun x => { x with inProg := [⟨0x40, 7, false, 0x3FFFF00, 0, 256, [], 0⟩] }, 255, 0, [], [], ⟨0x40, 7, false, 0x3FFFF00, 0, 256, [], 0⟩, List.replicate 256 1, 0, [], (by decide +kernel), (by decide +kernel), (by decide +kernel), (by decide +kernel), (by decide +kernel), (by decide +kernel)⟩⟩

theorem wit_SliceMigration :
    (∃ (m : Master) (s : State) (n : Fin 256), Reaches s m (winAddr n 0x64) ∧ s.bit (sl F.SLICE_MIG_CMD_BUSY n) = false
        ∧ s.sliceState n = 1 ∧ (∀ k ∈ s.sliceList, k < 256))
    ∧ (∃ (m : Master) (s : State) (n : Fin 256), Reaches s m (winAddr n 0x64) ∧ s.bit (sl F.SLICE_MIG_CMD_BUSY n) = false
        ∧ s.sliceState n = 3 ∧ s.runsItems = true)
    ∧ (∃ (m : Master) (s : State) (n : Fin 256), Reaches s m (winAddr n 0x64) ∧ s.bit (sl F.SLICE_MIG_CMD_BUSY n) = false
        ∧ s.sliceState n ≠ 3)
    ∧ (∃ (m : Master) (s : State) (n : Fin 256), Reaches s m (winAddr n 0x64) ∧ s.bit (sl F.SLICE_MIG_CMD_BUSY n) = false
        ∧ s.sliceState n = 3 ∧ (s.role = 4 ∨ s.role = 5))
    ∧ (∃ (s : State) (n : Fin 256) (ce : Nat) (ue : List Nat) (dt : Nat), s.sliceState n = 4
        ∧ (((s.slice n).inProg.find? fun c => c.op == 0x103).map (·.a0) = some s.role) ∧ s.migKey = none)
    ∧ (∀ k, Config.kwpUnwrap migSt.kSlot ((migRec.drop 32).take (keyLenOf (srKtype migRec) + 8)) = some k
        → ∃ (s : State) (n : Fin 256) (ce : Nat) (ue : List Nat) (dt : Nat), s.sliceState n = 4
        ∧ (((s.slice n).inProg.find? fun c => c.op == 0x103).map (·.a0) = some s.role) ∧ ∃ id key, s.migKey = some (id, key))
    ∧ (∃ (s : State) (n : Fin 256) (b : List Byte) (dt : Nat), s.sliceState n = 5 ∧ (s.role = 4 ∨ s.role = 5) ∧ s.role = 4)
    ∧ (∃ (s : State) (n : Fin 256) (b : List Byte) (dt : Nat), s.sliceState n = 5 ∧ (s.role = 4 ∨ s.role = 5) ∧ ∃ i, i < 128)
    ∧ (∃ (s : State) (n : Fin 256) (dt : Nat) (x : Option (Nat × Nat × Nat × Nat)), (s.slice n).clearing = some x ∧ ∃ a,
        n * histSize ≤ a ∧ a < n * histSize + histSize)
    ∧ (∃ (s : State) (n : Fin 256) (dt : Nat) (x : Option (Nat × Nat × Nat × Nat)), (s.slice n).clearing = some x
        ∧ ∃ p tn c d, x = some (p, tn, c, d)) :=
  ⟨⟨.yardmaster, slSt 255 [], 255, (by unfold Reaches; decide +kernel), (by decide +kernel), (by decide +kernel),
      (by decide +kernel)⟩,
   ⟨.yardmaster, st [(sl F.SLICE_STATUS_STATE 255, 3), (F.PAIR_STATUS_STATE, 5)], 255, (by unfold Reaches; decide +kernel),
       (by decide +kernel), (by decide +kernel), (by decide +kernel)⟩,
   ⟨.yardmaster, State.reset, 0, (by unfold Reaches; decide +kernel), (by decide +kernel), (by decide +kernel)⟩,
   ⟨.yardmaster, st [(sl F.SLICE_STATUS_STATE 255, 3), (F.PAIR_STATUS_STATE, 5)], 255, (by unfold Reaches; decide +kernel),
       (by decide +kernel), (by decide +kernel), (by decide +kernel)⟩,
   ⟨(st [(sl F.SLICE_STATUS_STATE 255, 4)]).setSlice 255 fun x => { x with inProg := [⟨0x103, 0, false, 0, 0, 0, [], 0⟩] },
       255, 0, [], 0, (by decide +kernel), (by decide +kernel), (by decide +kernel)⟩,
   fun k h => ⟨migSt, 255, 0, [], 0, (by decide +kernel), (by decide +kernel), srKeyId migRec, k,
       congrArg (Option.map fun k => (srKeyId migRec, k)) h⟩,
   ⟨st [(sl F.SLICE_STATUS_STATE 255, 5), (F.PAIR_STATUS_STATE, 4)], 255, [], 0, (by decide +kernel), (by decide +kernel),
       (by decide +kernel)⟩,
   ⟨st [(sl F.SLICE_STATUS_STATE 255, 5), (F.PAIR_STATUS_STATE, 5)], 255, [], 0, (by decide +kernel), (by decide +kernel),
       127, (by decide +kernel)⟩,
   ⟨State.reset.setSlice 255 fun y => { y with clearing := some none }, 255, 0, none, (by decide +kernel),
       256 * histSize - 1, (by decide +kernel), (by decide +kernel)⟩,
   ⟨State.reset.setSlice 255 fun y => { y with clearing := some (some (1, 2, 3, 4)) }, 255, 0, some (1, 2, 3, 4),
       (by decide +kernel), 1, 2, 3, 4, (by decide +kernel)⟩⟩

theorem wit_PcieStates :
    (∃ (s : State) (dt : Nat), s.host.fn = .d3cold ∧ s.host.peRefclk = true)
    ∧ (∃ (s : State) (dt : Nat), s.host.fn = .d3cold ∧ s.host.peRefclk = false)
    ∧ (∃ (s : State) (dt : Nat), s.host.fn = .d3cold ∧ s.host.perstN = true)
    ∧ (∃ (s : State) (dt : Nat), s.host.fn = .training ∧ s.host.peRefclk = true ∧ s.domState 19 = 0 ∧ s.domWaking 19 = false)
    ∧ (∃ (s : State) (dt : Nat), s.host.fn = .d0)
    ∧ (∃ (s : State) (dt : Nat), s.host.fn = .d3hot)
    ∧ (∃ (s : State) (dt : Nat), s.Calm ∧ s.ltrValue ≠ s.host.ltrSent) :=
  ⟨⟨{ State.reset with host := { State.reset.host with fn := .d3cold, peRefclk := true } }, 0, (by decide +kernel),
      (by decide +kernel)⟩,
   ⟨{ State.reset with host := { State.reset.host with fn := .d3cold, peRefclk := false } }, 0, (by decide +kernel),
       (by decide +kernel)⟩,
   ⟨{ State.reset with host := { State.reset.host with fn := .d3cold, perstN := true } }, 0, (by decide +kernel),
       (by decide +kernel)⟩,
   ⟨{ State.reset with host := { State.reset.host with fn := .training, peRefclk := true } }, 0, (by decide +kernel),
       (by decide +kernel), (by decide +kernel), (by decide +kernel)⟩,
   ⟨{ State.reset with host := { State.reset.host with fn := .d0 } }, 0, (by decide +kernel)⟩,
   ⟨{ State.reset with host := { State.reset.host with fn := .d3hot } }, 0, (by decide +kernel)⟩,
   ⟨(slSt 255 []).setSlice 255 fun x => { x with fetched := [], evStage := [ev0], ltrNow := 0x00010000 }, 0,
       by unfold State.Calm; decide +kernel, (by decide +kernel)⟩⟩

theorem wit_MacJobs :
    (∃ (s : State) (n : Fin 256) (dt : Nat) (e : List Byte) (rest : List (List Byte)), s.Heads n 0x02 e rest)
    ∧ (∃ (s : State) (i : Nat) (j : MacJob) (data : Option (List Byte)), let key := s.keyE (j.slice * 256 + leAt j.body 1 1); s.gate.jobs[i]? = some j ∧ j.started = true ∧ s.engineFree j s.clk = true ∧ s.CqReady j.slice ∧ s.macCheck j key ≠ 0)
    ∧ (∃ (s : State) (i : Nat) (j : MacJob) (data : Option (List Byte)), let key := s.keyE (j.slice * 256 + leAt j.body 1 1); s.gate.jobs[i]? = some j ∧ j.started = true ∧ s.engineFree j s.clk = true ∧ s.CqReady j.slice ∧ s.macCheck j key = 0 ∧ data = none)
    ∧ (∃ (s : State) (i : Nat) (j : MacJob) (data : Option (List Byte)), let key := s.keyE (j.slice * 256 + leAt j.body 1 1); s.gate.jobs[i]? = some j ∧ j.started = true ∧ s.engineFree j s.clk = true ∧ s.CqReady j.slice ∧ ∃ d, s.macCheck j key = 0 ∧ data = some d ∧ d.length ≤ leAt j.body 4 4 ∧ leAt j.body 0 1 = 1)
    ∧ (∃ (s : State) (i : Nat) (j : MacJob) (data : Option (List Byte)), let key := s.keyE (j.slice * 256 + leAt j.body 1 1); s.gate.jobs[i]? = some j ∧ j.started = true ∧ s.engineFree j s.clk = true ∧ s.CqReady j.slice ∧ ∃ d, s.macCheck j key = 0 ∧ data = some d ∧ d.length ≤ leAt j.body 4 4 ∧ leAt j.body 0 1 = 4)
    ∧ (∃ (s : State) (i dt : Nat) (j : MacJob), s.gate.jobs[i]? = some j ∧ s.CqReady j.slice ∧ let late := j.at' + s.get F.GATE_JOB_CFG_TMO * 1000; j.started = false ∧ s.mayStart late j = false ∧ late ≤ s.clk + dt) :=
  ⟨⟨slSt 255 (sq0 0x02 [] []), 255, 0, sq0 0x02 [] [], [], ⟨by decide +kernel, by decide +kernel, by decide +kernel,
      by decide +kernel⟩⟩,
   ⟨macSt 5, 0, macJob0 5, none, (by decide +kernel), (by decide +kernel), (by decide +kernel),
       (by unfold State.CqReady; decide +kernel), (by decide +kernel)⟩,
   ⟨macSt 2, 0, macJob0 2, none, (by decide +kernel), (by decide +kernel), (by decide +kernel),
       (by unfold State.CqReady; decide +kernel), (by decide +kernel), (by decide +kernel)⟩,
   ⟨(macSt 1).setKey 65535 fun k => { k with usage := 4 }, 0, macJob0 1, some (List.replicate 9 1), (by decide +kernel),
       (by decide +kernel), (by decide +kernel), (by unfold State.CqReady; decide +kernel), List.replicate 9 1,
       (by decide +kernel), (by decide +kernel), (by decide +kernel), (by decide +kernel)⟩,
   ⟨macSt 4, 0, macJob0 4, some (List.replicate 9 1), (by decide +kernel), (by decide +kernel), (by decide +kernel),
       (by unfold State.CqReady; decide +kernel), List.replicate 9 1, (by decide +kernel), (by decide +kernel),
       (by decide +kernel), (by decide +kernel)⟩,
   ⟨(macSt 1).setGate fun x => { x with jobs := [{ macJob0 1 with started := false }, macJob0 1], gmac := ⟨none, [10 ^ 15], []⟩ }, 0, (State.reset.get F.GATE_JOB_CFG_TMO * 1000), { macJob0 1 with started := false }, (by decide +kernel), (by unfold State.CqReady; decide +kernel), (by decide +kernel), (by decide +kernel), (by decide +kernel)⟩⟩

theorem wit_PkJobsStart :
    (∃ (s : State) (n : Fin 256) (dt : Nat) (e : List Byte) (rest : List (List Byte)), s.Heads n 0x03 e rest
        ∧ s.mayVault .pkJobs = true ∧ s.get F.VAULT_PK_STATUS_ENG_OK ≠ 0 ∧ s.bit F.VAULT_CTRL = false)
    ∧ (∃ (s : State) (n : Fin 256) (dt : Nat) (e : List Byte) (rest : List (List Byte)), let j : PkJob := ⟨some n, sqId e, sqBody e 96, s.clk + dt⟩; ∃ k, s.Heads n 0x03 e rest ∧ s.mayVault .pkJobs = true ∧ s.get F.VAULT_PK_STATUS_ENG_OK ≠ 0 ∧ s.bit F.VAULT_CTRL = true ∧ s.vaultReady = true ∧ s.vault.jobs = [] ∧ s.pkMay j = true ∧ (((List.range 8).filter fun x => s.engOk x && (s.eng x).run.isNone).head? = some k))
    ∧ (∃ (s : State) (n : Fin 256) (dt : Nat) (e : List Byte) (rest : List (List Byte)), s.Heads n 0x03 e rest
        ∧ s.mayVault .pkJobs = false ∧ s.CqReady n)
    ∧ (∃ (m : Master) (s : State) (d : Nat), Reaches s m 0xC00408 ∧ bitOf d 0 = true ∧ s.bit F.VAULT_PK_CMD_BUSY = false
        ∧ s.mayVault .pkJobs = true ∧ s.get F.VAULT_PK_STATUS_ENG_OK ≠ 0 ∧ s.bit F.VAULT_CTRL = false)
    ∧ (∃ (s : State) (i dt n : Nat) (j : PkJob), s.vault.jobs[i]? = some j ∧ j.slice = some n ∧ s.CqReady n
        ∧ s.get F.VAULT_PK_CFG_TMO * 1000000 ≤ s.clk + dt - j.at')
    ∧ (∃ (s : State) (e : Fin 8) (dt n t0 : Nat) (j : PkJob), (s.eng e).run = some (j, t0) ∧ j.slice = some n ∧ s.CqReady n
        ∧ s.vault.jobs = [] ∧ pkBound j.desc ≤ s.clk + dt - t0) :=
  ⟨⟨((slSt 255 (sq0 0x03 [] [])).put F.LIFE_STATE_STATE 2).put F.VAULT_PK_STATUS_ENG_OK 1, 255, 0, sq0 0x03 [] [], [],
      ⟨by decide +kernel, by decide +kernel, by decide +kernel, by decide +kernel⟩, (by decide +kernel), (by decide +kernel),
      (by decide +kernel)⟩,
   ⟨(((slSt 255 (sq0 0x03 [] [])).put F.LIFE_STATE_STATE 2).put F.VAULT_PK_STATUS_ENG_OK 0x80).put F.VAULT_CTRL 1, 255, 0,
       sq0 0x03 [] [], [], 7, ⟨by decide +kernel, by decide +kernel, by decide +kernel, by decide +kernel⟩,
       (by decide +kernel), (by decide +kernel), (by decide +kernel), (by decide +kernel), (by decide +kernel),
       (by decide +kernel), (by decide +kernel)⟩,
   ⟨slSt 255 (sq0 0x03 [] []), 255, 0, sq0 0x03 [] [], [], ⟨by decide +kernel, by decide +kernel, by decide +kernel,
       by decide +kernel⟩, (by decide +kernel), (by unfold State.CqReady; decide +kernel)⟩,
   ⟨.yardmaster, st [(F.VAULT_PK_STATUS_ENG_OK, 1), (F.LIFE_STATE_STATE, 2)], 1, (by unfold Reaches; decide +kernel),
       (by decide +kernel), (by decide +kernel), (by decide +kernel), (by decide +kernel), (by decide +kernel)⟩,
   ⟨(slSt 255 []).setVault fun v => { v with jobs := [pkJob0 1 1 0 64] }, 0, (State.reset.get F.VAULT_PK_CFG_TMO * 1000000),
       255, pkJob0 1 1 0 64, (by decide +kernel), (by decide +kernel), (by unfold State.CqReady; decide +kernel),
       (by decide +kernel)⟩,
   ⟨pkSt (pkJob0 1 1 0 64), 7, 250000, 255, 0, pkJob0 1 1 0 64, (by decide +kernel), (by decide +kernel),
       (by unfold State.CqReady; decide +kernel), (by decide +kernel), (by decide +kernel)⟩⟩

theorem wit_PkOperations :
    (∃ (s : State) (e : Fin 8) (dt t0 n : Nat) (j : PkJob), (s.eng e).run = some (j, t0) ∧ j.slice = some n ∧ s.CqReady n
        ∧ s.vault.jobs = [] ∧ ∃ (blob msg peer sig nonce : List Byte) (ok good : Bool) (i : Nat × Instr), (i = (1,
        .pkSign e blob msg ok good dt) ∨ i = (2, .pkVerify e peer msg sig ok dt) ∨ i = (3, .pkKeygen e ok good dt) ∨ i = (4,
        .pkDerive e blob peer ok good dt) ∨ i = (5, .pkAttest e blob nonce ok good dt) ∨ i = (6, .pkRandom e ok dt))
        ∧ pjOp j.desc = i.1 ∧ j.ok = false)
    ∧ (∃ (s : State) (e : Fin 8) (dt t0 n : Nat) (j : PkJob), (s.eng e).run = some (j, t0) ∧ j.slice = some n ∧ s.CqReady n
        ∧ s.vault.jobs = [] ∧ ∃ (blob msg peer sig nonce : List Byte) (ok good : Bool) (i : Nat × Instr), (i = (1,
        .pkSign e blob msg ok good dt) ∨ i = (2, .pkVerify e peer msg sig ok dt) ∨ i = (3, .pkKeygen e ok good dt) ∨ i = (4,
        .pkDerive e blob peer ok good dt) ∨ i = (5, .pkAttest e blob nonce ok good dt) ∨ i = (6, .pkRandom e ok dt))
        ∧ pjOp j.desc = i.1 ∧ j.ok = true ∧ pkLenOk j.desc = false)
    ∧ (∃ (s : State) (e : Fin 8) (dt t0 n : Nat) (j : PkJob), (s.eng e).run = some (j, t0) ∧ j.slice = some n ∧ s.CqReady n
        ∧ s.vault.jobs = [] ∧ ∃ (blob msg peer sig nonce : List Byte) (ok good : Bool) (i : Nat × Instr), (i = (1,
        .pkSign e blob msg ok good dt) ∨ i = (2, .pkVerify e peer msg sig ok dt) ∨ i = (3, .pkKeygen e ok good dt) ∨ i = (4,
        .pkDerive e blob peer ok good dt) ∨ i = (5, .pkAttest e blob nonce ok good dt) ∨ i = (6, .pkRandom e ok dt))
        ∧ pjOp j.desc = i.1 ∧ j.ok = true ∧ pkLenOk j.desc = true ∧ s.bit F.VAULT_STATUS_KAT_FAIL = false ∧ ok = false)
    ∧ (∃ (s : State) (e : Fin 8) (dt t0 n : Nat) (j : PkJob), (s.eng e).run = some (j, t0) ∧ j.slice = some n ∧ s.CqReady n
        ∧ s.vault.jobs = [] ∧ j.ok = true ∧ pkLenOk j.desc = true ∧ s.bit F.VAULT_STATUS_KAT_FAIL = false
        ∧ ∃ blob msg : List Byte, pjOp j.desc = 1)
    ∧ (∃ (s : State) (e : Fin 8) (dt t0 n : Nat) (j : PkJob), (s.eng e).run = some (j, t0) ∧ j.slice = some n ∧ s.CqReady n
        ∧ s.vault.jobs = [] ∧ j.ok = true ∧ pkLenOk j.desc = true ∧ s.bit F.VAULT_STATUS_KAT_FAIL = false
        ∧ ∃ peer msg sig : List Byte, pjOp j.desc = 2)
    ∧ (∃ (s : State) (e : Fin 8) (dt t0 n : Nat) (j : PkJob), (s.eng e).run = some (j, t0) ∧ j.slice = some n ∧ s.CqReady n ∧ s.vault.jobs = [] ∧ let alg := pjAlg j.desc; j.ok = true ∧ pkLenOk j.desc = true ∧ s.bit F.VAULT_STATUS_KAT_FAIL = false ∧ pjOp j.desc = 3 ∧ s.vault.root.isSome = true ∧ usageOk (algKtype alg) (pjUsage j.desc) = true)
    ∧ (∃ (s : State) (e : Fin 8) (dt t0 n : Nat) (j : PkJob), (s.eng e).run = some (j, t0) ∧ j.slice = some n ∧ s.CqReady n
        ∧ s.vault.jobs = [] ∧ j.ok = true ∧ pkLenOk j.desc = true ∧ s.bit F.VAULT_STATUS_KAT_FAIL = false ∧ pjOp j.desc = 3
        ∧ s.vault.root = none)
    ∧ (∃ (s : State) (e : Fin 8) (dt t0 n : Nat) (j : PkJob), (s.eng e).run = some (j, t0) ∧ j.slice = some n ∧ s.CqReady n
        ∧ s.vault.jobs = [] ∧ j.ok = true ∧ pkLenOk j.desc = true ∧ s.bit F.VAULT_STATUS_KAT_FAIL = false
        ∧ ∃ blob peer : List Byte, pjOp j.desc = 4)
    ∧ (∃ (s : State) (e : Fin 8) (dt t0 n : Nat) (j : PkJob), (s.eng e).run = some (j, t0) ∧ j.slice = some n ∧ s.CqReady n
        ∧ s.vault.jobs = [] ∧ j.ok = true ∧ pkLenOk j.desc = true ∧ s.bit F.VAULT_STATUS_KAT_FAIL = false
        ∧ ∃ blob nonce : List Byte, pjOp j.desc = 5)
    ∧ (∃ (s : State) (e : Fin 8) (dt t0 n : Nat) (j : PkJob), (s.eng e).run = some (j, t0) ∧ j.slice = some n ∧ s.CqReady n
        ∧ s.vault.jobs = [] ∧ j.ok = true ∧ pkLenOk j.desc = true ∧ s.bit F.VAULT_STATUS_KAT_FAIL = false
        ∧ pjOp j.desc = 6) :=
  ⟨⟨pkSt (pkJob0 1 4 0 64), 7, 0, 0, 255, pkJob0 1 4 0 64, (by decide +kernel), (by decide +kernel),
      (by unfold State.CqReady; decide +kernel), (by decide +kernel), [], [], [], [], [], false, false, (1,
      .pkSign 7 ([]) ([]) false false 0), (by decide +kernel), (by decide +kernel), (by decide +kernel)⟩,
   ⟨pkSt (pkJob0 1 1 0 63), 7, 0, 0, 255, pkJob0 1 1 0 63, (by decide +kernel), (by decide +kernel),
       (by unfold State.CqReady; decide +kernel), (by decide +kernel), [], [], [], [], [], false, false, (1,
       .pkSign 7 ([]) ([]) false false 0), (by decide +kernel), (by decide +kernel), (by decide +kernel),
       (by decide +kernel)⟩,
   ⟨pkSt (pkJob0 1 1 0 64), 7, 0, 0, 255, pkJob0 1 1 0 64, (by decide +kernel), (by decide +kernel),
       (by unfold State.CqReady; decide +kernel), (by decide +kernel), [], [], [], [], [], false, false, (1,
       .pkSign 7 ([]) ([]) false false 0), (by decide +kernel), (by decide +kernel), (by decide +kernel),
       (by decide +kernel), (by decide +kernel), (by decide +kernel)⟩,
   ⟨pkSt (pkJob0 1 1 0 64), 7, 0, 0, 255, pkJob0 1 1 0 64, (by decide +kernel), (by decide +kernel),
       (by unfold State.CqReady; decide +kernel), (by decide +kernel), (by decide +kernel), (by decide +kernel),
       (by decide +kernel), [], [], (by decide +kernel)⟩,
   ⟨pkSt (pkJob0 2 1 0 64), 7, 0, 0, 255, pkJob0 2 1 0 64, (by decide +kernel), (by decide +kernel),
       (by unfold State.CqReady; decide +kernel), (by decide +kernel), (by decide +kernel), (by decide +kernel),
       (by decide +kernel), [], [], [], (by decide +kernel)⟩,
   ⟨pkSt (pkJob0 3 1 0 1024), 7, 0, 0, 255, pkJob0 3 1 0 1024, (by decide +kernel), (by decide +kernel),
       (by unfold State.CqReady; decide +kernel), (by decide +kernel), (by decide +kernel), (by decide +kernel),
       (by decide +kernel), (by decide +kernel), (by decide +kernel), (by decide +kernel)⟩,
   ⟨(pkSt (pkJob0 3 1 0 1024)).setVault fun v => { v with root := none }, 7, 0, 0, 255, pkJob0 3 1 0 1024,
       (by decide +kernel), (by decide +kernel), (by unfold State.CqReady; decide +kernel), (by decide +kernel),
       (by decide +kernel), (by decide +kernel), (by decide +kernel), (by decide +kernel), (by decide +kernel)⟩,
   ⟨pkSt (pkJob0 4 4 0 64), 7, 0, 0, 255, pkJob0 4 4 0 64, (by decide +kernel), (by decide +kernel),
       (by unfold State.CqReady; decide +kernel), (by decide +kernel), (by decide +kernel), (by decide +kernel),
       (by decide +kernel), [], [], (by decide +kernel)⟩,
   ⟨pkSt (pkJob0 5 0 32 264), 7, 0, 0, 255, pkJob0 5 0 32 264, (by decide +kernel), (by decide +kernel),
       (by unfold State.CqReady; decide +kernel), (by decide +kernel), (by decide +kernel), (by decide +kernel),
       (by decide +kernel), [], [], (by decide +kernel)⟩,
   ⟨pkSt (pkJob0 6 0 0 4096), 7, 0, 0, 255, pkJob0 6 0 0 4096, (by decide +kernel), (by decide +kernel),
       (by unfold State.CqReady; decide +kernel), (by decide +kernel), (by decide +kernel), (by decide +kernel),
       (by decide +kernel), (by decide +kernel)⟩⟩

theorem wit_VaultCommands :
    (∃ (m : Master) (s : State) (i : Nat × Instr), (i = (1, .vaultLoad m) ∨ i = (2, .loadPlain m) ∨ i = (3,
        .generate m) ∨ i = (4, .wrapOut m) ∨ i = (5, .attest m) ∨ i = (6, .slotGen m) ∨ i = (7, .slotImport m) ∨ i = (8,
        .slotMeta m) ∨ i = (9, .rngRead m) ∨ i = (10, .reseed m) ∨ i = (11, .certRead m)) ∧ Reaches s m 0xC00030
        ∧ s.bit F.VAULT_CMD_BUSY = false ∧ s.vault.cur.isSome = true)
    ∧ (∃ (m : Master) (s : State) (i : Nat × Instr), (i = (1, .vaultLoad m) ∨ i = (2, .loadPlain m) ∨ i = (3,
        .generate m) ∨ i = (4, .wrapOut m) ∨ i = (5, .attest m) ∨ i = (6, .slotGen m) ∨ i = (7, .slotImport m) ∨ i = (8,
        .slotMeta m) ∨ i = (9, .rngRead m) ∨ i = (10, .reseed m) ∨ i = (11, .certRead m)) ∧ Reaches s m 0xC00030
        ∧ s.bit F.VAULT_CMD_BUSY = false ∧ s.vault.cur = none ∧ s.vault.queue = [] ∧ s.vaultReady = true)
    ∧ (∃ (s : State) (c : VCmd) (t0 dt : Nat) (src : Option (List Byte)), s.vault.cur = some c ∧ c.startAt = some t0 ∧ c.by' = .ym ∧ s.vault.queue = [] ∧ ¬(c.op = 10 ∧ s.noEntropy = true) ∧ let r := s.vcRefusal c; r ≠ 0)
    ∧ (∃ (s : State) (c : VCmd) (t0 dt : Nat) (src : Option (List Byte)), s.vault.cur = some c ∧ c.startAt = some t0 ∧ c.by' = .ym ∧ s.vault.queue = [] ∧ ¬(c.op = 10 ∧ s.noEntropy = true) ∧ let r := s.vcRefusal c; r = 0 ∧ c.op = 1 ∧ ∃ b, src = some b)
    ∧ (∃ (s : State) (c : VCmd) (t0 dt : Nat) (src : Option (List Byte)), s.vault.cur = some c ∧ c.startAt = some t0 ∧ c.by' = .ym ∧ s.vault.queue = [] ∧ ¬(c.op = 10 ∧ s.noEntropy = true) ∧ let r := s.vcRefusal c; r = 0 ∧ c.op = 9)
    ∧ (∃ (s : State) (c : VCmd) (t0 dt : Nat) (src : Option (List Byte)), s.vault.cur = some c ∧ c.startAt = some t0 ∧ c.by' = .ym ∧ s.vault.queue = [] ∧ ¬(c.op = 10 ∧ s.noEntropy = true) ∧ let r := s.vcRefusal c; r = 0 ∧ c.op = 10 ∧ 512 ≤ s.vault.pool.length)
    ∧ (∃ (m : Master) (s : State) (d : Nat), Reaches s m 0xC00000 ∧ bitOf d 0 = true ∧ s.bit F.VAULT_CTRL = false
        ∧ s.vaultOk = true)
    ∧ (∃ (m : Master) (s : State) (d : Nat), Reaches s m 0xC00000 ∧ bitOf d 0 = true ∧ s.bit F.VAULT_CTRL = false
        ∧ s.vaultOk = false)
    ∧ (∃ (m : Master) (s : State) (d : Nat), Reaches s m 0xC00000 ∧ bitOf d 0 = false) :=
  ⟨⟨.yardmaster, State.reset.setVault fun v => { v with cur := some ⟨.ym, 9, [], none⟩ }, (1, .vaultLoad .yardmaster),
      (by decide +kernel), (by unfold Reaches; decide +kernel), (by decide +kernel), (by decide +kernel)⟩,
   ⟨.yardmaster, { State.reset with vault := { State.reset.vault with cur := none, queue := [] } }, (1,
       .vaultLoad .yardmaster), (by decide +kernel), (by unfold Reaches; decide +kernel), (by decide +kernel),
       (by decide +kernel), (by decide +kernel), (by decide +kernel)⟩,
   ⟨vcSt 1 0, ⟨.ym, 1, setLe (setLe [] 0 1 1) 16 4 1, some 0⟩, 0, 0, none, (by decide +kernel), (by decide +kernel),
       (by decide +kernel), (by decide +kernel), (by decide +kernel), (by decide +kernel)⟩,
   ⟨vcSt 1 1, ⟨.ym, 1, setLe (setLe [] 0 1 1) 16 4 1, some 0⟩, 0, 0, some [1], (by decide +kernel), (by decide +kernel),
       (by decide +kernel), (by decide +kernel), (by decide +kernel), (by decide +kernel), (by decide +kernel), [1],
       (by decide +kernel)⟩,
   ⟨vcSt 9 1, ⟨.ym, 9, setLe (setLe [] 0 1 9) 16 4 1, some 0⟩, 0, 0, none, (by decide +kernel), (by decide +kernel),
       (by decide +kernel), (by decide +kernel), (by decide +kernel), (by decide +kernel), (by decide +kernel)⟩,
   ⟨(vcSt 10 1).setVault fun v => { v with pool := List.replicate 512 true }, ⟨.ym, 10, setLe (setLe [] 0 1 10) 16 4 1,
       some 0⟩, 0, 0, none, (by decide +kernel), (by decide +kernel), (by decide +kernel), (by decide +kernel),
       (by decide +kernel), (by decide +kernel), (by decide +kernel), (by decide +kernel)⟩,
   ⟨.yardmaster, st [(F.VAULT_CFG, 0x3FF)], 1, (by unfold Reaches; decide +kernel), (by decide +kernel), (by decide +kernel),
       (by decide +kernel)⟩,
   ⟨.yardmaster, State.reset, 1, (by unfold Reaches; decide +kernel), (by decide +kernel), (by decide +kernel),
       (by decide +kernel)⟩,
   ⟨.yardmaster, State.reset, 0, (by unfold Reaches; decide +kernel), (by decide +kernel)⟩⟩

theorem wit_RandomSources :
    (∃ (s : State) (dt : Nat), s.bit F.VAULT_STATUS_INIT_BUSY = true ∧ ∃ i, i < 4 ∧ s.startup i = true)
    ∧ (∃ (s : State) (i : Fin 4) (r : Bool) (dt : Nat), (s.noise i).last = some r
        ∧ s.get F.VAULT_RNG_CFG_RCT_CUT ≤ (s.noise i).run + 1 ∧ s.pairedOrYard = true)
    ∧ (∃ (s : State) (i : Fin 4) (r : Bool) (dt : Nat), let x := s.noise i; x.pos = 1023 ∧ (x.last = some r → x.run + 1 < s.get F.VAULT_RNG_CFG_RCT_CUT) ∧ 1 < s.get F.VAULT_RNG_CFG_RCT_CUT ∧ x.cnt + 1 < s.get F.VAULT_RNG_CFG_APT_CUT ∧ s.startup i = false ∧ s.get F.VAULT_RNG_STATUS_IN_USE = 2 ^ i.val)
    ∧ (∃ (s : State) (i : Fin 4) (t0 dt : Nat), (s.noise i).removedAt = some t0 ∧ s.startup i = false ∧ s.inUse i = false
        ∧ t0 + s.get F.VAULT_RNG_CFG_RETEST * 1000000000 ≤ s.clk + dt)
    ∧ (∃ (s : State) (i : Fin 258) (dt : Nat), (s.drbg i).ready = true ∧ 2 ^ 20 - 65536 ≤ (s.drbg i).count
        ∧ s.noEntropy = false ∧ 512 ≤ s.vault.pool.length)
    ∧ (∃ (m : Master) (s : State) (bits : Word), ReadReaches s m 0xC0010C)
    ∧ (∃ (s : State) (c : VCmd) (t0 dt : Nat), s.vault.cur = some c ∧ c.startAt = some t0 ∧ c.by' = .ym ∧ s.vault.queue = []
        ∧ vaultBound c.op ≤ s.clk + dt - t0) :=
  ⟨⟨st [(F.VAULT_STATUS_INIT_BUSY, 1), (F.VAULT_RNG_STATUS_STARTUP, 8)], 0, (by decide +kernel), 3, (by decide +kernel),
      (by decide +kernel)⟩,
   ⟨(st [(F.PAIR_CFG_MODE, 1)]).setNoise 3 fun x => { x with last := some true, run := 254 }, 3, true, 0,
       (by decide +kernel), (by decide +kernel), (by decide +kernel)⟩,
   ⟨(st [(F.VAULT_RNG_STATUS_IN_USE, 8)]).setNoise 3 fun x => { x with pos := 1023 }, 3, false, 0, (by decide +kernel),
       (by decide +kernel), (by decide +kernel), (by decide +kernel), (by decide +kernel), (by decide +kernel)⟩,
   ⟨(st [(F.VAULT_RNG_STATUS_IN_USE, 7)]).setNoise 3 fun x => { x with removedAt := some 0 }, 3, 0, 255000000000,
       (by decide +kernel), (by decide +kernel), (by decide +kernel), (by decide +kernel)⟩,
   ⟨(State.reset.setDrbg 257 ⟨true, 2 ^ 20 - 65536, false, 0⟩).setVault fun v => { v with pool := List.replicate 512 true },
       257, 0, (by decide +kernel), (by decide +kernel), (by decide +kernel), (by decide +kernel)⟩,
   ⟨.yardmaster, State.reset, 0, (by unfold ReadReaches; decide +kernel)⟩,
   ⟨vcSt 1 1, ⟨.ym, 1, setLe (setLe [] 0 1 1) 16 4 1, some 0⟩, 0, 8000, (by decide +kernel), (by decide +kernel),
       (by decide +kernel), (by decide +kernel), (by decide +kernel)⟩⟩

theorem wit_ChallengesAndCustodians :
    (∃ (m : Master) (s : State) (d : Nat), Reaches s m 0xC00504 ∧ s.bit F.VAULT_DC_CMD_BUSY = false ∧ let r := s.drbgReq 256; s.openChals.length < 8 ∧ r.2 = true ∧ ∃ i, i < 8)
    ∧ (∃ (m : Master) (s : State) (d : Nat), Reaches s m 0xC00504 ∧ s.bit F.VAULT_DC_CMD_BUSY = false
        ∧ 8 ≤ s.openChals.length)
    ∧ (∃ (m : Master) (s : State) (d : Nat), Reaches s m 0xC00600 ∧ ∃ i, i < 32) :=
  ⟨⟨.yardmaster, State.reset.setDrbg 256 ⟨true, 0, false, 0⟩, 0, (by unfold Reaches; decide +kernel), (by decide +kernel),
      (by decide +kernel), (by decide +kernel), 7, (by decide +kernel)⟩,
   ⟨.yardmaster, State.reset.setVault fun v => { v with chals := List.replicate 8 (List.replicate 32 0, 0) }, 0,
       (by unfold Reaches; decide +kernel), (by decide +kernel), (by decide +kernel)⟩,
   ⟨.yardmaster, State.reset, 0, (by unfold Reaches; decide +kernel), 31, (by decide +kernel)⟩⟩

theorem wit_Envelopes : ∃ (s : State) (dt a at' : Nat) (h : Bool) (e : List Byte) (c : List Byte × Nat),
      let u := s.elapse dt; s.vault.envelope = some (a, e.length, h, at') ∧ s.lifeSt.trans = none ∧ s.bit F.VAULT_CTRL = true
      ∧ s.bit F.VAULT_STATUS_KAT_FAIL = false ∧ s.get F.VAULT_PK_STATUS_ENG_OK ≠ 0 ∧ s.vaultReady = true
      ∧ evForm e e.length false = true ∧ s.evMay e = true ∧ u.evMatch e = some c
      ∧ ∃ (src : Option (List Byte)) (ok : Bool) (i : Nat × Instr), (i = (1, .imageAccept e dt) ∨ i = (2,
      .keyImport e src ok dt) ∨ i = (3, .sliceBind e dt) ∨ i = (4, .sliceUnbind e dt) ∨ i = (5, .tripSet e dt) ∨ i = (6,
      .lifeTransition e dt) ∨ i = (7, .tamperRearm e dt) ∨ i = (8, .ledgerClear e dt)) ∧ evOp e = i.1 :=
  ⟨envSt, 0, 0, 0, false, env0, (List.replicate 32 0, 0), (by decide +kernel), (by decide +kernel), (by decide +kernel),
      (by decide +kernel), (by decide +kernel), (by decide +kernel), (by decide +kernel), (by decide +kernel),
      (by decide +kernel), none, true, (7, .tamperRearm env0 0), (by decide +kernel), (by decide +kernel)⟩

theorem wit_LifeCommandsAndTamper :
    (∃ (m : Master) (s : State), Reaches s m 0x1000020 ∧ s.bit F.LIFE_CMD_BUSY = false ∧ ∃ i : Nat × Instr, (i = (1,
        .toBench m) ∨ i = (4, .toScrap m)))
    ∧ (∃ (m : Master) (s : State), Reaches s m 0x1000020 ∧ s.bit F.LIFE_CMD_BUSY = false ∧ let d := s.getBytes F.LIFE_CMD_DATAn 16; let k := leAt d 0 1; ∃ ok : Bool, ¬(s.life = 1 ∧ 2 ≤ k ∧ k ≤ 5 ∧ s.digestOf k = none ∧ ok = true))
    ∧ (∃ (m : Master) (s : State), Reaches s m 0x1000020 ∧ s.bit F.LIFE_CMD_BUSY = false ∧ s.lifeSt.grant ≠ none)
    ∧ (∃ (s : State) (k : Nat) (dt : Nat), s.lifeSt.trans = some (k, false) ∧ ∃ i, i < 3)
    ∧ (∃ (s : State) (k : Nat) (dt : Nat) (f : Option (Fin 3)), s.lifeSt.trans = some (k, true))
    ∧ (∃ (s : State) (t0 dur dt : Nat), s.lifeSt.grant = some (t0, dur))
    ∧ (∃ (s : State) (n : Fin 32) (param dt en win r : Nat), n.val < 25 ∧ bitOf (s.get F.TAMP_LIVE) n.val = false
        ∧ s.lifeSt.mainOn = true ∧ s.srcCfg n.val = (en, 1, win, r) ∧ en = 0)
    ∧ (∃ (s : State) (n : Fin 32) (param dt en win r : Nat), n.val < 25 ∧ bitOf (s.get F.TAMP_LIVE) n.val = false
        ∧ s.lifeSt.mainOn = true ∧ s.srcCfg n.val = (en, 1, win, r) ∧ en ≠ 0 ∧ (r = 1 ∨ r = 3))
    ∧ (∃ (s : State) (n : Fin 32) (param dt en win r : Nat), n.val < 25 ∧ bitOf (s.get F.TAMP_LIVE) n.val = false
        ∧ s.lifeSt.mainOn = true ∧ s.srcCfg n.val = (en, 1, win, r) ∧ en ≠ 0 ∧ (r = 2 ∨ r = 3))
    ∧ (∃ (s : State) (ended : List (Fin 32)) (param dt : Nat), ∃ i, i ∈ ended)
    ∧ (∃ (m : Master) (s : State) (d : Nat), Reaches s m 0x1000000 ∧ bitOf d 0 = true ∧ s.bit F.TAMP_CTRL = false
        ∧ s.tampOk = true)
    ∧ (∃ (m : Master) (s : State) (d : Nat), Reaches s m 0x1000000 ∧ bitOf d 0 = true ∧ s.bit F.TAMP_CTRL = false
        ∧ s.tampOk = false)
    ∧ (∃ (m : Master) (s : State) (d : Nat), Reaches s m 0x1000000 ∧ bitOf d 0 = false
        ∧ (s.life = 1 ∨ s.life = 2 ∨ s.life = 3))
    ∧ (∃ (m : Master) (s : State) (d : Nat), Reaches s m 0x1000000 ∧ bitOf d 0 = false
        ∧ (¬(s.life = 1 ∨ s.life = 2 ∨ s.life = 3))) :=
  ⟨⟨.yardmaster, State.reset, (by unfold Reaches; decide +kernel), (by decide +kernel), (1, .toBench .yardmaster),
      (by decide +kernel)⟩,
   ⟨.yardmaster, State.reset, (by unfold Reaches; decide +kernel), (by decide +kernel), false, (by decide +kernel)⟩,
   ⟨.yardmaster, { State.reset with lifeSt := { State.reset.lifeSt with grant := some (0, 1) } },
       (by unfold Reaches; decide +kernel), (by decide +kernel), (by decide +kernel)⟩,
   ⟨{ State.reset with lifeSt := { State.reset.lifeSt with trans := some (4, false) } }, 4, 0, (by decide +kernel), 2,
       (by decide +kernel)⟩,
   ⟨{ State.reset with lifeSt := { State.reset.lifeSt with trans := some (4, true) } }, 4, 0, none, (by decide +kernel)⟩,
   ⟨{ State.reset with lifeSt := { State.reset.lifeSt with grant := some (0, 1) } }, 0, 1, 0, (by decide +kernel)⟩,
   ⟨st [(F.TAMP_CTRL, 1), (F.TAMP_SRCn_CFG_EN.idx 24, 0), (F.TAMP_SRCn_CFG_N.idx 24, 1), (F.TAMP_SRCn_CFG_WINDOW.idx 24, 1),
       (F.TAMP_SRCn_CFG_RESP.idx 24, 1)], 24, 0, 0, 0, 1, 1, (by decide +kernel), (by decide +kernel), (by decide +kernel),
       (by decide +kernel), (by decide +kernel)⟩,
   ⟨st [(F.TAMP_CTRL, 1), (F.TAMP_SRCn_CFG_EN.idx 24, 1), (F.TAMP_SRCn_CFG_N.idx 24, 1), (F.TAMP_SRCn_CFG_WINDOW.idx 24, 1),
       (F.TAMP_SRCn_CFG_RESP.idx 24, 3)], 24, 0, 0, 1, 1, 3, (by decide +kernel), (by decide +kernel), (by decide +kernel),
       (by decide +kernel), (by decide +kernel), (by decide +kernel)⟩,
   ⟨st [(F.TAMP_CTRL, 1), (F.TAMP_SRCn_CFG_EN.idx 24, 1), (F.TAMP_SRCn_CFG_N.idx 24, 1), (F.TAMP_SRCn_CFG_WINDOW.idx 24, 1),
       (F.TAMP_SRCn_CFG_RESP.idx 24, 2)], 24, 0, 0, 1, 1, 2, (by decide +kernel), (by decide +kernel), (by decide +kernel),
       (by decide +kernel), (by decide +kernel), (by decide +kernel)⟩,
   ⟨State.reset, [31], 0, 0, 31, (by decide +kernel)⟩,
   ⟨.yardmaster, State.reset, 1, (by unfold Reaches; decide +kernel), (by decide +kernel), (by decide +kernel),
       (by decide +kernel)⟩,
   ⟨.yardmaster, st [(F.TAMP_SRCn_CFG_N.idx 31, 0)], 1, (by unfold Reaches; decide +kernel), (by decide +kernel),
       (by decide +kernel), (by decide +kernel)⟩,
   ⟨.yardmaster, st [(F.LIFE_STATE_STATE, 3)], 0, (by unfold Reaches; decide +kernel), (by decide +kernel),
       (by decide +kernel)⟩,
   ⟨.yardmaster, State.reset, 0, (by unfold Reaches; decide +kernel), (by decide +kernel), (by decide +kernel)⟩⟩

theorem wit_TapInstructions :
    (∃ s : State, ∃ p : Nat × Instr, (p = (0x01, .idcode) ∨ p = (0x22, .dbgStatus) ∨ p = (0xFF, .bypass) ∨ p = (0x01,
        .tapReset)))
    ∧ (∃ s : State, ∃ p : Nat × Instr, (p = (0x03, .clamp) ∨ p = (0x04, .highz)))
    ∧ (∃ s : State, ∃ (v : Nat) (p : Nat × Instr), (p = (0x00, .extest v) ∨ p = (0x05, .extestPulse v) ∨ p = (0x06,
        .extestTrain v)))
    ∧ (∃ s : State, ∃ (wr ok : Bool) (a d : Nat), s.dbgLevel = 0)
    ∧ (∃ s : State, ∃ (ok : Bool) (a d : Nat), 1 ≤ s.dbgLevel ∧ a % 4 = 0 ∧ s.domAccessible (s.regDomain a) = true
        ∧ a ≠ 0xC0010C)
    ∧ (∃ s : State, ∃ (ok : Bool) (a d : Nat), s.dbgLevel = 1 ∧ a % 4 = 0) :=
  ⟨⟨State.reset, (0x01, .idcode), (by decide +kernel)⟩,
   ⟨State.reset, (0x03, .clamp), (by decide +kernel)⟩,
   ⟨State.reset, 0, (0x00, .extest 0), (by decide +kernel)⟩,
   ⟨st [(F.LIFE_STATE_STATE, 2), (F.LIFE_DBG_LEVEL, 0)], false, false, 0, 0, (by decide +kernel)⟩,
   ⟨State.reset, false, 0, 0, (by decide +kernel), (by decide +kernel), (by decide +kernel), (by decide +kernel)⟩,
   ⟨st [(F.LIFE_STATE_STATE, 1), (F.LIFE_DBG_LEVEL, 0)], false, 0, 0, (by decide +kernel), (by decide +kernel)⟩⟩

theorem wit_ResetsOverlap :
    (let bk : List Fld := [F.IDENT_POH_H, F.IDENT_AGE_H, F.IDENT_ERASE_IMG, F.IDENT_ERASE_KEY, F.IDENT_ERASE_LDG, F.IDENT_ERASE_BOOT, F.IDENT_STATUS, F.EVT_STATUS_CLEARING, F.LDG_CLR_POS, F.TAMP_STATUS_VBAT_LOST, F.TAMP_STATUS_ALERT, F.TAMP_STATUS_LOCKED, F.TAMP_MTC, F.TAMP_STICKY, F.TAMP_CNT_INV] ++ (List.range 25).flatMap fun i => [F.TAMP_RECn_FIRST.idx i, F.TAMP_RECn_LAST.idx i, F.TAMP_RECn_CNT_COUNT.idx i, F.TAMP_RECn_CNT_PARAM.idx i]; ∃ (s : State) (off : Bool) (lost : Option (BitVec 64)) (dt : Nat), ∃ f, f ∈ bk)
    ∧ (∃ (s : State) (dt : Nat), s.boot.inReset ≠ some true)
    ∧ (∃ (s : State) (mode : Fin 4) (strapB flashOk : Bool) (dt : Nat), s.boot.porN = false ∧ s.boot.wrstN = true)
    ∧ (∃ (s : State) (mode : Fin 4) (strapB flashOk : Bool) (dt : Nat) (por : Bool), s.boot.wrstN = false
        ∧ s.boot.inReset = some por ∧ s.boot.porN = true) :=
  ⟨⟨State.reset, false, none, 0, F.IDENT_POH_H, (by decide +kernel)⟩,
   ⟨{ State.reset with boot := { State.reset.boot with inReset := none, porN := true } }, 0, (by decide +kernel)⟩,
   ⟨{ State.reset with boot := { State.reset.boot with porN := false, wrstN := true } }, 0, false, false, 0,
       (by decide +kernel), (by decide +kernel)⟩,
   ⟨{ State.reset with boot := { State.reset.boot with wrstN := false, inReset := some false, porN := true } }, 0, false,
       false, 0, false, (by decide +kernel), (by decide +kernel), (by decide +kernel)⟩⟩

theorem wit_StartsAndImages :
    (∃ (s : State) (t0 dt : Nat), s.lifeSt.scrapAt = some t0 ∧ s.life = 4)
    ∧ (∃ (s : State) (dt : Nat), s.lifeSt.refclkLost = true ∧ s.life = 4)
    ∧ (∃ (s : State) (dt : Nat), s.lifeSt.refclkLost = true ∧ s.life < 4 ∧ s.boot.mode ≠ 3 ∧ s.flashOk = false)
    ∧ (∃ (s : State) (slot dt : Nat) (own : Bool) (rest : List (Nat × Bool)) (readOk fA fB : Bool) (bad : List (Fin 68)),
        s.boot.cands = (slot, own) :: rest ∧ s.phase = 2 ∧ s.bit F.VAULT_STATUS_INIT_BUSY = false)
    ∧ (∃ (m : Master) (s : State) (d : Nat), Reaches s m 0x120 ∧ s.bit F.GLB_IMG_CMD_BUSY = false ∧ let slot := bitsOf d 8 2; let err (k : Nat) := s.imgErr k slot (s.get F.GLB_IMG_OFS) (s.get F.GLB_IMG_LEN) (s.get F.GLB_IMG_SRC) (bitOf d 5); ∃ i : Nat × Instr, (i = (1, .eraseImg m d) ∨ i = (2, .imgWrite m d) ∨ i = (3, .imgDigest m d) ∨ i = (4, .confirm m d) ∨ i = (5, .preferImg m d)) ∧ err i.1 ≠ 0)
    ∧ (∃ (m : Master) (s : State) (d : Nat), Reaches s m 0x120 ∧ s.bit F.GLB_IMG_CMD_BUSY = false ∧ let slot := bitsOf d 8 2; let err (k : Nat) := s.imgErr k slot (s.get F.GLB_IMG_OFS) (s.get F.GLB_IMG_LEN) (s.get F.GLB_IMG_SRC) (bitOf d 5); ∃ i : Nat × Instr, (i = (1, .eraseImg m d) ∨ i = (2, .imgWrite m d) ∨ i = (3, .imgDigest m d) ∨ i = (4, .confirm m d) ∨ i = (5, .preferImg m d)) ∧ err i.1 = 0)
    ∧ (∃ (m : Master) (s : State) (d : Nat), Reaches s m 0x120 ∧ s.bit F.GLB_IMG_CMD_BUSY = false ∧ s.life ≠ 4)
    ∧ (∃ (s : State) (op slot src ofs len dt : Nat) (data : Option (List Byte)), s.boot.cmd = some (op, slot, src, ofs, len))
    ∧ (∃ (s : State) (i : ImgSt) (t0 dt : Nat), s.boot.img = some i ∧ s.boot.opAt = some t0
        ∧ s.bit F.GLB_BOOT_STATUS_TRIAL = true ∧ hAuto i.hdr = true ∧ s.flashOk = true) :=
  ⟨⟨{ st [(F.LIFE_STATE_STATE, 4)] with lifeSt := { State.reset.lifeSt with scrapAt := some 0 } }, 0, 0, (by decide +kernel),
      (by decide +kernel)⟩,
   ⟨{ st [(F.LIFE_STATE_STATE, 4)] with lifeSt := { State.reset.lifeSt with refclkLost := true } }, 0, (by decide +kernel),
       (by decide +kernel)⟩,
   ⟨{ State.reset with flashOk := false, lifeSt := { State.reset.lifeSt with refclkLost := true } }, 0, (by decide +kernel),
       (by decide +kernel), (by decide +kernel), (by decide +kernel)⟩,
   ⟨{ st [(F.GLB_BOOT_STATUS_PHASE, 2)] with boot := { State.reset.boot with cands := [(1, true)] } }, 1, 0, true, [], false,
       false, false, [], (by decide +kernel), (by decide +kernel), (by decide +kernel)⟩,
   ⟨.yardmaster, State.reset, 0, (by unfold Reaches; decide +kernel), (by decide +kernel), (1, .eraseImg .yardmaster 0),
       (by decide +kernel), (by decide +kernel)⟩,
   ⟨.yardmaster, st [(F.GLB_BOOT_STATUS_PHASE, 6), (F.GLB_BOOT_STATUS_TRIAL, 1)], 0, (by unfold Reaches; decide +kernel),
       (by decide +kernel), (4, .confirm .yardmaster 0), (by decide +kernel), (by decide +kernel)⟩,
   ⟨.yardmaster, State.reset, 0, (by unfold Reaches; decide +kernel), (by decide +kernel), (by decide +kernel)⟩,
   ⟨{ State.reset with boot := { State.reset.boot with cmd := some (2, 1, 0, 0, 256) } }, 2, 1, 0, 0, 256, 0, none,
       (by decide +kernel)⟩,
   ⟨{ st [(F.GLB_BOOT_STATUS_TRIAL, 1)] with boot := { State.reset.boot with img := some ⟨1, setLe [] 21 1 1, 0⟩, opAt := some 0 } }, ⟨1, setLe [] 21 1 1, 0⟩, 0, 0, (by decide +kernel), (by decide +kernel), (by decide +kernel), (by decide +kernel), (by decide +kernel)⟩⟩

theorem wit_RegisterAccess :
    (∃ (m : Master) (s : State) (a d len : Nat) (whole ok : Bool), ¬(m = .debug ∧ s.dbgLevel = 0)
        ∧ writeSizeOk a len whole = false)
    ∧ (∃ (m : Master) (s : State) (a d len : Nat) (whole ok : Bool), ¬(m = .debug ∧ s.dbgLevel = 0) ∧ len = 4 ∧ a % 4 = 0
        ∧ whole = true ∧ m ≠ .debug ∧ s.domAccessible (s.regDomain a) = false)
    ∧ (∃ (m : Master) (s : State) (a d len : Nat) (whole ok : Bool), ¬(m = .debug ∧ s.dbgLevel = 0) ∧ len = 4 ∧ a % 4 = 0
        ∧ whole = true ∧ Reaches s m a ∧ ¬(0x80000 ≤ a ∧ a < 0x81080) ∧ Table.find a (commandHooks (d % 2 ^ 32) ok) = none
        ∧ instanceHook a (d % 2 ^ 32) = none ∧ findReg a blocks = none)
    ∧ (∃ (m : Master) (s : State) (a d len : Nat) (whole ok : Bool), ¬(m = .debug ∧ s.dbgLevel = 0) ∧ len = 4 ∧ a % 4 = 0
        ∧ whole = true ∧ Reaches s m a ∧ ¬(0x80000 ≤ a ∧ a < 0x81080) ∧ Table.find a (commandHooks (d % 2 ^ 32) ok) = none
        ∧ instanceHook a (d % 2 ^ 32) = none ∧ ∃ r, findReg a blocks = some r ∧ (r.block.wign = none ∨ s.gated r = false))
    ∧ (∃ (m : Master) (s : State) (a d len : Nat) (whole ok : Bool), ¬(m = .debug ∧ s.dbgLevel = 0) ∧ len = 4 ∧ a % 4 = 0
        ∧ whole = true ∧ Reaches s m a ∧ ¬(0x80000 ≤ a ∧ a < 0x81080) ∧ Table.find a (commandHooks (d % 2 ^ 32) ok) = none
        ∧ instanceHook a (d % 2 ^ 32) = none ∧ ∃ r, findReg a blocks = some r ∧ ∃ f, f ∈ r.fields
        ∧ (r.fields.map Fld.key).Nodup ∧ delivers f.key = false ∧ s.gated r = false ∧ f.acc = .ro)
    ∧ (∃ (m : Master) (s : State) (a d len : Nat) (whole ok : Bool), ¬(m = .debug ∧ s.dbgLevel = 0) ∧ len = 4 ∧ a % 4 = 0
        ∧ whole = true ∧ Reaches s m a ∧ ¬(0x80000 ≤ a ∧ a < 0x81080) ∧ Table.find a (commandHooks (d % 2 ^ 32) ok) = none
        ∧ instanceHook a (d % 2 ^ 32) = none ∧ ∃ r, findReg a blocks = some r ∧ ∃ f, f ∈ r.fields
        ∧ (r.fields.map Fld.key).Nodup ∧ delivers f.key = false ∧ s.gated r = false ∧ (f.acc = .rw ∨ f.acc = .rwd))
    ∧ (∃ (m : Master) (s : State) (a d len : Nat) (whole ok : Bool), ¬(m = .debug ∧ s.dbgLevel = 0) ∧ len = 4 ∧ a % 4 = 0
        ∧ whole = true ∧ Reaches s m a ∧ ¬(0x80000 ≤ a ∧ a < 0x81080) ∧ Table.find a (commandHooks (d % 2 ^ 32) ok) = none
        ∧ instanceHook a (d % 2 ^ 32) = none ∧ ∃ r, findReg a blocks = some r ∧ ∃ f, f ∈ r.fields
        ∧ (r.fields.map Fld.key).Nodup ∧ delivers f.key = false ∧ s.gated r = false ∧ f.acc = .w1c)
    ∧ (∃ (m : Master) (s : State) (a d len : Nat) (whole ok : Bool), ¬(m = .debug ∧ s.dbgLevel = 0) ∧ len = 4 ∧ a % 4 = 0 ∧ whole = true ∧ Reaches s m a ∧ ¬(0x80000 ≤ a ∧ a < 0x81080) ∧ Table.find a (commandHooks (d % 2 ^ 32) ok) = none ∧ instanceHook a (d % 2 ^ 32) = none ∧ ∃ r, findReg a blocks = some r ∧ ∃ w, s.gated r = true ∧ r.block.wign = some w ∧ let k := if r.block.gateMoves then r.inst else 0; delivers (w.1.shift k).key = false ∧ (∃ f ∈ r.fields, s.rwdChanges r.word (d % 2 ^ 32) f = true))
    ∧ (∃ (m : Master) (s : State) (a len : Nat), m ≠ .debug ∧ readSizeOk a len = false)
    ∧ (∃ (m : Master) (s : State) (a len : Nat), m ≠ .debug ∧ 0 < len ∧ a % 4 + len ≤ 4
        ∧ s.domAccessible (s.regDomain (a / 4 * 4)) = false)
    ∧ (let plain (a : Nat) : Prop := ¬(0x80000 ≤ a ∧ a < 0x82028) ∧ ¬(0x300000 ≤ a ∧ a < 0x320000 ∧ a % 0x400 = 0x20) ∧ a ∉ [0x100030, 0x100034, 0x100038, 0x100050, 0x100054, 0xE00010, 0xC0010C]; ∃ (m : Master) (s : State) (a dt : Nat) (r : Found) (f : Fld), ReadReaches s m a ∧ a % 4 = 0 ∧ plain a ∧ findReg a blocks = some r ∧ r.word = 0 ∧ r.fields = [f] ∧ f.acc = .rlh ∧ f.prot ≠ .inv ∧ s.badOf r.fields = [] ∧ 32 < f.width ∧ (s.elapse dt).refresh a = s.elapse dt ∧ ∃ m' b, ¬(m' = m ∧ b = f.off + 4) ∧ m'.code < 4)
    ∧ (let plain (a : Nat) : Prop := ¬(0x80000 ≤ a ∧ a < 0x82028) ∧ ¬(0x300000 ≤ a ∧ a < 0x320000 ∧ a % 0x400 = 0x20) ∧ a ∉ [0x100030, 0x100034, 0x100038, 0x100050, 0x100054, 0xE00010, 0xC0010C]; ∃ (m : Master) (s : State) (a : Nat) (r : Found), ReadReaches s m a ∧ a % 4 = 0 ∧ plain a ∧ findReg a blocks = some r ∧ r.word = 0 ∧ s.invBad r.fields = [] ∧ s.badOf r.fields = [] ∧ s.refresh a = s ∧ (∀ f ∈ r.fields, f.acc = .rc ∨ f.acc = .ro ∨ f.acc = .rw) ∧ ∃ f, f ∈ r.fields ∧ f.acc = .rc ∧ delivers f.key = false)
    ∧ (let plain (a : Nat) : Prop := ¬(0x80000 ≤ a ∧ a < 0x82028) ∧ ¬(0x300000 ≤ a ∧ a < 0x320000 ∧ a % 0x400 = 0x20) ∧ a ∉ [0x100030, 0x100034, 0x100038, 0x100050, 0x100054, 0xE00010, 0xC0010C]; ∃ (m : Master) (s : State) (a : Nat) (r : Found), ReadReaches s m a ∧ a % 4 = 0 ∧ plain a ∧ findReg a blocks = some r ∧ s.badOf r.fields ≠ [] ∧ ∃ k, k ∈ s.badOf r.fields)
    ∧ (let plain (a : Nat) : Prop := ¬(0x80000 ≤ a ∧ a < 0x82028) ∧ ¬(0x300000 ≤ a ∧ a < 0x320000 ∧ a % 0x400 = 0x20) ∧ a ∉ [0x100030, 0x100034, 0x100038, 0x100050, 0x100054, 0xE00010, 0xC0010C]; ∃ (m : Master) (s : State) (a : Nat) (r : Found) (f : Fld), ReadReaches s m a ∧ a % 4 = 0 ∧ plain a ∧ findReg a blocks = some r ∧ s.invBad r.fields = [f] ∧ f.key ≠ F.TAMP_CNT_INV.key ∧ (∀ g ∈ r.fields, g.acc ≠ .rc) ∧ a = 0x1000010 ∧ f = F.LIFE_STATE_STATE)
    ∧ (∃ (s : State) (dt : Nat), (∀ k ∈ s.scrubKeys, ∃ f, fieldOfKey k = some f ∧ f.prot = .tmr) ∧ ∃ k, k ∈ s.scrubKeys
        ∧ ∃ f, fieldOfKey k = some f ∧ delivers f.key = false)
    ∧ (∃ (s : State) (dt : Nat), (∀ k ∈ s.scrubKeys, ∃ f, fieldOfKey k = some f ∧ f.prot = .tmr) ∧ s.scrubKeys ≠ []) :=
  ⟨⟨.yardmaster, State.reset, 0, 0, 0, false, false, (by decide +kernel), (by decide +kernel)⟩,
   ⟨.yardmaster, st [(F.PWR_DOMd_STAT_STATE.idx 17, 3)], 0xBFFFFC, 0, 4, true, false, (by decide +kernel),
       (by decide +kernel), (by decide +kernel), (by decide +kernel), (by decide +kernel), (by decide +kernel)⟩,
   ⟨.yardmaster, State.reset, 0xFFFFC, 0, 4, true, false, (by decide +kernel), (by decide +kernel), (by decide +kernel),
       (by decide +kernel), (by unfold Reaches; decide +kernel), (by decide +kernel), (by decide +kernel),
       (by decide +kernel), (by decide +kernel)⟩,
   ⟨.yardmaster, State.reset, 292, 0, 4, true, false, (by decide +kernel), (by decide +kernel), (by decide +kernel),
       (by decide +kernel), (by unfold Reaches; decide +kernel), (by decide +kernel), (by decide +kernel),
       (by decide +kernel), (findReg 292 blocks).get (by decide +kernel), (by decide +kernel), (by decide +kernel)⟩,
   ⟨.yardmaster, State.reset, 0, 0, 4, true, false, (by decide +kernel), (by decide +kernel), (by decide +kernel),
       (by decide +kernel), (by unfold Reaches; decide +kernel), (by decide +kernel), (by decide +kernel),
       (by decide +kernel), (findReg 0 blocks).get (by decide +kernel), (by decide +kernel),
       ((findReg 0 blocks).get (by decide +kernel)).fields.headD F.LIFE_STATE_STATE, (by decide +kernel),
       (by decide +kernel), (by decide +kernel), (by decide +kernel), (by decide +kernel)⟩,
   ⟨.yardmaster, State.reset, 292, 0, 4, true, false, (by decide +kernel), (by decide +kernel), (by decide +kernel),
       (by decide +kernel), (by unfold Reaches; decide +kernel), (by decide +kernel), (by decide +kernel),
       (by decide +kernel), (findReg 292 blocks).get (by decide +kernel), (by decide +kernel),
       ((findReg 292 blocks).get (by decide +kernel)).fields.headD F.LIFE_STATE_STATE, (by decide +kernel),
       (by decide +kernel), (by decide +kernel), (by decide +kernel), (by decide +kernel)⟩,
   ⟨.yardmaster, State.reset, 32, 0, 4, true, false, (by decide +kernel), (by decide +kernel), (by decide +kernel),
       (by decide +kernel), (by unfold Reaches; decide +kernel), (by decide +kernel), (by decide +kernel),
       (by decide +kernel), (findReg 32 blocks).get (by decide +kernel), (by decide +kernel),
       ((findReg 32 blocks).get (by decide +kernel)).fields.headD F.LIFE_STATE_STATE, (by decide +kernel),
       (by decide +kernel), (by decide +kernel), (by decide +kernel), (by decide +kernel)⟩,
   ⟨.yardmaster, st [(F.PWR_CTRL, 1)], 15728656, 0xFFFFFFFF, 4, true, false, (by decide +kernel), (by decide +kernel),
       (by decide +kernel), (by decide +kernel), (by unfold Reaches; decide +kernel), (by decide +kernel),
       (by decide +kernel), (by decide +kernel), (findReg 15728656 blocks).get (by decide +kernel), (by decide +kernel),
       ((findReg 15728656 blocks).get (by decide +kernel)).block.wign.getD (F.LIFE_STATE_STATE, F.LIFE_STATE_STATE),
       (by decide +kernel), (by decide +kernel), (by decide +kernel), (by decide +kernel)⟩,
   ⟨.yardmaster, State.reset, 0, 0, (by decide +kernel), (by decide +kernel)⟩,
   ⟨.yardmaster, st [(F.PWR_DOMd_STAT_STATE.idx 17, 3)], 0xBFFFFF, 1, (by decide +kernel), (by decide +kernel),
       (by decide +kernel), (by decide +kernel)⟩,
   ⟨.yardmaster, State.reset, 80, 0, (findReg 80 blocks).get (by decide +kernel),
       ((findReg 80 blocks).get (by decide +kernel)).fields.headD F.LIFE_STATE_STATE,
       (by unfold ReadReaches; decide +kernel), (by decide +kernel), (by decide +kernel), (by decide +kernel),
       (by decide +kernel), (by decide +kernel), (by decide +kernel), (by decide +kernel), (by decide +kernel),
       (by decide +kernel), (by decide +kernel), .host, 0, (by decide +kernel), (by decide +kernel)⟩,
   ⟨.yardmaster, State.reset, 9437212, (findReg 9437212 blocks).get (by decide +kernel),
       (by unfold ReadReaches; decide +kernel), (by decide +kernel), (by decide +kernel), (by decide +kernel),
       (by decide +kernel), (by decide +kernel), (by decide +kernel), (by decide +kernel), (by decide +kernel),
       ((findReg 9437212 blocks).get (by decide +kernel)).fields.headD F.LIFE_STATE_STATE, (by decide +kernel),
       (by decide +kernel), (by decide +kernel)⟩,
   ⟨.yardmaster, { State.reset with tmr := [(67111424, (1, 0, 0))] }, 0x100028,
       (findReg 0x100028 blocks).get (by decide +kernel), (by unfold ReadReaches; decide +kernel), (by decide +kernel),
       (by decide +kernel), (by decide +kernel), (by decide +kernel), 67111424, (by decide +kernel)⟩,
   ⟨.yardmaster, { State.reset with inv := [(F.LIFE_STATE_STATE.key, 1)] }, 0x1000010,
       (findReg 0x1000010 blocks).get (by decide +kernel), F.LIFE_STATE_STATE, (by unfold ReadReaches; decide +kernel),
       (by decide +kernel), (by decide +kernel), (by decide +kernel), (by decide +kernel), (by decide +kernel),
       (by decide +kernel), (by decide +kernel), (by decide +kernel)⟩,
   ⟨{ State.reset with tmr := [(67111424, (1, 0, 0))] }, 0, fun k h => ⟨(fieldOfKey 67111424).get (by decide +kernel),
       by revert k; decide +kernel, by decide +kernel⟩, 67111424, (by decide +kernel),
       (fieldOfKey 67111424).get (by decide +kernel), (by decide +kernel), (by decide +kernel)⟩,
   ⟨{ State.reset with tmr := [(67111424, (1, 0, 0))] }, 0, fun k h => ⟨(fieldOfKey 67111424).get (by decide +kernel),
       by revert k; decide +kernel, by decide +kernel⟩, (by decide +kernel)⟩⟩

theorem wit_MemoryTestAndAge :
    (∃ (m : Master) (s : State) (d : Nat), Reaches s m 0x1100000 ∧ bitOf d 0 = false)
    ∧ (∃ (m : Master) (s : State) (d : Nat), Reaches s m 0x1100000 ∧ bitOf d 0 = true ∧ s.bit F.MTEST_CTRL = false)
    ∧ (∃ (s : State) (u : MemUnit) (last : Bool) (dt : Nat), s.mtest.found = [] ∧ last = true ∧ s.bit F.MTEST_CTRL = true
        ∧ (s.bt.deadline = false ∨ s.bt.decision ≠ none))
    ∧ (∃ (s : State) (u : MemUnit) (o dt : Nat) (last : Bool), s.mtest.found = [] ∧ s.bit F.MTEST_CTRL = true
        ∧ s.rowsUsed u < 8 ∧ s.bt.deadline = false ∧ s.get F.MTEST_REC < 2048)
    ∧ (∃ (s : State) (u : MemUnit) (o dt : Nat) (last : Bool), s.mtest.found = [] ∧ s.bit F.MTEST_CTRL = true
        ∧ s.rowsUsed u < 8 ∧ s.bt.deadline = false ∧ 2048 ≤ s.get F.MTEST_REC) :=
  ⟨⟨.yardmaster, State.reset, 0, (by unfold Reaches; decide +kernel), (by decide +kernel)⟩,
   ⟨.yardmaster, State.reset, 1, (by unfold Reaches; decide +kernel), (by decide +kernel), (by decide +kernel)⟩,
   ⟨{ st [(F.MTEST_CTRL, 1)] with mtest := { State.reset.mtest with found := [] } }, .ym, true, 0, (by decide +kernel),
       (by decide +kernel), (by decide +kernel), (by decide +kernel)⟩,
   ⟨{ st [(F.MTEST_CTRL, 1)] with mtest := { State.reset.mtest with found := [] }, bt := { State.reset.bt with deadline := false } }, .yardTag 0, 0, 0, false, (by decide +kernel), (by decide +kernel), (by decide +kernel), (by decide +kernel), (by decide +kernel)⟩,
   ⟨st [(F.MTEST_CTRL, 1), (F.MTEST_REC, 2048)], .yardTag 0, 0, 0, false, (by decide +kernel), (by decide +kernel),
       (by decide +kernel), (by decide +kernel), (by decide +kernel)⟩⟩

theorem wit_PairCommandsAndLink :
    (∃ (m : Master) (s : State) (d : Nat), Reaches s m 0xA00000 ∧ s.role = 6)
    ∧ (∃ (m : Master) (s : State) (d : Nat), Reaches s m 0xA00000 ∧ s.role ≠ 6 ∧ bitOf d 0 = true ∧ bitsOf d 2 4 = 0
        ∧ s.bit F.PAIR_CTRL_EN = false ∧ s.pairOk = true)
    ∧ (∃ (m : Master) (s : State) (d : Nat), Reaches s m 0xA00000 ∧ s.role ≠ 6 ∧ bitOf d 0 = true ∧ bitsOf d 2 4 = 0
        ∧ s.bit F.PAIR_CTRL_EN = false ∧ s.pairOk = false)
    ∧ (∃ (m : Master) (s : State) (d : Nat), Reaches s m 0xA00000 ∧ s.role ≠ 6 ∧ bitOf d 0 = false
        ∧ s.bit F.PAIR_CTRL_EN = true)
    ∧ (∃ (m : Master) (s : State) (d : Nat), Reaches s m 0xA00000 ∧ s.role ≠ 6 ∧ s.role ≠ 4)
    ∧ (∃ (m : Master) (s : State) (d : Nat), Reaches s m 0xA00000 ∧ s.role ≠ 6 ∧ 0 < s.rate)
    ∧ (∃ (m : Master) (s : State) (d : Nat), Reaches s m 0xA00000 ∧ s.mayResync = false)
    ∧ (∃ (s : State) (o : Option Master), (∀ m, o = some m → Reaches s m 0xA00000) ∧ s.role ≠ 0 ∧ s.role ≠ 6
        ∧ s.bit F.PAIR_STATUS_LINK_UP = true)
    ∧ (∃ (s : State) (dt : Nat), s.role ≠ 0 ∧ s.bit F.PAIR_STATUS_LINK_UP = true
        ∧ s.pair.helloAt + (if s.role = 1 then 10000 else 1000000) ≤ s.clk + dt)
    ∧ (∃ (s : State) (dt : Nat), s.role ≠ 0 ∧ s.bit F.PAIR_STATUS_LINK_UP = true ∧ s.pair.lastTx + s.hbPeriod ≤ s.clk + dt)
    ∧ (∃ (s : State) (dt : Nat), s.pair.lost = none ∧ s.pair.pState ≠ none
        ∧ s.pair.lastRx + s.get F.PAIR_HB_CFG_MISS * s.hbPeriod ≤ s.clk + dt ∧ s.role = 2 ∧ s.sync = 2
        ∧ s.bit F.PAIR_STATUS_IL_QUIET = false ∧ s.pair.strapOk = true ∧ tqRuns s.tq = true)
    ∧ (∃ (s : State) (dt : Nat), s.pair.lost = none ∧ s.pair.pState ≠ none
        ∧ s.pair.lastRx + s.get F.PAIR_HB_CFG_MISS * s.hbPeriod ≤ s.clk + dt ∧ s.role = 2 ∧ s.sync = 2
        ∧ s.bit F.PAIR_STATUS_IL_QUIET = true)
    ∧ (∃ (s : State) (dt : Nat), s.bit F.PAIR_STATUS_LINK_UP = false ∧ s.domState 18 = 0 ∧ s.lrefGone 0 = false)
    ∧ (∃ (s : State) (dt : Nat), s.bit F.PAIR_STATUS_LINK_UP = true ∧ s.role ≠ 2 ∧ s.role = 4 ∧ s.pair.lost = none
        ∧ s.pair.pState ≠ none)
    ∧ (∃ (s : State) (x : RsTx) (dt : Nat), s.pair.resync = some x ∧ s.role = 5 ∧ x.ended = false ∧ x.trail = []
        ∧ x.queue = [] ∧ 32 ≤ 1024 * s.get F.PAIR_RS_CFG - x.inBeat ∧ s.bit F.PAIR_STATUS_LINK_UP = true)
    ∧ (∃ (s : State) (dt : Nat), s.role = 1)
    ∧ (∃ (s : State) (n dt : Nat) (ok : Bool), s.role = 2 ∧ s.bit F.BEAT_CTRL_EN = true ∧ s.bt.deadline = false
        ∧ s.pair.probesDone < s.get F.PAIR_PROBE_CFG ∧ (s.elapse dt).probeStall = some n ∧ ok = false)
    ∧ (∃ (s : State) (rb : Bool), s.role = 2 ∧ s.pair.testing = false)
    ∧ (∃ (s : State) (rb : Bool), s.pair.testing = true) :=
  ⟨⟨.yardmaster, st [(F.PAIR_STATUS_STATE, 6)], 0, (by unfold Reaches; decide +kernel), (by decide +kernel)⟩,
   ⟨.yardmaster, State.reset, 1, (by unfold Reaches; decide +kernel), (by decide +kernel), (by decide +kernel),
       (by decide +kernel), (by decide +kernel), (by decide +kernel)⟩,
   ⟨.yardmaster, st [(F.PAIR_HB_CFG_MISS, 1)], 1, (by unfold Reaches; decide +kernel), (by decide +kernel),
       (by decide +kernel), (by decide +kernel), (by decide +kernel), (by decide +kernel)⟩,
   ⟨.yardmaster, st [(F.PAIR_CTRL_EN, 1)], 0, (by unfold Reaches; decide +kernel), (by decide +kernel), (by decide +kernel),
       (by decide +kernel)⟩,
   ⟨.yardmaster, State.reset, 0, (by unfold Reaches; decide +kernel), (by decide +kernel), (by decide +kernel)⟩,
   ⟨.yardmaster, State.reset, 0, (by unfold Reaches; decide +kernel), (by decide +kernel), (by decide +kernel)⟩,
   ⟨.yardmaster, State.reset, 0, (by unfold Reaches; decide +kernel), (by decide +kernel)⟩,
   ⟨st [(F.PAIR_STATUS_STATE, 4), (F.PAIR_STATUS_LINK_UP, 1)], none, (by unfold Reaches; decide +kernel),
       (by decide +kernel), (by decide +kernel), (by decide +kernel)⟩,
   ⟨st [(F.PAIR_STATUS_STATE, 4), (F.PAIR_STATUS_LINK_UP, 1)], 1000000, (by decide +kernel), (by decide +kernel),
       (by decide +kernel)⟩,
   ⟨st [(F.PAIR_STATUS_STATE, 4), (F.PAIR_STATUS_LINK_UP, 1)], 500, (by decide +kernel), (by decide +kernel),
       (by decide +kernel)⟩,
   ⟨{ st [(F.PAIR_STATUS_STATE, 2), (F.PAIR_STATUS_SYNC, 2), (F.BEAT_TQ_TQ, 3)] with bt := { State.reset.bt with running := true, next := 1 }, pair := { State.reset.pair with pState := some 4, strapOk := true } }, 1500, (by decide +kernel), (by decide +kernel), (by decide +kernel), (by decide +kernel), (by decide +kernel), (by decide +kernel), (by decide +kernel), (by decide +kernel)⟩,
   ⟨{ st [(F.PAIR_STATUS_STATE, 2), (F.PAIR_STATUS_SYNC, 2), (F.PAIR_STATUS_IL_QUIET, 1)] with pair := { State.reset.pair with pState := some 4 } }, 1500, (by decide +kernel), (by decide +kernel), (by decide +kernel), (by decide +kernel), (by decide +kernel), (by decide +kernel)⟩,
   ⟨State.reset, 0, (by decide +kernel), (by decide +kernel), (by decide +kernel)⟩,
   ⟨{ roleSt 4 with pair := { State.reset.pair with pState := some 2 } }, 0, (by decide +kernel), (by decide +kernel),
       (by decide +kernel), (by decide +kernel), (by decide +kernel)⟩,
   ⟨{ roleSt 5 with pair := { State.reset.pair with resync := some ⟨[], [], 0, 0, 0, 0, false, false⟩ } }, ⟨[], [], 0, 0, 0,
       0, false, false⟩, 0, (by decide +kernel), (by decide +kernel), (by decide +kernel), (by decide +kernel),
       (by decide +kernel), (by decide +kernel), (by decide +kernel)⟩,
   ⟨st [(F.PAIR_STATUS_STATE, 1)], 0, (by decide +kernel)⟩,
   ⟨{ (handSt.put F.PAIR_STATUS_STATE 2).put F.BEAT_CTRL_EN 1 with bt := { State.reset.bt with running := true } }, 1023, 0,
       false, (by decide +kernel), (by decide +kernel), (by decide +kernel), (by decide +kernel), (by decide +kernel),
       (by decide +kernel)⟩,
   ⟨{ st [(F.PAIR_STATUS_STATE, 2)] with pair := { State.reset.pair with testing := false } }, false, (by decide +kernel),
       (by decide +kernel)⟩,
   ⟨{ State.reset with pair := { State.reset.pair with testing := true } }, false, (by decide +kernel)⟩⟩

theorem wit_PairFramesReceived :
    (∃ (s u : State) (dt : Nat) (bs : List Byte) (f : PFrame), let r := f.pay; s.Receives dt 1 bs f u ∧ s.role = 1 ∧ let strap := beAt r 2 1; let same := strap = b2n s.pair.strapB; same)
    ∧ (∃ (s u : State) (dt : Nat) (bs : List Byte) (f : PFrame), let r := f.pay; s.Receives dt 1 bs f u ∧ s.role = 1 ∧ let strap := beAt r 2 1; let st := beAt r 3 1; let same := strap = b2n s.pair.strapB; ¬same ∧ (st = 4 ∨ st = 5))
    ∧ (∃ (s u : State) (dt : Nat) (bs : List Byte) (f : PFrame), let r := f.pay; s.Receives dt 1 bs f u ∧ s.role = 1 ∧ let strap := beAt r 2 1; let st := beAt r 3 1; let same := strap = b2n s.pair.strapB; ¬same ∧ (st = 2 ∨ st = 6))
    ∧ (∃ (s u : State) (dt : Nat) (bs : List Byte) (f : PFrame), let r := f.pay; s.Receives dt 1 bs f u ∧ s.role = 1 ∧ let strap := beAt r 2 1; let st := beAt r 3 1; let same := strap = b2n s.pair.strapB; ¬same ∧ st = 1 ∧ beAt r 9 1 = s.get F.PAIR_CFG_PREFER)
    ∧ (∃ (s u : State) (dt : Nat) (bs : List Byte) (f : PFrame), let r := f.pay; s.Receives dt 2 bs f u ∧ let k : Int := (beAt r 0 6 * 1000000000 + beAt r 6 4 : Nat) + s.get F.PAIR_RTT / 2 - (s.elapse dt).nowNs; k.natAbs ≤ 40)
    ∧ (∃ (s u : State) (dt : Nat) (bs : List Byte) (f : PFrame), let r := f.pay; s.Receives dt 2 bs f u ∧ let k : Int := (beAt r 0 6 * 1000000000 + beAt r 6 4 : Nat) + s.get F.PAIR_RTT / 2 - (s.elapse dt).nowNs; 40 < k.natAbs)
    ∧ (∃ (s u : State) (dt : Nat) (bs : List Byte) (f : PFrame), s.Receives dt 3 bs f u ∧ s.role ≠ 2)
    ∧ (∃ (s u : State) (dt : Nat) (bs : List Byte) (f : PFrame), let r := f.pay; s.Receives dt 3 bs f u ∧ s.role = 2 ∧ beAt r 0 1 = 0x10 ∧ bitOf f.flags 0 = true ∧ let l := (splitRecs r.length r).getD []; let st := (u.setPair fun x => { x with rxBad := 0 }).ackStatus l (deltaWhole l); st = 0)
    ∧ (∃ (s u : State) (dt : Nat) (bs : List Byte) (f : PFrame), let r := f.pay; s.Receives dt 3 bs f u ∧ s.role = 2 ∧ beAt r 0 1 = 0x10 ∧ bitOf f.flags 0 = true ∧ let l := (splitRecs r.length r).getD []; let st := (u.setPair fun x => { x with rxBad := 0 }).ackStatus l (deltaWhole l); st ≠ 0)
    ∧ (∃ (s u : State) (dt : Nat) (bs : List Byte) (f : PFrame), let r := f.pay; s.Receives dt 4 bs f u ∧ f.beat = s.beat ∧ s.sealSt.endSent = true ∧ s.sealSt.ack = none ∧ s.pair.resync = none ∧ let st := beAt r 0 1; st = 0 ∧ s.pair.hoSent = true)
    ∧ (∃ (s u : State) (dt : Nat) (bs : List Byte) (f : PFrame), let r := f.pay; s.Receives dt 4 bs f u ∧ f.beat = s.beat ∧ s.sealSt.endSent = true ∧ s.sealSt.ack = none ∧ s.pair.resync = none ∧ let st := beAt r 0 1; st ≠ 0 ∧ s.role = 4)
    ∧ (∃ (s u : State) (dt : Nat) (bs : List Byte) (f : PFrame), let r := f.pay; s.Receives dt 4 bs f u ∧ f.beat = s.beat ∧ s.sealSt.endSent = true ∧ s.sealSt.ack = none ∧ s.pair.resync = none ∧ let st := beAt r 0 1; st ≠ 0 ∧ s.pair.hoSent = true)
    ∧ (∃ (s u : State) (dt : Nat) (bs : List Byte) (f : PFrame), let r := f.pay; ∃ l, s.Receives dt 5 bs f u ∧ s.role = 2 ∧ s.pair.pubWait = some (f.beat, l) ∧ beAt r 0 1 = 2)
    ∧ (∃ (s u : State) (dt : Nat) (bs : List Byte) (f : PFrame), let r := f.pay; ∃ l, s.Receives dt 5 bs f u ∧ s.role = 2 ∧ s.pair.pubWait = some (f.beat, l) ∧ beAt r 0 1 ≠ 1 ∧ beAt r 0 1 ≠ 2)
    ∧ (∃ (s u : State) (dt : Nat) (bs : List Byte) (f : PFrame), let r := f.pay; ∃ w, s.Receives dt 6 bs f u ∧ s.role = 2 ∧ r.length = 16 ∧ ((s.group (beAt r 0 2)).wins.find? (fun w => w.closed && w.k % 2 ^ 32 == beAt r 4 4) = some w))
    ∧ (∃ (s u : State) (dt : Nat) (bs : List Byte) (f : PFrame), let r := f.pay; s.Receives dt 7 bs f u ∧ s.role = 2 ∧ r.length = 72 ∧ recType r = 0x22 ∧ feValid (r.drop 8) = true ∧ (feValid (s.flow (beAt r 4 4)).e && feInstance (s.flow (beAt r 4 4)).e) = false ∧ feTplRef (r.drop 8) ≠ beAt r 4 4)
    ∧ (∃ (s u : State) (dt : Nat) (bs : List Byte) (f : PFrame), let r := f.pay; s.Receives dt 8 bs f u ∧ s.role = 2 ∧ s.bit F.PAIR_STATUS_FOREIGN = false ∧ r.length = 32 ∧ recType r = 0x20)
    ∧ (∃ (s u : State) (dt : Nat) (bs : List Byte) (f : PFrame), s.Receives dt 9 bs f u ∧ (s.role = 4 ∨ s.role = 5)
        ∧ s.pair.pState ≠ none ∧ s.role = 4)
    ∧ (∃ (s u : State) (dt : Nat) (bs : List Byte) (f : PFrame), s.Receives dt 10 bs f u ∧ s.role = 2 ∧ ∃ i, i < 8) :=
  ⟨⟨roleSt 1, rcv (roleSt 1) (pf 1 0 (hello0 0 4 0)), 0, pf 1 0 (hello0 0 4 0), pfOf (pf 1 0 (hello0 0 4 0)),
      ⟨by decide +kernel, by decide +kernel, by decide +kernel, .inl rfl, by decide +kernel, rfl, rfl⟩, (by decide +kernel),
      (by decide +kernel)⟩,
   ⟨roleSt 1, rcv (roleSt 1) (pf 1 0 (hello0 1 5 0)), 0, pf 1 0 (hello0 1 5 0), pfOf (pf 1 0 (hello0 1 5 0)),
       ⟨by decide +kernel, by decide +kernel, by decide +kernel, .inl rfl, by decide +kernel, rfl, rfl⟩, (by decide +kernel),
       (by decide +kernel), (by decide +kernel)⟩,
   ⟨roleSt 1, rcv (roleSt 1) (pf 1 0 (hello0 1 6 0)), 0, pf 1 0 (hello0 1 6 0), pfOf (pf 1 0 (hello0 1 6 0)),
       ⟨by decide +kernel, by decide +kernel, by decide +kernel, .inl rfl, by decide +kernel, rfl, rfl⟩, (by decide +kernel),
       (by decide +kernel), (by decide +kernel)⟩,
   ⟨roleSt 1, rcv (roleSt 1) (pf 1 0 (hello0 1 1 0)), 0, pf 1 0 (hello0 1 1 0), pfOf (pf 1 0 (hello0 1 1 0)),
       ⟨by decide +kernel, by decide +kernel, by decide +kernel, .inl rfl, by decide +kernel, rfl, rfl⟩, (by decide +kernel),
       (by decide +kernel), (by decide +kernel), (by decide +kernel)⟩,
   ⟨roleSt 2, rcv (roleSt 2) (pf 2 0 (beat0 40)), 0, pf 2 0 (beat0 40), pfOf (pf 2 0 (beat0 40)), ⟨by decide +kernel,
       by decide +kernel, by decide +kernel, .inl rfl, by decide +kernel, rfl, rfl⟩, (by decide +kernel)⟩,
   ⟨roleSt 2, rcv (roleSt 2) (pf 2 0 (beat0 41)), 0, pf 2 0 (beat0 41), pfOf (pf 2 0 (beat0 41)), ⟨by decide +kernel,
       by decide +kernel, by decide +kernel, .inl rfl, by decide +kernel, rfl, rfl⟩, (by decide +kernel)⟩,
   ⟨roleSt 4, rcv (roleSt 4) (pf 3 1 delta0), 0, pf 3 1 delta0, pfOf (pf 3 1 delta0), ⟨by decide +kernel, by decide +kernel,
       by decide +kernel, .inl rfl, by decide +kernel, rfl, rfl⟩, (by decide +kernel)⟩,
   ⟨(roleSt 2).put F.PAIR_STATUS_SYNC 2, rcv ((roleSt 2).put F.PAIR_STATUS_SYNC 2) (pf 3 1 delta0), 0, pf 3 1 delta0,
       pfOf (pf 3 1 delta0), ⟨by decide +kernel, by decide +kernel, by decide +kernel, .inl rfl, by decide +kernel, rfl,
       rfl⟩, (by decide +kernel), (by decide +kernel), (by decide +kernel), (by decide +kernel)⟩,
   ⟨roleSt 2, rcv (roleSt 2) (pf 3 1 delta0), 0, pf 3 1 delta0, pfOf (pf 3 1 delta0), ⟨by decide +kernel, by decide +kernel,
       by decide +kernel, .inl rfl, by decide +kernel, rfl, rfl⟩, (by decide +kernel), (by decide +kernel),
       (by decide +kernel), (by decide +kernel)⟩,
   ⟨{ roleSt 4 with bt := { State.reset.bt with next := 1 }, sealSt := { State.reset.sealSt with endSent := true }, pair := { State.reset.pair with hoSent := true } }, rcv ({ roleSt 4 with bt := { State.reset.bt with next := 1 }, sealSt := { State.reset.sealSt with endSent := true }, pair := { State.reset.pair with hoSent := true } }) (pf 4 0 (beBytes 8 0)), 0, pf 4 0 (beBytes 8 0), pfOf (pf 4 0 (beBytes 8 0)), ⟨by decide +kernel, by decide +kernel, by decide +kernel, .inl rfl, by decide +kernel, rfl, rfl⟩, (by decide +kernel), (by decide +kernel), (by decide +kernel), (by decide +kernel), (by decide +kernel), (by decide +kernel)⟩,
   ⟨{ roleSt 4 with sealSt := { State.reset.sealSt with endSent := true }, pair := { State.reset.pair with hoSent := true } }, rcv ({ roleSt 4 with sealSt := { State.reset.sealSt with endSent := true }, pair := { State.reset.pair with hoSent := true } }) (pf 4 0 (beBytes 1 6 ++ beBytes 7 0)), 0, pf 4 0 (beBytes 1 6 ++ beBytes 7 0), pfOf (pf 4 0 (beBytes 1 6 ++ beBytes 7 0)), ⟨by decide +kernel, by decide +kernel, by decide +kernel, .inl rfl, by decide +kernel, rfl, rfl⟩, (by decide +kernel), (by decide +kernel), (by decide +kernel), (by decide +kernel), (by decide +kernel), (by decide +kernel)⟩,
   ⟨{ roleSt 4 with sealSt := { State.reset.sealSt with endSent := true }, pair := { State.reset.pair with hoSent := true } }, rcv ({ roleSt 4 with sealSt := { State.reset.sealSt with endSent := true }, pair := { State.reset.pair with hoSent := true } }) (pf 4 0 (beBytes 1 6 ++ beBytes 7 0)), 0, pf 4 0 (beBytes 1 6 ++ beBytes 7 0), pfOf (pf 4 0 (beBytes 1 6 ++ beBytes 7 0)), ⟨by decide +kernel, by decide +kernel, by decide +kernel, .inl rfl, by decide +kernel, rfl, rfl⟩, (by decide +kernel), (by decide +kernel), (by decide +kernel), (by decide +kernel), (by decide +kernel), (by decide +kernel)⟩,
   ⟨{ roleSt 2 with pair := { State.reset.pair with pubWait := some (0, []) } },
       rcv ({ roleSt 2 with pair := { State.reset.pair with pubWait := some (0, []) } }) (pf 5 0 (beBytes 1 2)), 0,
       pf 5 0 (beBytes 1 2), pfOf (pf 5 0 (beBytes 1 2)), [], ⟨by decide +kernel, by decide +kernel, by decide +kernel,
       .inl rfl, by decide +kernel, rfl, rfl⟩, (by decide +kernel), (by decide +kernel), (by decide +kernel)⟩,
   ⟨{ roleSt 2 with pair := { State.reset.pair with pubWait := some (0, []) } },
       rcv ({ roleSt 2 with pair := { State.reset.pair with pubWait := some (0, []) } }) (pf 5 0 (beBytes 1 3)), 0,
       pf 5 0 (beBytes 1 3), pfOf (pf 5 0 (beBytes 1 3)), [], ⟨by decide +kernel, by decide +kernel, by decide +kernel,
       .inl rfl, by decide +kernel, rfl, rfl⟩, (by decide +kernel), (by decide +kernel), (by decide +kernel),
       (by decide +kernel)⟩,
   ⟨(roleSt 2).setGroup 3 fun x => { x with wins := [⟨0, true⟩] },
       rcv ((roleSt 2).setGroup 3 fun x => { x with wins := [⟨0, true⟩] }) (pf 6 0 (beBytes 2 3 ++ beBytes 14 0)), 0,
       pf 6 0 (beBytes 2 3 ++ beBytes 14 0), pfOf (pf 6 0 (beBytes 2 3 ++ beBytes 14 0)), ⟨0, true⟩, ⟨by decide +kernel,
       by decide +kernel, by decide +kernel, .inl rfl, by decide +kernel, rfl, rfl⟩, (by decide +kernel),
       (by decide +kernel), (by decide +kernel)⟩,
   ⟨roleSt 2, rcv (roleSt 2) (pf 7 0 (beBytes 1 0x22 ++ beBytes 3 0 ++ beBytes 4 65535 ++ feBytes (fe0 1))), 0,
       pf 7 0 (beBytes 1 0x22 ++ beBytes 3 0 ++ beBytes 4 65535 ++ feBytes (fe0 1)),
       pfOf (pf 7 0 (beBytes 1 0x22 ++ beBytes 3 0 ++ beBytes 4 65535 ++ feBytes (fe0 1))), ⟨by decide +kernel,
       by decide +kernel, by decide +kernel, .inl rfl, by decide +kernel, rfl, rfl⟩, (by decide +kernel),
       (by decide +kernel), (by decide +kernel), (by decide +kernel), (by decide +kernel), (by decide +kernel)⟩,
   ⟨roleSt 2, rcv (roleSt 2) (pf 8 0 (beBytes 1 0x20 ++ beBytes 31 0)), 0, pf 8 0 (beBytes 1 0x20 ++ beBytes 31 0),
       pfOf (pf 8 0 (beBytes 1 0x20 ++ beBytes 31 0)), ⟨by decide +kernel, by decide +kernel, by decide +kernel, .inl rfl,
       by decide +kernel, rfl, rfl⟩, (by decide +kernel), (by decide +kernel), (by decide +kernel), (by decide +kernel)⟩,
   ⟨{ roleSt 4 with pair := { State.reset.pair with pState := some 2 } },
       rcv ({ roleSt 4 with pair := { State.reset.pair with pState := some 2 } }) (pf 9 0 []), 0, pf 9 0 [],
       pfOf (pf 9 0 []), ⟨by decide +kernel, by decide +kernel, by decide +kernel, .inl rfl, by decide +kernel, rfl, rfl⟩,
       (by decide +kernel), (by decide +kernel), (by decide +kernel)⟩,
   ⟨roleSt 2, rcv (roleSt 2) (pf 10 0 (beBytes 32 1)), 0, pf 10 0 (beBytes 32 1), pfOf (pf 10 0 (beBytes 32 1)),
       ⟨by decide +kernel, by decide +kernel, by decide +kernel, .inl rfl, by decide +kernel, rfl, rfl⟩, (by decide +kernel),
       7, (by decide +kernel)⟩⟩

theorem wit_TudelTableAndLinks :
    (∃ (m : Master) (s : State) (d : Nat), Reaches s m 0xB00000 ∧ bitOf d 0 = true ∧ s.bit F.TUDEL_CTRL = false
        ∧ s.tudelOk = true)
    ∧ (∃ (m : Master) (s : State) (d : Nat), Reaches s m 0xB00000 ∧ bitOf d 0 = true ∧ s.bit F.TUDEL_CTRL = false
        ∧ s.tudelOk = false)
    ∧ (∃ (m : Master) (s : State) (d : Nat), Reaches s m 0xB00000 ∧ bitOf d 0 = false ∧ s.bit F.TUDEL_CTRL = true)
    ∧ (∃ (m : Master) (s : State), Reaches s m 0xB00084 ∧ let n := s.get F.TUDEL_FACC_IDX; ∃ i, i < 4 ∧ ∃ k, k ≠ n)
    ∧ (∃ (m : Master) (s : State) (d : Nat), Reaches s m 0xB000A0 ∧ bitOf d 31 = false)
    ∧ (∃ (m : Master) (s : State) (d : Nat), Reaches s m 0xB000A0 ∧ let p := bitsOf d 0 13; let mayGo := puValid (s.pub p) = true ∧ puKind (s.pub p) = 6; bitOf d 31 = true ∧ ¬mayGo)
    ∧ (∃ (m : Master) (s : State) (d : Nat), Reaches s m 0xB000A0 ∧ let p := bitsOf d 0 13; let mayGo := puValid (s.pub p) = true ∧ puKind (s.pub p) = 6; bitOf d 31 = true ∧ mayGo ∧ s.runsItems = false)
    ∧ (∃ (m : Master) (s : State) (d : Nat), Reaches s m 0xB000A0 ∧ let p := bitsOf d 0 13; let mayGo := puValid (s.pub p) = true ∧ puKind (s.pub p) = 6; bitOf d 31 = true ∧ mayGo ∧ s.runsItems = true)
    ∧ (∃ (s : State) (j : Fin 8) (dt : Nat), s.lst j = 1)
    ∧ (∃ (s : State) (j : Fin 8) (dt : Nat), s.lst j = 4)
    ∧ (∃ (s : State) (j : Fin 8) (dt : Nat), ((s.lst j = 3 ∧ (s.tLink j).helloAt + 100000 ≤ s.clk + dt) ∨ (s.lst j = 2
        ∧ (s.tLink j).helloAt + 10000 ≤ s.clk + dt)))
    ∧ (∃ (s : State) (j : Fin 8) (dt : Nat), ∃ bs : List Byte, bs.length = 22 ∧ s.lst j = 2)
    ∧ (∃ (s : State) (j : Fin 8) (dt : Nat), ∃ (bs : List Byte) (ok : Bool), (ok = false ∨ bs.length ≠ 22 ∨ (s.lst j ≠ 2
        ∧ s.lst j ≠ 3)))
    ∧ (∃ (s : State) (j : Fin 8) (dt : Nat), ∃ lock : Bool, (s.lst j = 2 ∨ s.lst j = 3)) :=
  ⟨⟨.yardmaster, State.reset, 1, (by unfold Reaches; decide +kernel), (by decide +kernel), (by decide +kernel),
      (by decide +kernel)⟩,
   ⟨.yardmaster, { State.reset with tud := { State.reset.tud with fwd := [(4095, [1])] } }, 1,
       (by unfold Reaches; decide +kernel), (by decide +kernel), (by decide +kernel), (by decide +kernel)⟩,
   ⟨.yardmaster, st [(F.TUDEL_CTRL, 1)], 0, (by unfold Reaches; decide +kernel), (by decide +kernel), (by decide +kernel)⟩,
   ⟨.yardmaster, State.reset, (by unfold Reaches; decide +kernel), 3, (by decide +kernel), 4095, (by decide +kernel)⟩,
   ⟨.yardmaster, State.reset, 0, (by unfold Reaches; decide +kernel), (by decide +kernel)⟩,
   ⟨.yardmaster, State.reset, 2147483648, (by unfold Reaches; decide +kernel), (by decide +kernel), (by decide +kernel)⟩,
   ⟨.yardmaster, { State.reset with sealSt := { State.reset.sealSt with pubs := [(8191, [1, 6])] } }, 0x80001FFF,
       (by unfold Reaches; decide +kernel), (by decide +kernel), by decide +kernel, (by decide +kernel)⟩,
   ⟨.yardmaster, { st [(F.PAIR_STATUS_STATE, 5)] with sealSt := { State.reset.sealSt with pubs := [(8191, [1, 6])] } },
       0x80001FFF, (by unfold Reaches; decide +kernel), (by decide +kernel), by decide +kernel, (by decide +kernel)⟩,
   ⟨st [(F.TUDEL_LINKj_STATUS_LSTATE.idx 0, 1)], 0, 0, (by decide +kernel)⟩,
   ⟨st [(F.TUDEL_LINKj_STATUS_LSTATE.idx 0, 4)], 0, 0, (by decide +kernel)⟩,
   ⟨st [(F.TUDEL_LINKj_STATUS_LSTATE.idx 7, 2)], 7, 10000, (by decide +kernel)⟩,
   ⟨st [(F.TUDEL_LINKj_STATUS_LSTATE.idx 7, 2)], 7, 0, List.replicate 22 0, (by decide +kernel), (by decide +kernel)⟩,
   ⟨State.reset, 0, 0, [], false, (by decide +kernel)⟩,
   ⟨st [(F.TUDEL_LINKj_STATUS_LSTATE.idx 7, 3)], 7, 0, false, (by decide +kernel)⟩⟩

theorem wit_BeatPhases :
    (∃ s : State, s.bt.running = true ∧ s.bt.dispatchOpen = false)
    ∧ (∃ (s : State) (late : List Nat), s.bt.running = true ∧ s.bt.deadline = false ∧ s.bt.dispatchOpen = true ∧ ∃ k,
        k ∈ s.busyStalls ∧ k ∉ late)
    ∧ (∃ (s : State) (late : List Nat), s.bt.running = true ∧ s.bt.deadline = false ∧ s.bt.dispatchOpen = true ∧ ∃ k,
        k ∈ s.busyStalls ∧ k ∈ late)
    ∧ (∃ (s : State) (late : List Nat), s.bt.running = true ∧ s.bt.deadline = false ∧ s.bt.dispatchOpen = true
        ∧ s.standby = true)
    ∧ (∃ s : State, s.bt.running = true ∧ s.bt.deltaClosed = false ∧ s.bt.deadline = true ∧ ∃ k, k ∈ s.busyStalls)
    ∧ (∃ s : State, s.bt.running = true ∧ s.bt.deltaClosed = false ∧ s.bt.deadline = true ∧ s.runsItems = true)
    ∧ (∃ (s : State) (rb : Bool), s.bt.running = true ∧ s.bt.deltaClosed = true ∧ s.bt.decision = none ∧ s.role = 3)
    ∧ (∃ (s : State) (rb : Bool), s.bt.running = true ∧ s.bt.deltaClosed = true ∧ s.bt.decision = none ∧ s.role = 5
        ∧ s.pair.resync = none)
    ∧ (∃ (s : State) (rb : Bool), s.bt.running = true ∧ s.bt.deltaClosed = true ∧ s.bt.decision = none ∧ s.role = 4 ∧ (∃ n,
        s.pair.soloAt = some n ∧ n ≤ s.beat))
    ∧ (∃ (s : State) (rb : Bool), s.bt.running = true ∧ s.bt.deltaClosed = true ∧ s.bt.decision = none ∧ s.role = 4
        ∧ s.pair.soloAt = none ∧ s.sealSt.oversize = false ∧ s.sealSt.endSent = true ∧ s.sealSt.ack = none)
    ∧ (∃ (s : State) (rb : Bool), s.bt.running = true ∧ s.bt.deltaClosed = true ∧ s.bt.decision = none ∧ s.role = 4
        ∧ s.pair.soloAt = none ∧ (s.sealSt.oversize = true ∨ s.sealSt.endSent = false))
    ∧ (∃ (s : State) (rb : Bool), s.role = 3 ∧ s.bt.running = true ∧ s.pair.inWindow = true)
    ∧ (∃ (s : State) (rb : Bool), s.role = 3 ∧ s.bt.running = true ∧ s.pair.inWindow = false
        ∧ rb = !(s.pair.actOut.getD true))
    ∧ (∃ (s : State) (rb : Bool), s.role = 3 ∧ s.bt.running = true ∧ s.pair.inWindow = false
        ∧ rb ≠ !(s.pair.actOut.getD true))
    ∧ (∃ (s : State) (e : Meters) (late : List Nat) (dg : Bool), (s.bit F.BEAT_CTRL_EN = false ∨ s.lifeSt.refclkLost = true))
    ∧ (∃ (s : State) (e : Meters) (late : List Nat) (dg : Bool), s.Idle ∧ s.bit F.BEAT_CTRL_EN = true
        ∧ s.lifeSt.refclkLost = false ∧ s.bt.reqPend = none ∧ s.bt.reseatPend = none ∧ s.tq ≠ 4 ∧ s.bt.running = false
        ∧ s.toEdge.timerMove = .stay)
    ∧ (∃ (s : State) (e : Meters) (late : List Nat) (dg : Bool), s.Idle ∧ s.bit F.BEAT_CTRL_EN = true
        ∧ s.lifeSt.refclkLost = false ∧ s.bt.reqPend = none ∧ s.bt.reseatPend = none ∧ s.tq ≠ 4 ∧ ∃ q, q < 8
        ∧ s.bt.running = false ∧ s.toEdge.timerMove = .goto q)
    ∧ (∃ (s : State) (e : Meters) (late : List Nat) (dg : Bool), s.Idle ∧ s.bit F.BEAT_CTRL_EN = true
        ∧ s.lifeSt.refclkLost = false ∧ s.bt.reqPend = none ∧ s.bt.reseatPend = none ∧ s.tq ≠ 4 ∧ ∃ d g : Bool,
        s.bt.running = true ∧ s.bt.deltaClosed = true ∧ s.bt.decision = some d ∧ s.bt.gateOpen = some g
        ∧ s.toEdge.timerMove = .stay) :=
  ⟨⟨{ State.reset with bt := { State.reset.bt with running := true, dispatchOpen := false } }, (by decide +kernel),
      (by decide +kernel)⟩,
   ⟨busySt 5 id, [0], (by decide +kernel), (by decide +kernel), (by decide +kernel), 1087, (by decide +kernel),
       (by decide +kernel)⟩,
   ⟨busySt 5 id, [1087], (by decide +kernel), (by decide +kernel), (by decide +kernel), 1087, (by decide +kernel),
       (by decide +kernel)⟩,
   ⟨busySt 2 id, [], (by decide +kernel), (by decide +kernel), (by decide +kernel), (by decide +kernel)⟩,
   ⟨busySt 5 fun b => { b with deadline := true }, (by decide +kernel), (by decide +kernel), (by decide +kernel), 1087,
       (by decide +kernel)⟩,
   ⟨busySt 5 fun b => { b with deadline := true }, (by decide +kernel), (by decide +kernel), (by decide +kernel),
       (by decide +kernel)⟩,
   ⟨{ st [(F.PAIR_STATUS_STATE, 3)] with bt := { State.reset.bt with running := true, deltaClosed := true, decision := none } }, false, (by decide +kernel), (by decide +kernel), (by decide +kernel), (by decide +kernel)⟩,
   ⟨{ st [(F.PAIR_STATUS_STATE, 5)] with bt := { State.reset.bt with running := true, deltaClosed := true, decision := none }, pair := { State.reset.pair with resync := none } }, false, (by decide +kernel), (by decide +kernel), (by decide +kernel), (by decide +kernel), (by decide +kernel)⟩,
   ⟨{ st [(F.PAIR_STATUS_STATE, 4)] with bt := { State.reset.bt with running := true, deltaClosed := true }, pair := { State.reset.pair with soloAt := some 0 } }, false, (by decide +kernel), (by decide +kernel), (by decide +kernel), (by decide +kernel), ⟨0, by decide +kernel, by decide +kernel⟩⟩,
   ⟨{ st [(F.PAIR_STATUS_STATE, 4)] with bt := { State.reset.bt with running := true, deltaClosed := true, decision := none }, pair := { State.reset.pair with soloAt := none }, sealSt := { State.reset.sealSt with oversize := false, endSent := true, ack := none } }, false, (by decide +kernel), (by decide +kernel), (by decide +kernel), (by decide +kernel), (by decide +kernel), (by decide +kernel), (by decide +kernel), (by decide +kernel)⟩,
   ⟨{ st [(F.PAIR_STATUS_STATE, 4)] with bt := { State.reset.bt with running := true, deltaClosed := true, decision := none }, pair := { State.reset.pair with soloAt := none } }, false, (by decide +kernel), (by decide +kernel), (by decide +kernel), (by decide +kernel), (by decide +kernel), (by decide +kernel)⟩,
   ⟨{ st [(F.PAIR_STATUS_STATE, 3)] with bt := { State.reset.bt with running := true }, pair := { State.reset.pair with inWindow := true } }, false, (by decide +kernel), (by decide +kernel), (by decide +kernel)⟩,
   ⟨{ st [(F.PAIR_STATUS_STATE, 3)] with bt := { State.reset.bt with running := true }, pair := { State.reset.pair with inWindow := false } }, false, (by decide +kernel), (by decide +kernel), (by decide +kernel), (by decide +kernel)⟩,
   ⟨{ st [(F.PAIR_STATUS_STATE, 3)] with bt := { State.reset.bt with running := true }, pair := { State.reset.pair with inWindow := false } }, true, (by decide +kernel), (by decide +kernel), (by decide +kernel), (by decide +kernel)⟩,
   ⟨State.reset, ⟨[], 0, 0, []⟩, [], false, (by decide +kernel)⟩,
   ⟨{ st [(F.BEAT_CTRL_EN, 1)] with lifeSt := { State.reset.lifeSt with refclkLost := false }, bt := { State.reset.bt with reqPend := none, reseatPend := none, running := false } }, ⟨[], 0, 0, []⟩, [], false, ⟨by decide +kernel, by decide +kernel, by decide +kernel, by decide +kernel, by decide +kernel, by decide +kernel, ⟨by decide +kernel, by decide +kernel⟩, by decide +kernel, by decide +kernel⟩, (by decide +kernel), (by decide +kernel), (by decide +kernel), (by decide +kernel), (by decide +kernel), (by decide +kernel), (by decide +kernel)⟩,
   ⟨{ st [(F.BEAT_CTRL_EN, 1), (F.BEAT_TQ_TQ, 1)] with bt := { State.reset.bt with syncDue := true } }, ⟨[], 0, 0, []⟩, [],
       false, ⟨by decide +kernel, by decide +kernel, by decide +kernel, by decide +kernel, by decide +kernel,
       by decide +kernel, ⟨by decide +kernel, by decide +kernel⟩, by decide +kernel, by decide +kernel⟩, (by decide +kernel),
       (by decide +kernel), (by decide +kernel), (by decide +kernel), (by decide +kernel), 2, (by decide +kernel),
       (by decide +kernel), (by decide +kernel)⟩,
   ⟨{ st [(F.BEAT_CTRL_EN, 1)] with lifeSt := { State.reset.lifeSt with refclkLost := false }, bt := { State.reset.bt with reqPend := none, reseatPend := none, running := true, deltaClosed := true, decision := some false, gateOpen := some false } }, ⟨[], 0, 0, []⟩, [], false, ⟨by decide +kernel, by decide +kernel, by decide +kernel, by decide +kernel, by decide +kernel, by decide +kernel, ⟨by decide +kernel, by decide +kernel⟩, by decide +kernel, by decide +kernel⟩, (by decide +kernel), (by decide +kernel), (by decide +kernel), (by decide +kernel), (by decide +kernel), false, false, (by decide +kernel), (by decide +kernel), (by decide +kernel), (by decide +kernel), (by decide +kernel)⟩⟩

end Sys2Proof.Machine
end

section
/-! SUPPORT. Fields of ports, lanes and redundancy pairs: when two of them differ, and which of them the end of a command
leaves alone. -/

namespace Sys2Proof.Machine

theorem Fld.shift_key (f : Fld) (a : Nat) : (f.shift a).key = f.key + 64 * a := by
  simp only [Fld.key, Fld.shift]; omega

/-- Two fields moved by multiples of `k` bytes differ where their places within `k` bytes differ. -/
theorem Fld.shift_key_ne {f g : Fld} {a b : Nat} (k : Nat) (ha : k ∣ a) (hb : k ∣ b)
    (h : f.key % (64 * k) ≠ g.key % (64 * k)) : (f.shift a).key ≠ (g.shift b).key := by
  obtain ⟨i, rfl⟩ := ha
  obtain ⟨j, rfl⟩ := hb
  intro e
  rw [Fld.shift_key, Fld.shift_key, ← Nat.mul_assoc, ← Nat.mul_assoc] at e
  have := congrArg (· % (64 * k)) e
  simp only [Nat.add_mul_mod_self_left] at this
  exact h this

theorem ln_key_ne {f g : Fld} (l m : Nat) (h : f.key % 0x10000 ≠ g.key % 0x10000) : (ln f l).key ≠ (ln g m).key :=
  Fld.shift_key_ne 0x400 ⟨l, rfl⟩ ⟨m, rfl⟩ h

theorem pt_key_ne {f g : Fld} (n m : Nat) (h : f.key % 0x40000 ≠ g.key % 0x40000) : (pt f n).key ≠ (pt g m).key :=
  Fld.shift_key_ne 0x1000 ⟨n, rfl⟩ ⟨m, rfl⟩ h

/-- A port's field and one outside the ports. -/
theorem pt_key_ne_fixed {f g : Fld} (n : Nat) (h : f.key % 0x40000 ≠ g.key % 0x40000) : (pt f n).key ≠ g.key :=
  pt_key_ne n 0 h

theorem rd_key_ne_pt {f g : Fld} (m n : Nat) (h : f.key % 0x1000 ≠ g.key % 0x1000) : (rd f m).key ≠ (pt g n).key :=
  Fld.shift_key_ne 0x40 ⟨m, rfl⟩ ⟨0x40 * n, by omega⟩ h

theorem rd_key_ne_fixed {f g : Fld} (m : Nat) (h : f.key % 0x1000 ≠ g.key % 0x1000) : (rd f m).key ≠ g.key :=
  rd_key_ne_pt m 0 h

theorem ln_key_ne_pt {f g : Fld} (l n : Nat) (h : f.key % 0x10000 ≠ g.key % 0x10000) : (ln f l).key ≠ (pt g n).key :=
  Fld.shift_key_ne 0x400 ⟨l, rfl⟩ ⟨4 * n, by omega⟩ h

/-- Every field that delivery writes lies in the event block or above it. -/
theorem delivers_low {k : Nat} (h : k < 0xE00004 * 64) : delivers k = false := by
  have ho : k / 64 < 0xE00004 := Nat.div_lt_of_lt_mul (by omega)
  simp only [delivers, deliversAt, Bool.or_eq_false_iff, Bool.and_eq_false_iff, decide_eq_false_iff_not, beq_eq_false_iff_ne]
  omega

theorem delivers_ln {f : Fld} {l : Nat} (hl : l < 128) (h : f.key < 0x300400 * 64) : delivers (ln f l).key = false := by
  refine delivers_low ?_
  rw [ln, Fld.shift_key]; omega

theorem delivers_pt {f : Fld} {n : Nat} (hn : n < 96) (h : f.key < 0x201000 * 64) : delivers (pt f n).key = false := by
  refine delivers_low ?_
  rw [pt, Fld.shift_key]; omega

/-! Flags and cleared bits over loops. -/

/-- A flag raised keeps a flag that is up, whichever field it is. -/
theorem State.get_flag_one (s : State) {f g : Fld} (hr : f.rst = g.rst) (hw : 0 < g.width) (h : s.get f = 1) :
    (s.flag g).get f = 1 := by
  by_cases e : f.key = g.key
  · have h1 : 1 % 2 ^ g.width = 1 := Nat.mod_eq_of_lt (Nat.one_lt_two_pow (by omega))
    simp [State.flag, State.get, State.put, e, hr, h1]
  · rw [State.get_flag_ne s e, h]

/-- A write of zero keeps a field that is zero, whichever field it is. -/
theorem State.get_put_zero (s : State) {f g : Fld} (hr : f.rst = g.rst) (h : s.get f = 0) : (s.put g 0).get f = 0 := by
  by_cases e : f.key = g.key
  · simp [State.get, State.put, e, hr]
  · rw [State.get_put_ne s e, h]

theorem State.get_of_bit_false {s : State} {f : Fld} (h : s.bit f = false) : s.get f = 0 := by
  simpa [State.bit] using h

/-- What one step of a loop brings about, and every step keeps, holds after the loop. -/
theorem State.each_brings {α : Type} (I P : State → Prop) (g : α → State → State) (l : List α) {x : α} (hx : x ∈ l)
    (hI : ∀ y ∈ l, ∀ t, I t → I (g y t)) (hxP : ∀ t, I t → P (g x t)) (hP : ∀ y ∈ l, ∀ t, P t → P (g y t))
    (s : State) (hs : I s) : P (s.each l g) := by
  induction l generalizing s with
  | nil => cases hx
  | cons y l ih =>
    rw [State.each_cons]
    rcases List.mem_cons.mp hx with rfl | hx
    · exact State.each_inv P g l (fun z hz => hP z (List.mem_cons_of_mem _ hz)) _ (hxP s hs)
    · exact ih hx (fun z hz => hI z (List.mem_cons_of_mem _ hz)) (fun z hz => hP z (List.mem_cons_of_mem _ hz)) _
        (hI y List.mem_cons_self s hs)

theorem Completes.of_fin {i : Instr} {s u : State} {P : State → Prop} (h : exec i s = fin u) (hP : P u.commit) :
    Completes i s P := ⟨_, h, hP⟩

end Sys2Proof.Machine
end

section
/-! SUPPORT. Delivery writes fields at bits 0, 3, 5, 8 and 18 of their registers only: a field at another bit stays, whatever the
address of its register. -/

namespace Sys2Proof.Machine

/-- The bits of registers at which delivery writes fields. -/
def deliveryBits : List Nat := [0, 3, 5, 8, 18]

/-- The field lies at a bit of its register at which delivery writes nothing. -/
def OffBits (f : Fld) : Prop := f.key % 64 ∉ deliveryBits

theorem raiseVector_get (s : State) (v : Nat) (f : Fld) : (s.raiseVector v).get f = s.get f := by
  unfold State.raiseVector
  split
  · split <;> rfl
  · rfl

/-- The limiter leaves a field alone that its event leaves alone. -/
theorem limited_get (s : State) (code key n : Nat) (g : Nat → State → State) (f : Fld)
    (hg : ∀ k t, (g k t).get f = t.get f) : (s.limited code key n g).get f = s.get f := by
  unfold State.limited
  split
  · rw [hg, State.setEvt_get]
  · split
    · rw [hg, State.setEvt_get]
    · rw [State.setEvt_get]

theorem overloadEvent_get (s : State) (f : Fld) : s.overloadEvent.get f = s.get f := by
  unfold State.overloadEvent
  split
  · rfl
  · rw [limited_get _ _ _ _ _ f fun _ t => by rw [State.setEvt_get, State.raise_get], State.setEvt_get]

theorem evalWake_get (s : State) (f : Fld) : s.evalWake.get f = s.get f := by
  unfold State.evalWake
  split
  · split <;> rfl
  · split <;> rfl
  · rfl

section
variable {f : Fld} (h : OffBits f) (s : State)
include h

theorem OffBits.put {g : Fld} (v : Nat) (hg : g.key % 64 ∈ deliveryBits) : (s.put g v).get f = s.get f :=
  s.get_put_ne (fun e => h (by rwa [e])) v

/-- An element of an array of registers, and a slice's field, lie at the bit of the first. -/
theorem OffBits.putShift {g : Fld} (a v : Nat) (hg : g.key % 64 ∈ deliveryBits) : (s.put (g.shift a) v).get f = s.get f :=
  h.put s v (by rwa [Fld.shift_key, Nat.add_mul_mod_self_left])

theorem OffBits.setPending (i : Nat) : (s.setPending i).get f = s.get f := by
  unfold State.setPending
  simp only
  split
  · rfl
  · rw [State.when_keeps (fun t => t.get f) _ _ _ (fun t => raiseVector_get t _ f)]
    exact h.putShift s _ _ (by decide)

theorem OffBits.countSource (i : Nat) : (s.countSource i).get f = s.get f := by
  unfold State.countSource
  simp only
  split
  · exact h.putShift s _ _ (by decide)
  · rfl

theorem OffBits.evWriteNow (n : Nat) (e : EventRec) : (s.evWriteNow n e).get f = s.get f := by
  unfold State.evWriteNow
  simp only
  rw [State.when_keeps (fun t => t.get f) _ _ _ (fun t => raiseVector_get t _ f)]
  refine (State.when_keeps (fun t => t.get f) _ _ _ (fun t => State.setSlice_get t n _ f)).trans ?_
  exact (h.putShift (g := F.SLICE_CNT_DMA_BYTES) _ _ _ (by decide)).trans
    (h.putShift (g := F.SLICE_EVR_TAIL) _ _ _ (by decide))

theorem OffBits.flushEvList (n : Nat) (l : List EventRec) : (s.flushEvList n l).get f = s.get f := by
  induction l generalizing s with
  | nil => rfl
  | cons e l ih =>
    unfold State.flushEvList
    split
    · rw [ih, h.evWriteNow]
    · rfl

theorem OffBits.evPush (n c q a b d e k : Nat) : (s.evPush n c q a b d e k).get f = s.get f := by
  have h1 := h.flushEvList s n (s.slice n).evStage
  unfold State.evPush
  simp only
  split
  · rw [h.evWriteNow, State.setSlice_get]; exact h1
  · split
    · rw [State.setSlice_get, State.setSlice_get]; exact h1
    · rw [State.setSlice_get]; exact h1

theorem OffBits.bufPush (r : LedgerRec) : (s.bufPush r).get f = s.get f := by
  unfold State.bufPush
  split
  · exact h.put _ _ (by decide)
  · exact (h.put (g := F.LDG_CNT_DROP) _ _ (by decide)).trans (h.put (g := F.EVT_STATUS_DROP) s _ (by decide))

theorem OffBits.closeOpen : s.closeOpen.get f = s.get f := by
  unfold State.closeOpen
  split
  · rfl
  · simp only
    split
    · rw [h.bufPush]; rfl
    · rfl

theorem OffBits.openNew (r : LedgerRec) : (s.openNew r).get f = s.get f := by
  unfold State.openNew
  simp only
  split
  · exact (h.put (g := F.LDG_SEQ) _ _ (by decide)).trans (h.bufPush s _)
  · exact h.bufPush s _

theorem OffBits.record (e : Ev) : (s.record e).get f = s.get f := by
  unfold State.record
  simp only
  split
  · split
    · split
      · rw [h.closeOpen]; rfl
      · rfl
    · rw [h.openNew, h.closeOpen]
  · exact h.openNew s _

theorem OffBits.deliver (e : Ev) : (s.deliver e).get f = s.get f := by
  unfold State.deliver
  rw [State.each_keeps (fun t => t.get f) _ _ (fun n _ t => h.evPush t _ _ _ _ _ _ _ _), h.record, h.setPending,
    h.countSource]

theorem OffBits.deliverAll : s.deliverAll.get f = s.get f :=
  State.each_keeps (fun t => t.get f) _ _ (fun e _ t => h.deliver t e) s

theorem OffBits.freezeDone : s.freezeDone.get f = s.get f := by
  unfold State.freezeDone
  refine State.each_keeps (fun t => t.get f) _ _ (fun n _ t => ?_) s
  exact h.putShift (g := F.SLICE_STATUS_STATE) t _ 3 (by decide)

theorem OffBits.ymWake : s.ymWake.get f = s.get f := by
  unfold State.ymWake
  split
  · exact (h.put (g := F.PWR_CNT_TRANS) _ _ (by decide)).trans (h.putShift (g := F.PWR_DOMd_STAT_STATE) _ _ _ (by decide))
  · rfl

/-- The end of a command leaves the field alone. -/
theorem OffBits.commit : s.commit.get f = s.get f := by
  have hd : s.freezeDone.deliverAll.overloadEvent.deliverAll.evalWake.ymWake.get f = s.get f := by
    rw [h.ymWake, evalWake_get, h.deliverAll, overloadEvent_get, h.deliverAll, h.freezeDone]
  unfold State.commit
  simp only
  split
  · exact hd
  · rw [State.setHost_get, State.emit_get]
    exact hd

end

end Sys2Proof.Machine
end

section
/-! Lanes, training and reference clocks (R53, R67, R68, R71). -/

namespace Sys2Proof.Machine

/-! A write of LANE_CTRL. -/

/-- The fields that a write of LANE_CTRL of lane `l` may change. -/
def laneCtrlFields (l : Nat) : List Fld :=
  [ln F.LANE_CTRL l, ln F.LANE_STATUS_PLL_LOCK l, ln F.LANE_STATUS_TRAIN_DONE l, ln F.LANE_STATUS_CDR_LOCK l,
   ln F.LANE_STATUS_SIG_DET l]

theorem laneCtrlWrite_only (l d : Nat) (s : State) : OnlyFields (laneCtrlFields l) s (laneCtrlWrite l d s) := by
  have h2 : OnlyFields (laneCtrlFields l) s ((s.putB (ln F.LANE_CTRL l) (bitOf d 0)).putB (ln F.LANE_STATUS_PLL_LOCK l)
      (bitOf d 0 && !s.lrefGone (laneGroup l))) :=
    .after (.putB _ _ _ (by simp [Writes, laneCtrlFields])) (.putB s _ _ (by simp [Writes, laneCtrlFields]))
  unfold laneCtrlWrite
  simp only
  split
  · exact h2
  · exact .after (.put _ _ _ (by simp [Writes, laneCtrlFields]))
      (.after (.put _ _ _ (by simp [Writes, laneCtrlFields])) (.after (.put _ _ _ (by simp [Writes, laneCtrlFields])) h2))

/-- EN = 0 also clears what the lane had reached, which are other fields than these two. -/
theorem laneCtrlWrite_get (l d : Nat) (s : State) : (laneCtrlWrite l d s).get (ln F.LANE_CTRL l) = b2n (bitOf d 0)
    ∧ (laneCtrlWrite l d s).get (ln F.LANE_STATUS_PLL_LOCK l) = b2n (bitOf d 0 && !s.lrefGone (laneGroup l)) := by
  have hc : ∀ b c, ((s.putB (ln F.LANE_CTRL l) b).putB (ln F.LANE_STATUS_PLL_LOCK l) c).get (ln F.LANE_CTRL l) = b2n b :=
    fun b c => by rw [State.get_putB_ne _ (ln_key_ne l l (by decide)), State.get_putB_self _ _ _ Nat.one_pos]
  have hp : ∀ b c, ((s.putB (ln F.LANE_CTRL l) b).putB (ln F.LANE_STATUS_PLL_LOCK l) c).get (ln F.LANE_STATUS_PLL_LOCK l)
      = b2n c := fun b c => State.get_putB_self _ _ _ Nat.one_pos
  unfold laneCtrlWrite
  simp only
  split
  · exact ⟨hc _ _, hp _ _⟩
  · constructor
    · rw [State.get_put_ne _ (ln_key_ne l l (by decide)), State.get_put_ne _ (ln_key_ne l l (by decide)),
        State.get_put_ne _ (ln_key_ne l l (by decide)), hc]
    · rw [State.get_put_ne _ (ln_key_ne l l (by decide)), State.get_put_ne _ (ln_key_ne l l (by decide)),
        State.get_put_ne _ (ln_key_ne l l (by decide)), hp]

theorem laneEnable_completes (m : Master) (s : State) (l : Fin 128) (d : Nat) (h : Reaches s m (0x300000 + 0x400 * l)) :
    Completes (.laneEnable m l d) s fun t => t.get (ln F.LANE_CTRL l) = b2n (bitOf d 0)
      ∧ t.get (ln F.LANE_STATUS_PLL_LOCK l) = b2n (bitOf d 0 && !s.lrefGone (laneGroup l))
      ∧ OnlyFields (laneCtrlFields l) s t := by
  obtain ⟨hen, hpll⟩ := laneCtrlWrite_get l d s
  refine .of_fin (u := laneCtrlWrite l d s) (congrArg fin (State.regWrite_of s m _ _ h.1 h.2)) ⟨?_, ?_, ?_⟩
  · rw [State.commit_get _ _ (delivers_ln l.isLt (by decide)), hen]
  · rw [State.commit_get _ _ (delivers_ln l.isLt (by decide)), hpll]
  · exact (laneCtrlWrite_only l d s).commit

/-! Training. -/

/-- The fields of lane `l` that training may change. -/
def trainFields (l : Nat) : List Fld :=
  [ln F.LANE_STATUS_TRAIN_DONE l, ln F.LANE_STATUS_SIG_DET l, ln F.LANE_STATUS_CDR_LOCK l, ln F.LANE_STATUS_PLL_LOCK l]

theorem laneLocked_only (s : State) {k : List Fld} (l : Nat) (h : ∀ f ∈ trainFields l, Writes k f = true) :
    OnlyFields k s (s.laneLocked l) := by
  unfold State.laneLocked
  split
  · exact .after (.flag _ _ (h _ (by simp [trainFields]))) (.after (.flag _ _ (h _ (by simp [trainFields])))
      (.flag s _ (h _ (by simp [trainFields]))))
  · exact .refl k s

/-- A lock takes no flag down. -/
theorem laneLocked_get_one (s : State) (l : Nat) {f : Fld} (hr : f.rst = 0) (h : s.get f = 1) : (s.laneLocked l).get f = 1 := by
  unfold State.laneLocked
  split
  · exact State.get_flag_one _ hr Nat.one_pos (State.get_flag_one _ hr Nat.one_pos (State.get_flag_one _ hr Nat.one_pos h))
  · exact h

theorem laneLocked_cdr (s : State) (l : Nat) (h : s.bit (ln F.LANE_CTRL l) = true) :
    (s.laneLocked l).get (ln F.LANE_STATUS_CDR_LOCK l) = 1 := by
  rw [State.laneLocked, if_pos h]
  exact State.get_flag_one _ rfl Nat.one_pos (State.get_flag_self _ _ Nat.one_pos)

theorem laneLocked_ctrl (s : State) (l m : Nat) : (s.laneLocked l).get (ln F.LANE_CTRL m) = s.get (ln F.LANE_CTRL m) := by
  unfold State.laneLocked
  split
  · rw [State.get_flag_ne _ (ln_key_ne m l (by decide)), State.get_flag_ne _ (ln_key_ne m l (by decide)),
      State.get_flag_ne _ (ln_key_ne m l (by decide))]
  · rfl

theorem linkTrainingDone_only (s : State) (n : Nat) :
    OnlyFields ((s.portLanes n).flatMap trainFields) s (linkTrainingDone n s) := by
  refine .each _ _ (fun l hl t => ?_) s
  have hw : ∀ f ∈ trainFields l, Writes ((s.portLanes n).flatMap trainFields) f = true := fun f hf =>
    List.any_eq_true.mpr ⟨f, List.mem_flatMap.mpr ⟨l, (List.mem_filter.mp hl).1, hf⟩, beq_self_eq_true _⟩
  exact .after (laneLocked_only _ l hw) (.flag t _ (hw _ (by simp [trainFields])))

/-- A powered lane of the port that trains has trained and has its clock. -/
theorem linkTrainingDone_get (s : State) (n l : Nat) (hl : l ∈ s.portLanes n) (ht : s.trains n l = true)
    (hp : s.bit (ln F.LANE_CTRL l) = true) :
    (linkTrainingDone n s).get (ln F.LANE_STATUS_TRAIN_DONE l) = 1
      ∧ (linkTrainingDone n s).get (ln F.LANE_STATUS_CDR_LOCK l) = 1 := by
  refine State.each_brings (fun t => t.bit (ln F.LANE_CTRL l) = true)
    (fun t => t.get (ln F.LANE_STATUS_TRAIN_DONE l) = 1 ∧ t.get (ln F.LANE_STATUS_CDR_LOCK l) = 1) _ _
    (List.mem_filter.mpr ⟨hl, by simp [ht, hp]⟩) (fun m _ t h => ?_) (fun t h => ?_) (fun m _ t h => ?_) s hp
  · rw [State.bit, laneLocked_ctrl, State.get_flag_ne _ (ln_key_ne l m (by decide))]
    exact h
  · refine ⟨laneLocked_get_one _ _ rfl (State.get_flag_self _ _ Nat.one_pos), laneLocked_cdr _ _ ?_⟩
    rw [State.bit, State.get_flag_ne _ (ln_key_ne l l (by decide))]
    exact h
  · exact ⟨laneLocked_get_one _ _ rfl (State.get_flag_one _ rfl Nat.one_pos h.1),
      laneLocked_get_one _ _ rfl (State.get_flag_one _ rfl Nat.one_pos h.2)⟩

/-- A lane field at another bit than those of delivery, whatever the lane's number. -/
theorem ln_offBits {f : Fld} (l : Nat) (h : f.key % 64 ∉ deliveryBits) : OffBits (ln f l) := by
  rwa [OffBits, ln, Fld.shift_key, Nat.add_mul_mod_self_left]

theorem linkTrainingDone_completes (s : State) (n : Fin 96) (h : s.lstate n = 1) :
    Completes (.linkTrainingDone n) s fun t =>
      (∀ l ∈ s.portLanes n, s.trains n l = true → s.bit (ln F.LANE_CTRL l) = true →
        t.get (ln F.LANE_STATUS_TRAIN_DONE l) = 1 ∧ t.get (ln F.LANE_STATUS_CDR_LOCK l) = 1)
      ∧ OnlyFields ((s.portLanes n).flatMap trainFields) s t := by
  refine .of_fin (u := linkTrainingDone n s) (congrArg fin (if_pos h)) ⟨fun l hl ht hp => ?_, ?_⟩
  · rw [(ln_offBits l (by decide)).commit, (ln_offBits l (by decide)).commit]
    exact linkTrainingDone_get s n l hl ht hp
  · exact (linkTrainingDone_only s n).commit

/-! Faults of a port without a lost clock. -/

/-- A fault that takes no lane's clock changes the port's PCS_LOCK, its link state and the start of its debounce. -/
theorem portFault_keeps (s : State) (n : Nat) : (s.portFault n 0 0).prt.lrefAbsent = s.prt.lrefAbsent
    ∧ (s.portFault n 0 0).evq = s.evq
    ∧ ∀ l, (s.portFault n 0 0).get (ln F.LANE_STATUS_PLL_LOCK l) = s.get (ln F.LANE_STATUS_PLL_LOCK l) := by
  have hit : (s.portLanes n).filter (fun l => bitOf 0 (l - s.portBase n)) = [] :=
    List.filter_eq_nil_iff.mpr fun l _ => by simp [bitOf]
  have hl : ∀ l, (s.put (pt F.PORT_STATUS_PCS_LOCK n) 0).get (ln F.LANE_STATUS_PLL_LOCK l) = s.get (ln F.LANE_STATUS_PLL_LOCK l) :=
    fun l => State.get_put_ne _ (ln_key_ne_pt l n (by decide)) _
  unfold State.portFault
  simp only [hit, beq_self_eq_true, Bool.true_or, State.when_true, State.each_nil, Nat.reduceBEq, State.when_false,
    show (0 : Nat) ≠ 3 by decide, show (0 : Nat) ≠ 1 by decide, false_and, or_false, if_false]
  split
  · exact ⟨rfl, rfl, fun _ => rfl⟩
  · split
    · refine ⟨rfl, rfl, fun l => ?_⟩
      exact (State.get_put_ne _ (ln_key_ne_pt l n (by decide)) _).trans (hl l)
    · split <;> exact ⟨rfl, rfl, hl⟩

/-! The reference clock of a group. -/

/-- The lanes of group `g`. -/
def groupLanes (g : Nat) : List Nat := (List.range 16).map (· + 16 * g)

theorem mem_groupLanes {g l : Nat} : l ∈ groupLanes g ↔ laneGroup l = g := by
  simp only [groupLanes, List.mem_map, List.mem_range, laneGroup]
  constructor
  · rintro ⟨i, hi, rfl⟩; omega
  · intro h; exact ⟨l - 16 * g, by omega, by omega⟩

/-- A lost clock leaves PLL_LOCK alone. -/
theorem cdrLost_pll (s : State) (l m : Nat) :
    (s.cdrLost l).get (ln F.LANE_STATUS_PLL_LOCK m) = s.get (ln F.LANE_STATUS_PLL_LOCK m) := by
  unfold State.cdrLost
  split
  · rw [State.get_bump_ne _ (ln_key_ne m l (by decide)), State.get_put_ne _ (ln_key_ne m l (by decide))]
  · rfl

theorem cdrLost_prt (s : State) (l : Nat) : (s.cdrLost l).prt = s.prt := by
  unfold State.cdrLost
  split <;> rfl

/-- The lanes of the group after its reference went: their PLLs out of lock, their clocks lost (R67). -/
def State.groupUnlock (s : State) (g : Nat) : State :=
  s.each (groupLanes g) fun l t => (t.put (ln F.LANE_STATUS_PLL_LOCK l) 0).cdrLost l

theorem groupUnlock_pll (s : State) {g l : Nat} (h : laneGroup l = g) :
    (s.groupUnlock g).get (ln F.LANE_STATUS_PLL_LOCK l) = 0 := by
  refine State.each_brings (fun _ => True) (fun t => t.get (ln F.LANE_STATUS_PLL_LOCK l) = 0) _ _ (mem_groupLanes.mpr h)
    (fun _ _ _ _ => trivial) (fun t _ => ?_) (fun m _ t ht => ?_) s trivial
  · rw [cdrLost_pll, State.get_put_self, Nat.zero_mod]
  · rw [cdrLost_pll]
    exact State.get_put_zero _ rfl ht

theorem groupUnlock_prt (s : State) (g : Nat) : (s.groupUnlock g).prt = s.prt := by
  unfold State.groupUnlock
  exact State.each_keeps (fun t => t.prt) _ _ (fun l _ t => cdrLost_prt (t.put (ln F.LANE_STATUS_PLL_LOCK l) 0) l) s

/-- The reference of group `g` is found absent. -/
def State.lrefLost (s : State) (g : Nat) : State := s.setPrt fun x => { x with lrefAbsent := g :: s.prt.lrefAbsent }

/-- The ports of a list take the fault path: the absent references stay. -/
theorem each_portFault_absent (s : State) (ports : List Nat) :
    (s.each ports fun n t => t.portFault n 0 0).prt.lrefAbsent = s.prt.lrefAbsent :=
  State.each_keeps (fun t => t.prt.lrefAbsent) (fun n t => t.portFault n 0 0) ports (fun n _ t => (portFault_keeps t n).1) s

/-- The ports of a list take the fault path: every PLL lock stays. -/
theorem each_portFault_pll (s : State) (ports : List Nat) (l : Nat) :
    (s.each ports fun n t => t.portFault n 0 0).get (ln F.LANE_STATUS_PLL_LOCK l) = s.get (ln F.LANE_STATUS_PLL_LOCK l) :=
  State.each_keeps (fun t => t.get (ln F.LANE_STATUS_PLL_LOCK l)) (fun n t => t.portFault n 0 0) ports
    (fun n _ t => (portFault_keeps t n).2.2 l) s

/-- What an absence newly found in a watched group does (R67). -/
theorem lrefFault_absent (g : Nat) (s : State) (hw : s.domState (g + 1) = 0) (hg : s.lrefGone g = false) :
    lrefFault g true s =
      (let u := (s.lrefLost g).groupUnlock g
       (u.each (u.enabledPorts.filter fun n => u.portGroup n == g) fun n t => t.portFault n 0 0).raise
         0x3002 (96 + g) g 0 0 0) := by
  unfold lrefFault
  simp only [hw, hg, beq_self_eq_true, Bool.true_or, Bool.not_true, Bool.false_or, Bool.false_eq_true, if_false]
  rfl

theorem lrefAbsent_completes (s : State) (g : Fin 8) (hw : s.domState (g + 1) = 0) (hg : s.lrefGone g = false) :
    Completes (.lrefFault g true) s fun t => t.lrefGone g = true ∧ t.isPending (96 + g) = true
      ∧ ∀ l : Fin 128, laneGroup l = g → t.get (ln F.LANE_STATUS_PLL_LOCK l) = 0 := by
  refine .of_fin (congrArg fin (lrefFault_absent g s hw hg)) ⟨?_, State.raise_pends _ _ _ _ _ _ _, fun l hl => ?_⟩
  · rw [State.lrefGone, State.commit_prt, State.raise, State.raiseEv_prt, each_portFault_absent, groupUnlock_prt]
    simp [State.lrefLost]
  · rw [State.commit_get _ _ (delivers_ln l.isLt (by decide)), State.raise_get, each_portFault_pll]
    exact groupUnlock_pll _ hl

/-- The powered lanes of the group whose reference is back (R67). -/
def State.groupRelock (s : State) (g : Nat) : State :=
  s.each ((groupLanes g).filter fun l => s.bit (ln F.LANE_CTRL l)) fun l t => t.flag (ln F.LANE_STATUS_PLL_LOCK l)

/-- The reference of group `g` no longer counts as absent. -/
def State.lrefBack (s : State) (g : Nat) : State :=
  s.setPrt fun x => { x with lrefAbsent := s.prt.lrefAbsent.filter (· != g) }

theorem lrefFault_back (g : Nat) (s : State) :
    lrefFault g false s = if s.lrefGone g then (s.lrefBack g).groupRelock g else s := by
  cases h : s.lrefGone g <;> simp [lrefFault, h, State.groupRelock, State.lrefBack, groupLanes]

theorem groupRelock_pll (s : State) {g l : Nat} (h : laneGroup l = g) (hp : s.bit (ln F.LANE_CTRL l) = true) :
    (s.groupRelock g).get (ln F.LANE_STATUS_PLL_LOCK l) = 1 := by
  unfold State.groupRelock
  exact State.each_brings (fun _ => True) (fun t => t.get (ln F.LANE_STATUS_PLL_LOCK l) = 1)
    (fun m t => t.flag (ln F.LANE_STATUS_PLL_LOCK m)) _ (List.mem_filter.mpr ⟨mem_groupLanes.mpr h, hp⟩) (fun _ _ _ _ => trivial)
    (fun _ _ => State.get_flag_self _ _ Nat.one_pos) (fun _ _ _ ht => State.get_flag_one _ rfl Nat.one_pos ht) s trivial

theorem groupRelock_prt (s : State) (g : Nat) : (s.groupRelock g).prt = s.prt := by
  unfold State.groupRelock
  exact State.each_keeps (fun t => t.prt) _ _ (fun l _ t => State.put_prt t _ _) s

/-- The PLL locks of a group's lanes. -/
def groupPlls (g : Nat) : List Fld :=
  ((List.range 128).filter fun l => laneGroup l == g).map fun l => ln F.LANE_STATUS_PLL_LOCK l

theorem groupRelock_only (s : State) (g : Fin 8) : OnlyFields (groupPlls g) s (s.groupRelock g) := by
  unfold State.groupRelock
  refine .each _ _ (fun l hl t => .flag t (ln F.LANE_STATUS_PLL_LOCK l) ?_) s
  have hg : laneGroup l = g := mem_groupLanes.mp (List.mem_filter.mp hl).1
  have h128 : l < 128 := by rw [laneGroup] at hg; omega
  exact List.any_eq_true.mpr ⟨_, List.mem_map.mpr ⟨l, List.mem_filter.mpr ⟨List.mem_range.mpr h128, by simp [hg]⟩, rfl⟩,
    beq_self_eq_true _⟩

theorem lrefBack_completes (s : State) (g : Fin 8) :
    Completes (.lrefFault g false) s fun t => t.lrefGone g = false
      ∧ (s.lrefGone g = true → ∀ l : Fin 128, laneGroup l = g → s.bit (ln F.LANE_CTRL l) = true →
          t.get (ln F.LANE_STATUS_PLL_LOCK l) = 1)
      ∧ OnlyFields (groupPlls g) { s with prt := t.prt } t := by
  refine .of_fin (congrArg fin (lrefFault_back g s)) ?_
  cases h : s.lrefGone g
  · refine ⟨?_, fun e => (by cases e), ?_⟩
    · simpa [State.lrefGone] using h
    · rw [State.commit_prt]
      exact (OnlyFields.refl _ s).commit
  · have hprt : ((s.lrefBack g).groupRelock g).commit.prt = (s.lrefBack g).prt := by
      rw [State.commit_prt, groupRelock_prt]
    refine ⟨?_, fun _ l hl hp => ?_, ?_⟩
    · rw [State.lrefGone, if_pos rfl, hprt]
      simp [State.lrefBack, State.setPrt]
    · rw [if_pos rfl, State.commit_get _ _ (delivers_ln l.isLt (by decide))]
      exact groupRelock_pll _ hl hp
    · rw [if_pos rfl, hprt]
      exact (groupRelock_only (s.lrefBack g) g).commit

/-! A PLL that loses lock. -/

/-- The event of a lost lock, before its port takes the fault path (R68). -/
def State.pllLost (s : State) (l : Nat) : State :=
  (s.put (ln F.LANE_STATUS_PLL_LOCK l) 0).raise 0x3001 (96 + laneGroup l) l 0 0 0

theorem pllLoss_keeps (l : Nat) (s : State) :
    (pllLoss l s).get (ln F.LANE_STATUS_PLL_LOCK l) = 0 ∧ (pllLoss l s).evq = (s.pllLost l).evq := by
  have h0 : (s.pllLost l).get (ln F.LANE_STATUS_PLL_LOCK l) = 0 := by
    rw [State.pllLost, State.raise_get, State.get_put_self, Nat.zero_mod]
  unfold pllLoss
  simp only
  split
  · exact ⟨h0, rfl⟩
  · rename_i n _
    obtain ⟨_, hev, hpll⟩ := portFault_keeps (s.pllLost l) n
    exact ⟨(hpll l).trans h0, hev⟩

theorem pllLossOfLock_completes (s : State) (l : Fin 128) (dt : Nat) :
    Completes (.pllLossOfLock l dt) s fun t =>
      t.get (ln F.LANE_STATUS_PLL_LOCK l) = 0 ∧ t.isPending (96 + laneGroup l) = true := by
  obtain ⟨hpll, hev⟩ := pllLoss_keeps l (s.elapse dt)
  refine .of_fin (u := pllLoss l (s.elapse dt)) rfl ⟨?_, ?_⟩
  · rw [State.commit_get _ _ (delivers_ln l.isLt (by decide)), hpll]
  · refine commit_pends _ ⟨0x3001, 96 + laneGroup l, l % 2 ^ 32, 0, 0, 0, false, false, []⟩ ?_
    rw [hev]
    simp [State.pllLost, State.raise]

/-- Settles O14, clause by clause: LANE_CTRL, training, the reference lost and back, and a lost PLL lock. -/
theorem lanesAndReferences : Obligations.LanesAndReferences :=
  ⟨laneEnable_completes, linkTrainingDone_completes, lrefAbsent_completes, lrefBack_completes, pllLossOfLock_completes⟩

end Sys2Proof.Machine
end

section
/-! SUPPORT. Egress: what a frame queued on a port may change (R60, R272 to R274), and when its transmission starts at once. -/

namespace Sys2Proof.Machine

theorem reportFrame_delivered (s : State) (status : Nat) (i : Option EmitInfo) (tx : Option Nat) :
    Delivered s (s.reportFrame status i tx) := by
  cases i with
  | none => exact .refl s
  | some i => exact cqPush_delivered s _ _

theorem State.setPort_port (s : State) (n : Nat) (g : PortSt → PortSt) : (s.setPort n g).port n = g (s.port n) :=
  Table.at_modify_self _ _ _ _

theorem State.setPort_port_ne (s : State) {n m : Nat} (h : m ≠ n) (g : PortSt → PortSt) : (s.setPort n g).port m = s.port m :=
  Table.at_modify_ne _ h _ _

theorem State.setEq_eq (s : State) (n : Nat) (l : List OutFrame) : (s.setEq n l).eq n = l := Table.at_put_self _ _ _ _

theorem State.setEq_eq_ne (s : State) {n m : Nat} (h : m ≠ n) (l : List OutFrame) : (s.setEq n l).eq m = s.eq m :=
  Table.at_put_ne _ _ h _ _

/-- What work on port `n`'s egress may change: its queue and its transmitter, two counters, and what delivery may. -/
structure EgressOf (n : Nat) (s t : State) : Prop where
  keep : ∀ f : Fld, delivers f.key = false → f.key ≠ F.SEAL_CNT_QDROP.key → f.key ≠ (pt F.PORT_CNT_TX_DOWN n).key →
    t.get f = s.get f
  port : ∀ m, m ≠ n → t.port m = s.port m
  eq : ∀ m, m ≠ n → t.eq m = s.eq m
  reds : t.prt.reds = s.prt.reds
  out : ∃ l, t.out = l ++ s.out

theorem EgressOf.refl (n : Nat) (s : State) : EgressOf n s s :=
  ⟨fun _ _ _ _ => rfl, fun _ _ => rfl, fun _ _ => rfl, rfl, [], rfl⟩

theorem EgressOf.trans {n : Nat} {s t u : State} (h : EgressOf n s t) (k : EgressOf n t u) : EgressOf n s u where
  keep f hf hq hd := (k.keep f hf hq hd).trans (h.keep f hf hq hd)
  port m hm := (k.port m hm).trans (h.port m hm)
  eq m hm := (k.eq m hm).trans (h.eq m hm)
  reds := k.reds.trans h.reds
  out := by
    obtain ⟨l, hl⟩ := h.out
    obtain ⟨l', hl'⟩ := k.out
    exact ⟨l' ++ l, by rw [hl', hl, List.append_assoc]⟩

theorem EgressOf.of_delivered (n : Nat) {s t : State} (h : Delivered s t) : EgressOf n s t where
  keep f hf _ _ := h.keep f hf
  port m _ := by rw [State.port, h.rest, State.port]
  eq m _ := by rw [State.eq, h.rest, State.eq]
  reds := by rw [h.rest]
  out := h.out

theorem EgressOf.bump (n : Nat) (s : State) (f : Fld)
    (h : f.key = F.SEAL_CNT_QDROP.key ∨ f.key = (pt F.PORT_CNT_TX_DOWN n).key) : EgressOf n s (s.bump f) where
  keep _ _ hq hd := s.get_bump_ne (fun e => h.elim (fun e' => hq (e.trans e')) (fun e' => hd (e.trans e')))
  port _ _ := rfl
  eq _ _ := rfl
  reds := rfl
  out := ⟨[], rfl⟩

theorem EgressOf.setEq (n : Nat) (s : State) (l : List OutFrame) : EgressOf n s (s.setEq n l) :=
  ⟨fun _ _ _ _ => rfl, fun _ _ => rfl, fun _ hm => s.setEq_eq_ne hm l, rfl, [], rfl⟩

theorem EgressOf.setPort (n : Nat) (s : State) (g : PortSt → PortSt) : EgressOf n s (s.setPort n g) :=
  ⟨fun _ _ _ _ => rfl, fun _ hm => s.setPort_port_ne hm g, fun _ _ => rfl, rfl, [], rfl⟩

theorem qdrop_egress (s : State) (n : Nat) (f : OutFrame) : EgressOf n s (s.qdrop n f) := by
  unfold State.qdrop
  exact ((EgressOf.bump n s _ (.inl rfl)).trans (.of_delivered n (reportFrame_delivered _ _ _ _))).trans
    (.of_delivered n (limited_delivered _ _ _ _ _ fun _ t => .raiseEv t _))

theorem makeRoom_egress (n : Nat) (f : OutFrame) (k : Nat) (s : State) : EgressOf n s (s.makeRoom n f k) := by
  induction k generalizing s with
  | zero => exact .refl n s
  | succ k ih =>
    unfold State.makeRoom
    split
    · exact .refl n s
    · split
      · exact .refl n s
      · split
        · exact .refl n s
        · exact ((EgressOf.setEq n s _).trans (qdrop_egress _ n _)).trans (ih _)

theorem startTx_egress (s : State) (n : Nat) : EgressOf n s (s.startTx n) := by
  unfold State.startTx
  split
  · exact .refl n s
  · simp only
    split
    · exact .refl n s
    · split
      · exact .refl n s
      · exact (EgressOf.setEq n s _).trans (.setPort n _ _)

/-- A frame that reaches a port is dropped or queued, and may start. -/
theorem toPort_egress (s : State) (n : Nat) (f : OutFrame) : EgressOf n s (s.toPort n f) := by
  unfold State.toPort
  split
  · exact (EgressOf.bump n s _ (.inr rfl)).trans (.of_delivered n (reportFrame_delivered _ _ _ _))
  · simp only
    split
    · exact ((makeRoom_egress n f _ s).trans (.setEq n _ _)).trans (startTx_egress _ n)
    · exact (makeRoom_egress n f _ s).trans (qdrop_egress _ n f)

/-! A port that is UP and idle. -/

/-- Port `n` is UP, transmits nothing, has nothing queued, and its transmitter is not held idle. -/
structure State.TxIdle (s : State) (n : Nat) : Prop where
  up : s.lstate n = 3
  tx : (s.port n).tx = none
  eq : s.eq n = []
  on : s.bit (pt F.PORT_CTRL_TX_DISABLE n) = false

/-- Settings and states of ports, whatever the port's number, are none of the fields that delivery writes. -/
theorem delivers_pt_state {f : Fld} (n : Nat)
    (h : f.key / 64 % 0x1000 = 0 ∨ f.key / 64 % 0x1000 = 0x30 ∨ (f.key / 64 % 0x1000 = 4 ∧ f.key % 64 = 6)) :
    delivers (pt f n).key = false := by
  have ho : (pt f n).key / 64 = f.key / 64 + 0x1000 * n := by rw [pt, Fld.shift_key]; omega
  have hl : (pt f n).key % 64 = f.key % 64 := by rw [pt, Fld.shift_key]; omega
  rw [delivers, ho, hl]
  simp only [deliversAt, Bool.or_eq_false_iff, Bool.and_eq_false_iff, decide_eq_false_iff_not, beq_eq_false_iff_ne]
  omega

/-- Work on one port's egress leaves another one idle. -/
theorem State.TxIdle.of_egress {s t : State} {n m : Nat} (h : s.TxIdle n) (k : EgressOf m s t) (hn : n ≠ m) : t.TxIdle n where
  up := (k.keep _ (delivers_pt_state n (by decide)) (pt_key_ne_fixed n (by decide)) (pt_key_ne n m (by decide))).trans h.up
  tx := by rw [k.port n hn, h.tx]
  eq := by rw [k.eq n hn, h.eq]
  on := by
    rw [State.bit, k.keep _ (delivers_pt_state n (by decide)) (pt_key_ne_fixed n (by decide)) (pt_key_ne n m (by decide))]
    exact h.on

/-- Only a PTP message, which waits in queue 6, is changed as it starts (R57). -/
theorem oneStep_of_prio (s : State) (n t : Nat) {f : OutFrame} (h : f.prio ≠ 6) : s.oneStep n t f = f := by
  have : ptpEvent f = false := by simp [ptpEvent, h]
  simp [State.oneStep, this]

/-- A frame below the buffer's size that reaches an idle port starts at once (R273). -/
theorem toPort_idle (s : State) {n : Nat} (f : OutFrame) (h : s.TxIdle n) (hw : wireOf f ≤ 262144) :
    ∃ t0, ((s.toPort n f).port n).tx = some (s.oneStep n t0 f, t0) := by
  have hroom : s.makeRoom n f (s.eq n).length = s := by rw [h.eq]; rfl
  have hused : s.eqUsed n + wireOf f ≤ 262144 := by simpa [State.eqUsed, h.eq, h.tx] using hw
  have hport : s.toPort n f = (s.setEq n [f]).startTx n := by
    simp only [State.toPort, h.up, ne_eq, not_true_eq_false, if_false, hroom, hused, if_true]
    rw [h.eq, List.nil_append]
  have hfree : ¬((s.setEq n [f]).lstate n ≠ 3 ∨ ((s.setEq n [f]).port n).tx.isSome = true
      ∨ (s.setEq n [f]).bit (pt F.PORT_CTRL_TX_DISABLE n) = true) := by
    have h1 : (s.setEq n [f]).lstate n = 3 := h.up
    have h2 : ((s.setEq n [f]).port n).tx = none := h.tx
    have h3 : (s.setEq n [f]).bit (pt F.PORT_CTRL_TX_DISABLE n) = false := h.on
    simp [h1, h2, h3]
  refine ⟨(s.setEq n [f]).txTime n, ?_⟩
  rw [hport, State.startTx, if_neg hfree, State.setEq_eq]
  simp [State.setPort_port, State.oneStep, State.setEq, State.bit, State.get, List.findIdx?_cons]

/-- With an empty queue nothing starts. -/
theorem startTx_empty (s : State) (n : Nat) (h : s.eq n = []) : s.startTx n = s := by
  simp [State.startTx, h]

end Sys2Proof.Machine
end

section
/-! The redundancy table, its node entries and the end of a transmission (R61, R62, R69, R273). -/

namespace Sys2Proof.Machine

theorem State.setRed_red (s : State) (m : Nat) (g : RedSt → RedSt) : (s.setRed m g).red m = g (s.red m) :=
  Table.at_modify_self _ _ _ _

theorem State.setRed_red_ne (s : State) {m k : Nat} (h : k ≠ m) (g : RedSt → RedSt) : (s.setRed m g).red k = s.red k :=
  Table.at_modify_ne _ h _ _

/-! PORT_GLB_CTRL.EN (R69). -/

/-- The ports of pair `m` are marked, and its supervision starts. -/
def markPair (m : Nat) (t : State) : State :=
  ((t.flag (pt F.PORT_STATUS_RED_MEMBER (t.redA m))).flag (pt F.PORT_STATUS_RED_MEMBER (t.redB m))).setRed m fun x =>
    { x with lifeAt := t.clk }

theorem markPair_get_ne (m : Nat) (t : State) {f : Fld} (h : ∀ n, f.key ≠ (pt F.PORT_STATUS_RED_MEMBER n).key) :
    (markPair m t).get f = t.get f :=
  (State.get_flag_ne _ (h _)).trans (State.get_flag_ne _ (h _))

theorem markPair_keeps_mark (m n : Nat) (t : State) (h : t.get (pt F.PORT_STATUS_RED_MEMBER n) = 1) :
    (markPair m t).get (pt F.PORT_STATUS_RED_MEMBER n) = 1 :=
  State.get_flag_one _ rfl Nat.one_pos (State.get_flag_one _ rfl Nat.one_pos h)

theorem markPair_marks (m : Nat) (t : State) : (markPair m t).get (pt F.PORT_STATUS_RED_MEMBER (t.redA m)) = 1
    ∧ (markPair m t).get (pt F.PORT_STATUS_RED_MEMBER (t.redB m)) = 1 :=
  ⟨State.get_flag_one _ rfl Nat.one_pos (State.get_flag_self _ _ Nat.one_pos), State.get_flag_self _ _ Nat.one_pos⟩

/-- The redundancy table is enabled, with fresh limits of event 0x2005. -/
def State.glbOn (s : State) : State := (s.freshLimits fun e => e.code == 0x2005).flag F.PORT_GLB_CTRL

/-- The settings of pairs stand above PORT_GLB_CTRL. -/
theorem glbOn_get_rd (s : State) {f : Fld} (m : Nat) (h : F.PORT_GLB_CTRL.key < f.key) : s.glbOn.get (rd f m) = s.get (rd f m) := by
  refine State.get_flag_ne _ ?_
  rw [rd, Fld.shift_key]; omega

theorem glbOn_redPairs (s : State) : s.glbOn.redPairs = s.redPairs :=
  congrArg (List.range 48).filter (funext fun m => congrArg (· != 0) (glbOn_get_rd s m (by decide)))

/-- Enabling with every pair valid. -/
theorem portGlbWrite_valid (s : State) (d : Nat) (hd : bitOf d 0 = true) (he : s.bit F.PORT_GLB_CTRL = false)
    (hv : ∀ k ∈ s.redPairs, s.badPair k = false) :
    portGlbWrite d s = s.glbOn.each s.redPairs markPair := by
  have hf : s.redPairs.find? s.badPair = none := List.find?_eq_none.mpr fun k hk => by simp [hv k hk]
  unfold portGlbWrite
  simp only [hd, he, hf, Bool.not_true, Bool.false_eq_true, if_false]
  exact congrArg (fun l => s.glbOn.each l markPair) (glbOn_redPairs s)

/-- After the loop every pair's ports are marked: no mark moves a port of the table. -/
theorem each_markPair (s : State) (pairs : List Nat) (k : Nat) (hk : k ∈ pairs) :
    (s.each pairs markPair).get (pt F.PORT_STATUS_RED_MEMBER (s.redA k)) = 1
      ∧ (s.each pairs markPair).get (pt F.PORT_STATUS_RED_MEMBER (s.redB k)) = 1 := by
  refine State.each_brings (fun t => t.redA k = s.redA k ∧ t.redB k = s.redB k)
    (fun t => t.get (pt F.PORT_STATUS_RED_MEMBER (s.redA k)) = 1 ∧ t.get (pt F.PORT_STATUS_RED_MEMBER (s.redB k)) = 1)
    markPair pairs hk (fun m _ t h => ?_) (fun t h => ?_) (fun m _ t h => ?_) s ⟨rfl, rfl⟩
  · exact ⟨(markPair_get_ne m t fun n => rd_key_ne_pt k n (by decide)).trans h.1,
      (markPair_get_ne m t fun n => rd_key_ne_pt k n (by decide)).trans h.2⟩
  · have := markPair_marks k t
    rwa [h.1, h.2] at this
  · exact ⟨markPair_keeps_mark m _ t h.1, markPair_keeps_mark m _ t h.2⟩

theorem portGlbEnable_valid (m : Master) (s : State) (d : Nat) (h : Reaches s m 0x260000) (hd : bitOf d 0 = true)
    (he : s.bit F.PORT_GLB_CTRL = false) (hv : ∀ k ∈ s.redPairs, s.badPair k = false) :
    Completes (.portGlbEnable m d) s fun t => t.get F.PORT_GLB_CTRL = 1 ∧ ∀ k ∈ s.redPairs,
      t.get (pt F.PORT_STATUS_RED_MEMBER (s.redA k)) = 1 ∧ t.get (pt F.PORT_STATUS_RED_MEMBER (s.redB k)) = 1 := by
  have hw := portGlbWrite_valid s d hd he hv
  refine .of_fin (congrArg fin ((State.regWrite_of s m _ _ h.1 h.2).trans hw)) ⟨?_, fun k hk => ?_⟩
  · rw [State.commit_get _ _ (by decide), State.each_keeps (fun t => t.get F.PORT_GLB_CTRL) markPair _
      (fun k _ t => markPair_get_ne k t fun n => (pt_key_ne_fixed n (by decide)).symm)]
    exact State.get_flag_self _ _ (by decide)
  · have hm : ∀ n, OffBits (pt F.PORT_STATUS_RED_MEMBER n) := fun n => by
      rw [OffBits, pt, Fld.shift_key, Nat.add_mul_mod_self_left]; decide
    have hmark := each_markPair s.glbOn s.redPairs k hk
    rw [State.redA, State.redB, glbOn_get_rd s k (by decide), glbOn_get_rd s k (by decide)] at hmark
    rwa [(hm _).commit, (hm _).commit]

theorem portGlbEnable_invalid (m : Master) (s : State) (d k : Nat) (h : Reaches s m 0x260000) (hd : bitOf d 0 = true)
    (he : s.bit F.PORT_GLB_CTRL = false) (hk : k ∈ s.redPairs) (hb : s.badPair k = true) :
    Completes (.portGlbEnable m d) s fun t => t.get F.PORT_GLB_CTRL = 0 ∧ OnlyFields [] s t := by
  obtain ⟨j, hj⟩ : ∃ j, s.redPairs.find? s.badPair = some j := by
    rw [← Option.isSome_iff_exists, List.find?_isSome]
    exact ⟨k, hk, hb⟩
  have hw : portGlbWrite d s = s.raise 0x2007 (s.redA j) (s.redA j) 7 0 0 := by
    simp [portGlbWrite, hd, he, hj]
  refine .of_fin (congrArg fin ((State.regWrite_of s m _ _ h.1 h.2).trans hw)) ⟨?_, ?_⟩
  · rw [State.commit_get _ _ (by decide), State.raise_get]
    exact State.get_of_bit_false he
  · exact (OnlyFields.raise s _ _ _ _ _ _).commit

/-! Supervision frames (R61). -/

/-- The supervision frame of pair `m` for port `n` with sequence number `q`. -/
def State.supFrame (s : State) (m n q : Nat) : OutFrame := ⟨1, none, supervisionBytes (s.get (pt F.PORT_MAC n)) (s.redMode m) q⟩

theorem supFrame_wire (s : State) (m n q : Nat) : wireOf (s.supFrame m n q) ≤ 262144 := by
  have : (supervisionBytes (s.get (pt F.PORT_MAC n)) (s.redMode m) q).length ≤ 1514 := by
    rw [supervisionBytes, List.length_take]; omega
  simp only [wireOf, State.supFrame]; omega

/-- Pair `m` has taken its next sequence number, and its time starts anew. -/
def State.supStart (s : State) (m : Nat) : State :=
  s.setRed m fun x => { x with txSeq := (x.txSeq + 1) % 2 ^ 16, lifeAt := s.clk }

theorem supervisionTx_due (m dt : Nat) (s : State) (he : s.bit F.PORT_GLB_CTRL = true) (hm : s.redMode m ≠ 0)
    (hl : (s.red m).lifeAt + s.get (rd F.RED_TIMES_LIFE_CHECK m) * 1000000000 ≤ s.clk + dt) :
    supervisionTx m dt s =
      (let u := (s.elapse dt).supStart m
       let a := u.toPort (s.redA m) (u.supFrame m (s.redA m) (s.red m).txSeq)
       a.toPort (s.redB m) (a.supFrame m (s.redB m) (s.red m).txSeq)) := by
  have hcond : (!(s.elapse dt).bit F.PORT_GLB_CTRL || decide ((s.elapse dt).redMode m = 0) || decide ((s.elapse dt).clk <
      ((s.elapse dt).red m).lifeAt + (s.elapse dt).get (rd F.RED_TIMES_LIFE_CHECK m) * 1000000000)) = false := by
    have h1 : (s.elapse dt).bit F.PORT_GLB_CTRL = true := he
    have h2 : ¬(s.elapse dt).redMode m = 0 := hm
    have h3 : ¬((s.elapse dt).clk < ((s.elapse dt).red m).lifeAt
        + (s.elapse dt).get (rd F.RED_TIMES_LIFE_CHECK m) * 1000000000) := Nat.not_lt.mpr hl
    simp only [h1, h2, h3, decide_false, Bool.not_true, Bool.or_false]
  unfold supervisionTx
  simp only [hcond, Bool.false_eq_true, if_false]
  rfl

/-- Work on another port's egress leaves the supervision frame as it is. -/
theorem supFrame_of_egress {s t : State} {k : Nat} (h : EgressOf k s t) (m : Fin 48) (n q : Nat) :
    t.supFrame m n q = s.supFrame m n q := by
  have hmac : t.get (pt F.PORT_MAC n) = s.get (pt F.PORT_MAC n) :=
    h.keep _ (delivers_pt_state n (by decide)) (pt_key_ne_fixed n (by decide)) (pt_key_ne n k (by decide))
  have hmode : t.redMode m = s.redMode m := by
    refine h.keep _ (delivers_low ?_) (rd_key_ne_fixed _ (by decide)) (rd_key_ne_pt _ k (by decide))
    rw [rd, Fld.shift_key, show F.RED_CFG_MODE.key = 0x270000 * 64 + 16 from rfl]; omega
  rw [State.supFrame, State.supFrame, hmac, hmode]

theorem supervisionTx_completes (s : State) (m : Fin 48) (dt : Nat) (he : s.bit F.PORT_GLB_CTRL = true)
    (hm : s.redMode m ≠ 0) (hab : s.redA m ≠ s.redB m)
    (hl : (s.red m).lifeAt + s.get (rd F.RED_TIMES_LIFE_CHECK m) * 1000000000 ≤ s.clk + dt) :
    Completes (.supervisionTx m dt) s fun t =>
      (t.red m).txSeq = ((s.red m).txSeq + 1) % 2 ^ 16 ∧ (t.red m).lifeAt = s.clk + dt
      ∧ ∀ (n : Nat) (f : OutFrame), (n = s.redA m ∨ n = s.redB m) →
          f = ⟨1, none, supervisionBytes (s.get (pt F.PORT_MAC n)) (s.redMode m) (s.red m).txSeq⟩ →
          s.lstate n = 3 → (s.port n).tx = none → s.eq n = [] → s.bit (pt F.PORT_CTRL_TX_DISABLE n) = false →
          ∃ t0, (t.port n).tx = some (s.oneStep n t0 f, t0) := by
  refine .of_fin (congrArg fin (supervisionTx_due m dt s he hm hl)) ?_
  simp only
  generalize hu : (s.elapse dt).supStart m = u
  generalize ha : u.toPort (s.redA m) (u.supFrame m (s.redA m) (s.red m).txSeq) = a
  generalize hb : a.toPort (s.redB m) (a.supFrame m (s.redB m) (s.red m).txSeq) = b
  have ea : EgressOf (s.redA m) u a := ha ▸ toPort_egress u _ _
  have eb : EgressOf (s.redB m) a b := hb ▸ toPort_egress a _ _
  have hred : b.commit.red m = u.red m := by
    rw [State.red, State.commit_prt, eb.reds, ea.reds, State.red]
  have hseq : u.red m = { s.red m with txSeq := ((s.red m).txSeq + 1) % 2 ^ 16, lifeAt := s.clk + dt } :=
    hu ▸ State.setRed_red _ _ _
  have hstart : ∀ n, b.commit.port n = b.port n := fun n => by rw [State.port, State.commit_prt, State.port]
  refine ⟨by rw [hred, hseq], by rw [hred, hseq], ?_⟩
  rintro n f hn rfl h1 h2 h3 h4
  have hidle : u.TxIdle n := hu ▸ ⟨h1, h2, h3, h4⟩
  have hframe : u.supFrame m n (s.red m).txSeq = s.supFrame m n (s.red m).txSeq := hu ▸ rfl
  have hstep : ∀ (v : State) t0, v.oneStep n t0 (s.supFrame m n (s.red m).txSeq) = s.supFrame m n (s.red m).txSeq :=
    fun v t0 => oneStep_of_prio v n t0 (by decide : (1 : Nat) ≠ 6)
  show ∃ t0, (b.commit.port n).tx = some (s.oneStep n t0 (s.supFrame m n (s.red m).txSeq), t0)
  rw [hstart]
  rcases hn with rfl | rfl
  · obtain ⟨t0, ht⟩ := toPort_idle u _ hidle (supFrame_wire u m _ (s.red m).txSeq)
    refine ⟨t0, ?_⟩
    rw [eb.port _ hab, ← ha, ht, hframe, hstep, hstep]
  · have hframe' : a.supFrame m (s.redB m) (s.red m).txSeq = s.supFrame m (s.redB m) (s.red m).txSeq :=
      (supFrame_of_egress ea m _ _).trans hframe
    obtain ⟨t0, ht⟩ := toPort_idle a _ (hidle.of_egress ea hab.symm) (supFrame_wire a m _ (s.red m).txSeq)
    refine ⟨t0, ?_⟩
    rw [← hb, ht, hframe', hstep, hstep]

/-! Node entries and sequence numbers (R61). -/

/-- RED_STATUS follows the tables, which keep their node entries. -/
theorem syncRed_nodes (s : State) (m : Nat) : (s.syncRed.red m).nodes = (s.red m).nodes := by
  unfold State.syncRed
  refine (State.each_keeps (fun t => (t.red m).nodes) _ _ (fun k _ t => ?_) _).trans rfl
  simp only
  split
  · rfl
  · by_cases h : m = k
    · subst h; rw [State.setRed_red]; rfl
    · rw [State.setRed_red_ne _ h]; rfl

theorem nodeForget_completes (s : State) (m : Fin 48) (mac dt : Nat) :
    Completes (.nodeForgetExpiry m mac dt) s fun t => (t.red m).nodes = (s.red m).nodes.filter fun e =>
      e.mac != mac || decide (s.clk + dt - e.lastAt < s.get (rd F.RED_TIMES_NODE_FORGET m) * 1000000000) := by
  refine .of_fin (u := nodeForget m mac dt s) rfl ?_
  rw [State.red, State.commit_prt, ← State.red, nodeForget, syncRed_nodes, State.setRed_red]
  rfl

theorem entryForget_completes (s : State) (m : Fin 48) (mac dt : Nat) :
    Completes (.entryForgetExpiry m mac dt) s fun t => (t.red m).nodes = (s.red m).nodes.map fun e =>
      if e.mac = mac then { e with seqs := e.seqs.filter fun x => decide (s.clk + dt - x.2.2 < s.forgetNs m) } else e := by
  refine .of_fin (u := entryForget m mac dt s) rfl ?_
  rw [State.red, State.commit_prt, ← State.red, entryForget, State.setNode, State.setRed_red]
  rfl

/-! The end of a transmission (R273). -/

/-- Frame `f`, started at `t0`, has left port `n`, and is counted. -/
def State.txCounted (s : State) (n : Nat) (f : OutFrame) (t0 : Nat) : State :=
  (((s.emit (.frameTx n f.bytes)).when (ptpEvent f) fun u => u.emit (.txStamp n t0 f.bytes)).bump
    (pt F.PORT_CNT_TX_FRAMES n)).addTo (pt F.PORT_CNT_TX_BYTES n) (wireOf f)

/-- It is reported as well, before the transmitter is free. -/
def State.frameGone (s : State) (n : Nat) (f : OutFrame) (t0 : Nat) : State :=
  (s.txCounted n f t0).reportFrame 0 f.info (match f.info with
    | some i => if i.ts then some t0 else none
    | none => none)

theorem frameGone_delivered (s : State) (n : Nat) (f : OutFrame) (t0 : Nat) :
    Delivered (s.txCounted n f t0) (s.frameGone n f t0) := reportFrame_delivered _ _ _ _

/-- The frames that the firmware has handed to the port meanwhile. -/
def State.queued (s : State) (n : Nat) (ym : List (Bool × List Byte)) : State :=
  s.each ym fun f t => t.toPort n ⟨if f.1 then 6 else 1, none, f.2⟩

theorem frameTxDone_eq (s : State) (n : Nat) (ym : List (Bool × List Byte)) (f : OutFrame) (t0 dt : Nat)
    (h : (s.port n).tx = some (f, t0)) :
    frameTxDone n ym dt s =
      ((((s.elapse dt).queued n ym).frameGone n f t0).setPort n fun x => { x with tx := none }).startTx n := by
  have h' : ((s.elapse dt).port n).tx = some (f, t0) := h
  unfold frameTxDone
  simp only [h']
  rfl

theorem queued_egress (n : Nat) (ym : List (Bool × List Byte)) (s : State) : EgressOf n s (s.queued n ym) := by
  unfold State.queued
  induction ym generalizing s with
  | nil => exact .refl n s
  | cons f ym ih => exact (toPort_egress s n _).trans (ih _)

theorem frameGone_out (s : State) (n : Nat) (f : OutFrame) (t0 : Nat) : Output.frameTx n f.bytes ∈ (s.frameGone n f t0).out := by
  obtain ⟨l, hl⟩ := (frameGone_delivered s n f t0).out
  rw [hl]
  refine List.mem_append_right _ ?_
  cases h : ptpEvent f <;> simp [State.txCounted, h, State.bump, State.addTo]

theorem frameGone_count (s : State) (n : Fin 96) (f : OutFrame) (t0 : Nat) :
    (s.frameGone n f t0).get (pt F.PORT_CNT_TX_FRAMES n)
      = satAdd (pt F.PORT_CNT_TX_FRAMES n).width (s.get (pt F.PORT_CNT_TX_FRAMES n)) 1 := by
  rw [(frameGone_delivered s n f t0).keep _ (delivers_pt n.isLt (by decide)), State.txCounted,
    State.get_addTo_ne _ (pt_key_ne n n (by decide)), State.get_bump_self,
    State.when_keeps (fun t => t.get (pt F.PORT_CNT_TX_FRAMES n)) _ _ (fun u => u.emit _) (fun _ => rfl)]
  rfl

theorem frameGone_egress (s : State) (n : Nat) (f : OutFrame) (t0 : Nat) : (s.frameGone n f t0).egress = s.egress := by
  rw [(frameGone_delivered s n f t0).rest]
  exact State.when_keeps (fun t => t.egress) _ _ _ (fun _ => rfl)

theorem frameTxDone_completes (s : State) (n : Fin 96) (ym : List (Bool × List Byte)) (f : OutFrame) (t0 dt : Nat)
    (h : (s.port n).tx = some (f, t0)) :
    Completes (.frameTxDone n dt ym) s fun t => Output.frameTx n f.bytes ∈ t.out
      ∧ t.get (pt F.PORT_CNT_TX_FRAMES n) = satAdd (pt F.PORT_CNT_TX_FRAMES n).width (s.get (pt F.PORT_CNT_TX_FRAMES n)) 1
      ∧ (ym = [] → (s.eq n).isEmpty = true → (t.port n).tx = none) := by
  refine .of_fin (congrArg fin (frameTxDone_eq s n ym f t0 dt h)) ?_
  generalize hq : (s.elapse dt).queued n ym = q
  have eq : EgressOf n (s.elapse dt) q := hq ▸ queued_egress n ym _
  have es := startTx_egress ((q.frameGone n f t0).setPort n fun x => { x with tx := none }) n
  refine ⟨?_, ?_, fun hym he => ?_⟩
  · obtain ⟨l, hl⟩ := (commit_delivered (((q.frameGone n f t0).setPort n fun x => { x with tx := none }).startTx n)).out
    obtain ⟨l', hl'⟩ := es.out
    rw [hl, hl']
    exact List.mem_append_right _ (List.mem_append_right _ (frameGone_out q n f t0))
  · have hlow : delivers (pt F.PORT_CNT_TX_FRAMES n).key = false := delivers_pt n.isLt (by decide)
    have hqd := pt_key_ne_fixed (f := F.PORT_CNT_TX_FRAMES) (g := F.SEAL_CNT_QDROP) n (by decide)
    have hdown := pt_key_ne (f := F.PORT_CNT_TX_FRAMES) (g := F.PORT_CNT_TX_DOWN) n n (by decide)
    rw [State.commit_get _ _ hlow, es.keep _ hlow hqd hdown]
    refine (frameGone_count q n f t0).trans ?_
    rw [eq.keep _ hlow hqd hdown]
    rfl
  · subst hym
    have hempty : ((q.frameGone n f t0).setPort n fun x => { x with tx := none }).eq n = [] := by
      show Table.at [] n (q.frameGone n f t0).egress = []
      rw [frameGone_egress, ← hq]
      exact List.isEmpty_iff.mp he
    rw [State.port, State.commit_prt, startTx_empty _ _ hempty, ← State.port, State.setPort_port]

/-- Settles O15, clause by clause: the table enabled or refused, supervision frames, the two expiries, and the end of a
transmission. -/
theorem redundancyPairs : Obligations.RedundancyPairs :=
  ⟨portGlbEnable_valid, portGlbEnable_invalid, supervisionTx_completes, nodeForget_completes, entryForget_completes,
   frameTxDone_completes⟩

end Sys2Proof.Machine
end

section
/-! Reception up to admission: counts on the way, strays, and stages 1 to 5 (R54, R55, R74, R621). -/

namespace Sys2Proof.Machine

/-- Time that passes before a command's effect adds nothing to its frame. -/
theorem OnlyFields.elapsed {l : List Fld} {s t : State} {dt : Nat} (h : OnlyFields l (s.elapse dt) t) :
    OnlyFields l { s with clk := t.clk, dev := t.dev } t := by
  have hclk : t.clk = (s.elapse dt).clk := by rw [h.rest]
  have hdev : t.dev = (s.elapse dt).dev := by rw [h.rest]
  rw [hclk, hdev]
  exact h

/-! Counting on a port leaves everything that later tests ask. -/

/-- The key of a counter of one of the 96 ports. -/
def isPortCnt (k : Nat) : Bool := decide (0x200000 * 64 ≤ k ∧ k < 0x260000 * 64 ∧ 0x100 * 64 ≤ k % 0x40000)

/-- Between `s` and `t` counters of ports, and the bytes that the energy meters read, have gone on; nothing else. -/
structure Counted (s t : State) : Prop where
  keep : ∀ f : Fld, isPortCnt f.key = false → t.get f = s.get f
  rest : t = { s with fields := t.fields, tmr := t.tmr, inv := t.inv, pwr := t.pwr }

theorem Counted.refl (s : State) : Counted s s := ⟨fun _ _ => rfl, rfl⟩

theorem Counted.trans {s t u : State} (h : Counted s t) (k : Counted t u) : Counted s u :=
  ⟨fun f hf => (k.keep f hf).trans (h.keep f hf), by rw [k.rest, h.rest]⟩

theorem Counted.addTo (s : State) {f : Fld} {n : Nat} (k : Nat) (hn : n < 96)
    (hf : 0x200100 * 64 ≤ f.key ∧ f.key < 0x201000 * 64) : Counted s (s.addTo (pt f n) k) := by
  refine ⟨fun g hg => s.get_addTo_ne (fun e => ?_) k, rfl⟩
  rw [e, isPortCnt, pt, Fld.shift_key, decide_eq_false_iff_not] at hg
  omega

theorem Counted.setPwr (s : State) (g : PwrSt → PwrSt) : Counted s (s.setPwr g) := ⟨fun _ _ => rfl, rfl⟩

section
variable {s t : State} (h : Counted s t)
include h

theorem Counted.gate : t.gate = s.gate := by rw [h.rest]
theorem Counted.clk : t.clk = s.clk := by rw [h.rest]

theorem Counted.getPt {f : Fld} (n : Nat) (hf : f.key % 0x40000 < 0x100 * 64) : t.get (pt f n) = s.get (pt f n) := by
  refine h.keep _ (decide_eq_false ?_)
  rw [pt, Fld.shift_key]
  omega

theorem Counted.getRd {f : Fld} (m : Nat) (hf : 0x270000 * 64 ≤ f.key) : t.get (rd f m) = s.get (rd f m) := by
  refine h.keep _ (decide_eq_false ?_)
  rw [rd, Fld.shift_key]
  omega

theorem Counted.redMode : t.redMode = s.redMode := funext fun m => h.getRd m (by decide)

theorem Counted.pairOf (n : Nat) : t.pairOf n = s.pairOf n := by
  have hA : t.redA = s.redA := funext fun m => h.getRd m (by decide)
  have hB : t.redB = s.redB := funext fun m => h.getRd m (by decide)
  unfold State.pairOf State.redPairs State.bit
  rw [h.keep F.PORT_GLB_CTRL (by decide), h.redMode, hA, hB]

theorem Counted.vlan (n : Nat) (bs : List Byte) : t.vlan n bs = s.vlan n bs := by
  simp only [State.vlan, h.getPt (f := F.PORT_CFG_VLAN_MODE) n (by decide), h.getPt (f := F.PORT_PVID_PVID) n (by decide)]

theorem Counted.ethPath (n arr vid mac et : Nat) (src pdu : List Byte) (tag : Option (Nat × Nat)) (inHsr : Bool) :
    t.ethPath n arr vid mac et src pdu tag inHsr = s.ethPath n arr vid mac et src pdu tag inHsr := by
  simp only [State.ethPath, h.pairOf, h.redMode, h.keep F.PORT_GLB_ETYPE_HRS_ETYPE (by decide),
    h.keep F.PORT_GLB_ETYPE_YARD_ETYPE (by decide), h.keep F.PORT_GLB_UDP_SV90_UDP (by decide),
    h.keep F.PORT_GLB_UDP_HRS_UDP (by decide)]

theorem Counted.rxPath (n arr : Nat) (bs : List Byte) : t.rxPath n arr bs = s.rxPath n arr bs := by
  simp only [State.rxPath, h.vlan, h.pairOf, h.ethPath, h.redMode]

theorem Counted.arrival (n : Nat) : t.arrival n = s.arrival n := by
  have hnow : t.nowNs = s.nowNs := by rw [h.rest]; rfl
  simp only [State.arrival, hnow, h.getPt (f := F.PORT_TS_ASYM_ING) n (by decide)]

theorem Counted.viewFlow (n : Nat) : t.viewFlow n = s.viewFlow n := by
  unfold State.viewFlow State.takesInstance State.flow
  rw [h.gate]

theorem Counted.classify (fr : RxFrame) : t.classify fr = s.classify fr := by
  simp only [State.classify, State.flowList, State.matchOrder, State.ingressClasses, h.gate, h.pairOf, h.viewFlow]

theorem Counted.stage4 (x : FlowEnt) (sec : Sec) : t.stage4 x sec = s.stage4 x sec := by
  have hnow : t.nowNs = s.nowNs := by rw [h.rest]; rfl
  have htq : t.tq = s.tq := h.keep _ (by decide)
  unfold State.stage4 State.selectKey State.keyE
  rw [h.gate, h.clk, hnow, htq]

end

/-! The port (R54, R59). -/

/-- Uncorrectable codewords are counted where an FEC is in use. -/
def State.rxUncorr (s : State) (n uncorr : Nat) : State :=
  s.when (s.get (pt F.PORT_CFG_FEC n) != 0) fun t => t.addTo (pt F.PORT_CNT_FEC_UNCORR n) uncorr

theorem rxUncorr_counted (s : State) {n : Nat} (hn : n < 96) (uncorr : Nat) : Counted s (s.rxUncorr n uncorr) := by
  unfold State.rxUncorr
  cases s.get (pt F.PORT_CFG_FEC n) != 0
  · exact .refl s
  · exact .addTo s uncorr hn (by decide)

theorem frameRx_badFcs (s : State) {n : Nat} (hn : n < 96) (bs : List Byte) (uncorr dt : Nat) (h : s.lstate n = 3) :
    frameRx n bs false uncorr dt s = ((s.elapse dt).rxUncorr n uncorr).bump (pt F.PORT_CNT_RX_FCS n) := by
  have hst : (s.elapse dt).lstate n = 3 := h
  simp [frameRx, hst, Nat.not_le.mpr hn, State.rxUncorr]

/-- A frame that passes the tests of R54 on a port outside every pair takes its path. -/
theorem frameRx_passes (s : State) {n : Nat} (hn : n < 96) (bs : List Byte) (uncorr dt : Nat) (h : s.lstate n = 3)
    (hlen : 60 ≤ bs.length) (hmtu : bs.length + 4 ≤ s.get (pt F.PORT_MTU n)) (hpair : s.pairOf n = none)
    (hda : isGroupMac (beAt bs 0 6) = true ∨ beAt bs 0 6 = s.get (pt F.PORT_MAC n)) :
    frameRx n bs true uncorr dt s = ((s.elapse dt).rxUncorr n uncorr).portRx n bs := by
  have hc := rxUncorr_counted (s.elapse dt) hn uncorr
  have hst : (s.elapse dt).lstate n = 3 := h
  have hmtu' : ¬((s.elapse dt).rxUncorr n uncorr).get (pt F.PORT_MTU n) < bs.length + 4 := by
    rw [hc.getPt n (by decide)]; exact Nat.not_lt.mpr hmtu
  have hpair' : ((s.elapse dt).rxUncorr n uncorr).pairOf n = none := (hc.pairOf n).trans hpair
  have hfwd : ((s.elapse dt).rxUncorr n uncorr).hsrForward n bs = (s.elapse dt).rxUncorr n uncorr := by
    simp only [State.hsrForward, hpair']
  have hda' : (!isGroupMac (beAt bs 0 6) && beAt bs 0 6 != ((s.elapse dt).rxUncorr n uncorr).get (pt F.PORT_MAC n)) = false := by
    rw [hc.getPt n (by decide)]
    rcases hda with e | e
    · simp [e]
    · simp [← e]
  have hunc : ((s.elapse dt).when ((3 : Nat) != 0 && (s.elapse dt).get (pt F.PORT_CFG_FEC n) != 0) fun t =>
      t.addTo (pt F.PORT_CNT_FEC_UNCORR n) uncorr) = (s.elapse dt).rxUncorr n uncorr := rfl
  unfold frameRx
  simp only [hst, Nat.not_le.mpr hn, if_false, hunc, hfwd, hmtu', hda', Nat.not_lt.mpr (Nat.add_le_add_right hlen 4),
    show ¬((3 : Nat) = 2 ∨ (3 : Nat) = 4) by decide, ne_eq, not_true_eq_false, Bool.not_true, Bool.false_eq_true]

/-- A frame passed on from port `n` is counted, with its bytes. -/
def State.rxPassed (s : State) (n : Nat) (bs : List Byte) : State :=
  let t := (s.bump (pt F.PORT_CNT_RX_FRAMES n)).addTo (pt F.PORT_CNT_RX_BYTES n) (bs.length + 4)
  t.setPwr fun x => { x with rxBytes := t.pwr.rxBytes + bs.length + 4 }

theorem rxPassed_counted (s : State) {n : Nat} (hn : n < 96) (bs : List Byte) : Counted s (s.rxPassed n bs) := by
  unfold State.rxPassed
  exact ((Counted.addTo (f := F.PORT_CNT_RX_FRAMES) s 1 hn (by decide)).trans
    (.addTo (f := F.PORT_CNT_RX_BYTES) _ _ hn (by decide))).trans (.setPwr _ _)

theorem rxPassed_frames (s : State) (n : Nat) (bs : List Byte) : (s.rxPassed n bs).get (pt F.PORT_CNT_RX_FRAMES n)
    = satAdd (pt F.PORT_CNT_RX_FRAMES n).width (s.get (pt F.PORT_CNT_RX_FRAMES n)) 1 :=
  (State.get_addTo_ne _ (pt_key_ne n n (by decide)) _).trans (State.get_bump_self _ _)

theorem portRx_stray (s : State) (n : Nat) (bs : List Byte) (tag : Option (Nat × Nat)) (hpair : s.pairOf n = none)
    (hpath : s.rxPath n (s.arrival n) bs = (.stray, tag)) :
    s.portRx n bs = (s.rxPassed n bs).strayRx n (s.arrival n) bs := by
  simp only [State.portRx, hpath, hpair]; rfl

theorem portRx_flow (s : State) (n : Nat) (bs : List Byte) (tag : Option (Nat × Nat)) (fr : RxFrame)
    (hpair : s.pairOf n = none) (hpath : s.rxPath n (s.arrival n) bs = (.flow fr, tag)) :
    s.portRx n bs = (s.rxPassed n bs).gateRx fr bs := by
  simp only [State.portRx, hpath, hpair]; rfl

/-- A stray of which no sample is taken is counted, for the device and for its port. -/
theorem strayRx_counts (s : State) {n : Nat} (hn : n < 96) (arr : Nat) (bs : List Byte)
    (h : s.get F.GATE_CFG_STRAY_SAMPLE = 0) :
    s.strayRx n arr bs = (s.bump F.GATE_CNT_STRAY).bump (pt F.PORT_CNT_RX_STRAY n) := by
  have hk : ((s.bump F.GATE_CNT_STRAY).bump (pt F.PORT_CNT_RX_STRAY n)).get F.GATE_CFG_STRAY_SAMPLE = 0 := by
    rw [State.get_bump_ne _ (pt_key_ne_fixed n (by decide)).symm, State.get_bump_ne _ (by decide), h]
  unfold State.strayRx
  simp only [hn, if_true, hk]

/-! The clauses of reception before the gate. -/

theorem badFcs_completes (s : State) (n : Fin 96) (bs : List Byte) (uncorr dt : Nat) (h : s.lstate n = 3) :
    Completes (.frameRx (n.castLE (by decide)) bs false dt uncorr) s fun t =>
      t.get (pt F.PORT_CNT_RX_FCS n) = satAdd (pt F.PORT_CNT_RX_FCS n).width (s.get (pt F.PORT_CNT_RX_FCS n)) 1
      ∧ (s.get (pt F.PORT_CFG_FEC n) ≠ 0 →
          t.get (pt F.PORT_CNT_FEC_UNCORR n) = satAdd (pt F.PORT_CNT_FEC_UNCORR n).width (s.get (pt F.PORT_CNT_FEC_UNCORR n)) uncorr)
      ∧ OnlyFields [pt F.PORT_CNT_RX_FCS n, pt F.PORT_CNT_FEC_UNCORR n] { s with clk := t.clk, dev := t.dev } t := by
  have hother : ((s.elapse dt).rxUncorr n uncorr).get (pt F.PORT_CNT_RX_FCS n) = s.get (pt F.PORT_CNT_RX_FCS n) := by
    unfold State.rxUncorr
    exact State.when_keeps (fun t => t.get (pt F.PORT_CNT_RX_FCS n)) _ _ _
      (fun t => t.get_addTo_ne (pt_key_ne n n (by decide)) uncorr)
  refine .of_fin (congrArg fin (frameRx_badFcs s n.isLt bs uncorr dt h)) ⟨?_, fun hfec => ?_, OnlyFields.elapsed (dt := dt) ?_⟩
  · rw [State.commit_get _ _ (delivers_pt n.isLt (by decide)), State.get_bump_self, hother]
  · have hcnt : (s.elapse dt).rxUncorr n uncorr = (s.elapse dt).addTo (pt F.PORT_CNT_FEC_UNCORR n) uncorr :=
      if_pos (bne_iff_ne.mpr hfec)
    rw [State.commit_get _ _ (delivers_pt n.isLt (by decide)), State.get_bump_ne _ (pt_key_ne n n (by decide)), hcnt,
      State.get_addTo_self]
    rfl
  · refine (OnlyFields.after (.bump _ _ (by simp [Writes])) ?_).commit
    exact .when _ (.put _ _ _ (by simp [Writes]))

theorem stray_completes (s : State) (n : Fin 96) (bs : List Byte) (uncorr dt : Nat) (tag : Option (Nat × Nat)) :
    let u := s.elapse dt
    s.lstate n = 3 → 60 ≤ bs.length → bs.length + 4 ≤ s.get (pt F.PORT_MTU n) → s.pairOf n = none →
    (isGroupMac (beAt bs 0 6) = true ∨ beAt bs 0 6 = s.get (pt F.PORT_MAC n)) →
    u.rxPath n (u.arrival n) bs = (.stray, tag) → s.get F.GATE_CFG_STRAY_SAMPLE = 0 →
    Completes (.frameRx (n.castLE (by decide)) bs true dt uncorr) s fun t =>
      t.get F.GATE_CNT_STRAY = satAdd F.GATE_CNT_STRAY.width (s.get F.GATE_CNT_STRAY) 1
      ∧ t.get (pt F.PORT_CNT_RX_FRAMES n) = satAdd (pt F.PORT_CNT_RX_FRAMES n).width (s.get (pt F.PORT_CNT_RX_FRAMES n)) 1
      ∧ t.gate = s.gate := by
  intro u hup hlen hmtu hpair hda hpath hsample
  have hc : Counted u (u.rxUncorr n uncorr) := rxUncorr_counted u n.isLt uncorr
  have hp := hc.trans (rxPassed_counted (u.rxUncorr n uncorr) n.isLt bs)
  have hpath' : (u.rxUncorr n uncorr).rxPath n ((u.rxUncorr n uncorr).arrival n) bs = (.stray, tag) := by
    rw [hc.rxPath, hc.arrival, hpath]
  have hrx : frameRx n bs true uncorr dt s
      = (((u.rxUncorr n uncorr).rxPassed n bs).bump F.GATE_CNT_STRAY).bump (pt F.PORT_CNT_RX_STRAY n) := by
    rw [frameRx_passes s n.isLt bs uncorr dt hup hlen hmtu hpair hda,
      portRx_stray _ n bs tag ((hc.pairOf n).trans hpair) hpath',
      strayRx_counts _ n.isLt _ bs ((hp.keep _ (by decide)).trans hsample)]
  have hfr : (u.rxUncorr n uncorr).get (pt F.PORT_CNT_RX_FRAMES n) = s.get (pt F.PORT_CNT_RX_FRAMES n) := by
    unfold State.rxUncorr
    exact State.when_keeps (fun t => t.get (pt F.PORT_CNT_RX_FRAMES n)) _ _ _
      (fun t => t.get_addTo_ne (pt_key_ne n n (by decide)) uncorr)
  refine .of_fin (congrArg fin hrx) ⟨?_, ?_, ?_⟩
  · rw [State.commit_get _ _ (by decide), State.get_bump_ne _ (pt_key_ne_fixed n (by decide)).symm, State.get_bump_self,
      hp.keep _ (by decide)]
    rfl
  · rw [State.commit_get _ _ (delivers_pt n.isLt (by decide)), State.get_bump_ne _ (pt_key_ne n n (by decide)),
      State.get_bump_ne _ (pt_key_ne_fixed n (by decide)), rxPassed_frames, hfr]
  · rw [State.commit_gate]
    exact hp.gate

/-! Admission (stages 1 to 5). -/

/-- Taking jobs into service changes the jobs and whose turn it is. -/
theorem startJobs_gate (k : Nat) (s : State) :
    ∃ jobs rr, State.startJobs k s = s.setGate fun g => { g with jobs := jobs, jobRr := rr } := by
  induction k generalizing s with
  | zero => exact ⟨s.gate.jobs, s.gate.jobRr, rfl⟩
  | succ k ih =>
    unfold State.startJobs
    simp only
    split
    · exact ⟨s.gate.jobs, s.gate.jobRr, rfl⟩
    · split
      · exact ⟨s.gate.jobs, s.gate.jobRr, rfl⟩
      · obtain ⟨jobs, rr, h⟩ := ih (s.setGate fun g => { g with
          jobs := g.jobs.modify _ fun j => { j with started := true }, jobRr := _ })
        exact ⟨jobs, rr, h⟩

/-- The engine that the algorithm of a frame needs. -/
def State.engineOf (s : State) (sec : Sec) : Engine := if algGmac sec.alg then s.gate.gmac else s.gate.hmac

/-- Jobs leave the engines and the frames alone. -/
theorem serveJobs_runEngines (s : State) : ∃ jobs rr,
    s.serveJobs.runEngines = s.runEngines.setGate fun g => { g with jobs := jobs, jobRr := rr } := by
  obtain ⟨jobs, rr, h⟩ := startJobs_gate s.gate.jobs.length s
  exact ⟨jobs, rr, by rw [State.serveJobs, h]; rfl⟩

/-- A frame that passes stages 1 to 4 on an engine with room joins the frames under way. -/
theorem gateRx_admits (s : State) (fr : RxFrame) (bs : List Byte) (fl k : Nat) (sec : Sec) (hon : s.bit F.GATE_CTRL = true)
    (hcl : s.classify fr = some fl) (hsec : parseSec fr = some sec) (hlen : lenOk fr sec = true)
    (hkey : s.stage4 (s.viewFlow fl) sec = .inr k)
    (hroom : (s.runEngines.engineOf sec).admits (fePrio (s.viewFlow fl).e) = true) :
    (s.gateRx fr bs).gate.inflight
        = s.gate.inflight ++ [⟨s.gate.seq, fr, fl, (s.viewFlow fl).e, sec, k, (s.keyE k).material⟩]
      ∧ (s.gateRx fr bs).gate.flows = s.gate.flows ∧ (s.gateRx fr bs).gate.keys = s.gate.keys := by
  obtain ⟨jobs, rr, hjobs⟩ := serveJobs_runEngines s
  unfold State.gateRx
  simp only [hon, hcl, hsec, hlen, hkey, hjobs, Bool.not_true, Bool.false_eq_true, if_false]
  have hroom' : (if algGmac sec.alg = true
      then (s.runEngines.setGate fun g => { g with jobs := jobs, jobRr := rr }).gate.gmac
      else (s.runEngines.setGate fun g => { g with jobs := jobs, jobRr := rr }).gate.hmac).admits
        (fePrio (s.viewFlow fl).e) = true := hroom
  simp only [hroom', Bool.not_true, Bool.false_eq_true, if_false]
  cases algGmac sec.alg <;> exact ⟨rfl, rfl, rfl⟩

theorem admission_completes (s : State) (n : Fin 96) (bs : List Byte) (uncorr dt : Nat) (tag : Option (Nat × Nat)) (fr : RxFrame)
    (k fl : Nat) (sec : Sec) :
    let u := s.elapse dt
    s.lstate n = 3 → 60 ≤ bs.length → bs.length + 4 ≤ s.get (pt F.PORT_MTU n) → s.pairOf n = none →
    (isGroupMac (beAt bs 0 6) = true ∨ beAt bs 0 6 = s.get (pt F.PORT_MAC n)) →
    u.rxPath n (u.arrival n) bs = (.flow fr, tag) → fr.port = n → s.bit F.GATE_CTRL = true → s.classify fr = some fl →
    parseSec fr = some sec → lenOk fr sec = true → u.stage4 (s.viewFlow fl) sec = .inr k →
    (if algGmac sec.alg then u.runEngines.gate.gmac else u.runEngines.gate.hmac).admits (fePrio (s.viewFlow fl).e) = true →
    Completes (.frameRx (n.castLE (by decide)) bs true dt uncorr) s fun t =>
      t.gate.inflight = s.gate.inflight ++ [⟨s.gate.seq, fr, fl, (s.viewFlow fl).e, sec, k, (s.keyE k).material⟩]
      ∧ t.gate.flows = s.gate.flows ∧ t.gate.keys = s.gate.keys := by
  intro u hup hlen hmtu hpair hda hpath _ hon hcl hsec hlen' hkey hroom
  have hc : Counted u (u.rxUncorr n uncorr) := rxUncorr_counted u n.isLt uncorr
  have hpath' : (u.rxUncorr n uncorr).rxPath n ((u.rxUncorr n uncorr).arrival n) bs = (.flow fr, tag) := by
    rw [hc.rxPath, hc.arrival, hpath]
  have hrx : frameRx n bs true uncorr dt s = ((u.rxUncorr n uncorr).rxPassed n bs).gateRx fr bs := by
    rw [frameRx_passes s n.isLt bs uncorr dt hup hlen hmtu hpair hda,
      portRx_flow _ n bs tag fr ((hc.pairOf n).trans hpair) hpath']
  generalize hv : (u.rxUncorr n uncorr).rxPassed n bs = v at hrx
  have hp : Counted u v := hv ▸ hc.trans (rxPassed_counted _ n.isLt bs)
  have hview : v.viewFlow fl = s.viewFlow fl := hp.viewFlow fl
  have heng : v.runEngines.engineOf sec = u.runEngines.engineOf sec := by
    simp only [State.engineOf, State.runEngines, State.setGate_gate, hp.gate, hp.clk]
  have hadm := gateRx_admits v fr bs fl k sec (by rw [State.bit, hp.keep _ (by decide)]; exact hon)
    ((hp.classify fr).trans hcl) hsec hlen' (by rw [hview, hp.stage4]; exact hkey) (by rw [hview, heng]; exact hroom)
  rw [hview, State.keyE, hp.gate] at hadm
  refine .of_fin (congrArg fin hrx) ?_
  rw [State.commit_gate]
  exact hadm

end Sys2Proof.Machine
end

section
/-! Stages 6 to 11: a tag that does not match, and a frame of a new position (R74, R76, R97). -/

namespace Sys2Proof.Machine

/-! What acceptance leaves alone beside the frame's own flow and the yard's queue. -/

/-- The registers that an accepted frame's hand-over reads after the frame was counted, and GATE_CNT_ACCEPT. -/
def acceptRegs : List Fld :=
  [F.GATE_CNT_ACCEPT, F.BEAT_NUM, F.BEAT_TQ_TQ, F.MYARD_CTRL, F.PWR_DOMd_STAT_STATE.idx 13]

/-- The frames under way, the waiting changes, every replay state, the yard's queue and `acceptRegs` stay. -/
structure Aside (s t : State) : Prop where
  under : t.gate.inflight = s.gate.inflight
  waits : t.gate.changes = s.gate.changes
  rep : ∀ n, (t.flow n).rep = (s.flow n).rep
  queue : t.yard.queue = s.yard.queue
  regs : ∀ f ∈ acceptRegs, t.get f = s.get f

theorem Aside.refl (s : State) : Aside s s := ⟨rfl, rfl, fun _ => rfl, rfl, fun _ _ => rfl⟩

theorem Aside.trans {s t u : State} (h : Aside s t) (k : Aside t u) : Aside s u :=
  ⟨k.under.trans h.under, k.waits.trans h.waits, fun n => (k.rep n).trans (h.rep n), k.queue.trans h.queue,
   fun f hf => (k.regs f hf).trans (h.regs f hf)⟩

/-- Where neither the gate nor the yard's queue changes, the registers alone count. -/
theorem Aside.of_gate {s t : State} (hg : t.gate = s.gate) (hq : t.yard.queue = s.yard.queue)
    (hf : ∀ f ∈ acceptRegs, t.get f = s.get f) : Aside s t :=
  ⟨by rw [hg], by rw [hg], fun n => by rw [State.flow, hg, State.flow], hq, hf⟩

theorem Aside.of_delivered {s t : State} (h : Delivered s t) : Aside s t := by
  refine .of_gate (by rw [h.rest]) (by rw [h.rest]) fun f hf => h.keep f ?_
  have : ∀ f ∈ acceptRegs, delivers f.key = false := by decide
  exact this f hf

theorem Aside.put (s : State) (f : Fld) (v : Nat) (h : ∀ g ∈ acceptRegs, g.key ≠ f.key) : Aside s (s.put f v) :=
  .of_gate rfl rfl fun g hg => s.get_put_ne (h g hg) v

theorem Aside.raise (s : State) (c src a b d e : Nat) : Aside s (s.raise c src a b d e) := .of_delivered (.raiseEv s _)

theorem Aside.each {α : Type} (l : List α) (g : α → State → State) (h : ∀ x t, Aside t (g x t)) (s : State) :
    Aside s (s.each l g) := by
  induction l generalizing s with
  | nil => exact .refl s
  | cons x l ih => exact (h x s).trans (ih _)

theorem State.setFlow_flow (s : State) (n : Nat) (g : FlowEnt → FlowEnt) : (s.setFlow n g).flow n = g (s.flow n) :=
  Table.at_modify_self _ _ _ _

theorem State.setFlow_flow_ne (s : State) {n m : Nat} (h : m ≠ n) (g : FlowEnt → FlowEnt) :
    (s.setFlow n g).flow m = s.flow m := Table.at_modify_ne _ h _ _

/-- A change of a flow's entry that keeps its replay state. -/
theorem Aside.setFlow (s : State) (n : Nat) (g : FlowEnt → FlowEnt) (h : ∀ x, (g x).rep = x.rep) :
    Aside s (s.setFlow n g) := by
  refine ⟨rfl, rfl, fun m => ?_, rfl, fun _ _ => rfl⟩
  by_cases hm : m = n
  · rw [hm, State.setFlow_flow, h]
  · rw [State.setFlow_flow_ne s hm]

theorem flowCount_get (s : State) (n i : Nat) (f : Fld) : (s.flowCount n i).get f = s.get f := rfl

theorem flowCount_aside (s : State) (n i : Nat) : Aside s (s.flowCount n i) := .setFlow s n _ fun _ => rfl

theorem promote_aside (s : State) (n k : Nat) : Aside s (s.promote n k) := by
  unfold State.promote
  simp only
  split
  · refine .trans (.setFlow s n _ fun x => ?_) (.raise _ _ _ _ _ _ _)
    rfl
  · exact .refl s

theorem keyUse_aside (s : State) (k : Nat) : Aside s (s.keyUse k) := by
  have hset : ∀ g, Aside s (s.setKey k g) := fun g => ⟨rfl, rfl, fun _ => rfl, rfl, fun _ _ => rfl⟩
  unfold State.keyUse
  simp only
  split
  · exact .refl s
  · split
    · exact (hset _).trans (.raise _ _ _ _ _ _ _)
    · exact hset _

theorem enterSeq_aside (s : State) (m mac seq lan : Nat) : Aside s (s.enterSeq m mac seq lan) :=
  .of_gate rfl rfl fun _ _ => rfl

theorem loftEnter_aside (s : State) (beat : Nat) (e : List Byte) : Aside s (s.loftEnter beat e) := by
  have hloft : ∀ g, Aside s (s.setLoft g) := fun g => .of_gate rfl rfl fun _ _ => rfl
  unfold State.loftEnter
  split
  · cases s.loft.untrained
    · exact .refl s
    · exact .put s _ _ (by decide)
  · simp only
    generalize (if s.loft.gap.isSome = true then 48 else 0) = extra
    split
    · exact hloft _
    · refine .trans (.trans (.trans (hloft _) (.put _ F.LOFT_STATUS_GAP 1 (by decide)))
        (.put _ F.LOFT_CNT_GAP_FRAMES _ (by decide))) (.of_delivered (limited_delivered _ _ _ _ _ fun _ t => ?_))
      exact .raiseEv t _

theorem ySet_aside (s : State) (a n v : Nat) : Aside s (s.ySet a n v) :=
  .of_gate rfl rfl fun _ _ => rfl

theorem setStat_aside (s : State) (g k m : Nat) (f : Nat → Nat) : Aside s (s.setStat g k m f) := by
  unfold State.setStat
  simp only
  split
  · exact ySet_aside s _ _ _
  · exact .refl s

theorem setGroup_aside (s : State) (n : Nat) (g : GroupEnt → GroupEnt) : Aside s (s.setGroup n g) :=
  .of_gate rfl rfl fun _ _ => rfl

theorem addRec_aside (s : State) (r : Nat × Nat × Nat × Nat × Nat) :
    Aside s (s.setYard fun x => { x with recs := x.recs ++ [r] }) := .of_gate rfl rfl fun _ _ => rfl

theorem giveIndex_aside (s : State) (g flow i : Nat) : Aside s (s.giveIndex g flow i) := by
  unfold State.giveIndex State.syncMembers
  refine ((setGroup_aside _ _ _).trans (setGroup_aside _ _ _)).trans (.trans (.each _ _ (fun k t => ?_) _)
    (.trans (addRec_aside _ _) (.raise _ _ _ _ _ _ _)))
  exact (ySet_aside t _ _ _).trans (setStat_aside _ g k i _)

theorem acceptMember_aside (s : State) (flow : Nat) (e : List Byte) : Aside s (s.acceptMember flow e).1 := by
  unfold State.acceptMember State.memberFor
  simp only
  split
  · exact .refl s
  · split
    · exact .refl s
    · split
      · exact .refl s
      · split
        · exact giveIndex_aside s _ flow _
        · dsimp only
          exact .of_delivered (limited_delivered s _ _ _ _ fun _ t => .raiseEv t _)

/-! Hand-over (stage 11) and commit (R97). -/

theorem Aside.beat {s t : State} (h : Aside s t) : t.beat = s.beat := h.regs _ (by decide)
theorem Aside.tq {s t : State} (h : Aside s t) : t.tq = s.tq := h.regs _ (by decide)
theorem Aside.yardOn {s t : State} (h : Aside s t) : t.yardOn = s.yardOn := by
  have hc : t.get F.MYARD_CTRL = s.get F.MYARD_CTRL := h.regs _ (by decide)
  have hd : t.domState 14 = s.domState 14 := h.regs (F.PWR_DOMd_STAT_STATE.idx 13) (by decide)
  simp only [State.yardOn, State.bit, hc, hd]

/-- What waits in the yard for a frame that flow `n`'s entry `e` accepted. -/
def State.handed (s : State) (n : Nat) (e : List Byte) (fr : RxFrame) (unchecked : Bool) (m : Option Nat) : Handover :=
  ⟨fr, n, e, s.beat, s.tq, unchecked, s.yardOn, m, []⟩

/-- The frame has joined the yard's queue, and nothing else that `Aside` names has changed. -/
structure Queued (s t : State) (h : Handover) : Prop where
  under : t.gate.inflight = s.gate.inflight
  waits : t.gate.changes = s.gate.changes
  rep : ∀ n, (t.flow n).rep = (s.flow n).rep
  regs : ∀ f ∈ acceptRegs, t.get f = s.get f
  queue : t.yard.queue = s.yard.queue ++ [h]

/-- An accepted frame that is no yard frame: in quarantine it is only counted, otherwise it joins the yard's queue. -/
theorem handOver_cases (s : State) (n : Nat) (e : List Byte) (fr : RxFrame) (pos : Nat) (unchecked : Bool) (hk : fr.kind ≠ 4) :
    (feQuar e = true ∧ Aside s (s.handOver n e fr pos unchecked false))
      ∨ ∃ m, Queued s (s.handOver n e fr pos unchecked false) (s.handed n e fr unchecked m) := by
  unfold State.handOver
  simp only [Bool.false_eq_true, if_false, hk, false_and, Bool.false_or]
  generalize hl : s.loftEnter _ _ = v
  have hv : Aside s v := hl ▸ loftEnter_aside s _ _
  cases hq : feQuar e with
  | true => exact .inl ⟨rfl, by simpa using hv.trans (flowCount_aside v n 7)⟩
  | false =>
    refine .inr ⟨(v.acceptMember n e).2, ?_⟩
    have hm : Aside s (v.acceptMember n e).1 := hv.trans (acceptMember_aside v n e)
    refine ⟨hm.under, hm.waits, hm.rep, hm.regs, ?_⟩
    simp only [Bool.false_eq_true, if_false, State.setYard_yard, hm.queue, hm.beat, hm.tq, hv.yardOn, State.handed]

/-- What the acceptance of a frame of flow `n` with entry `e`, whose replay state becomes `r`, does. -/
structure Accepted (s t : State) (n : Nat) (e : List Byte) (fr : RxFrame) (unchecked : Bool) (r : Replay) : Prop where
  under : t.gate.inflight = s.gate.inflight
  waits : t.gate.changes = s.gate.changes
  rep : (t.flow n).rep = r
  count : t.get F.GATE_CNT_ACCEPT = satAdd F.GATE_CNT_ACCEPT.width (s.get F.GATE_CNT_ACCEPT) 1
  queue : feQuar e = false → ∃ m, t.yard.queue = s.yard.queue ++ [s.handed n e fr unchecked m]

/-- Stages 9 to 11 between the commit of the position and the count. -/
def State.afterCommit (s : State) (n : Nat) (f : Inflight) : State :=
  let s := (s.promote n f.key).keyUse f.key
  match s.pairOf f.fr.port, f.fr.tag with
  | some (m, _), some (q, lan) => s.enterSeq m f.fr.mac q lan
  | _, _ => s

theorem afterCommit_aside (s : State) (n : Nat) (f : Inflight) : Aside s (s.afterCommit n f) := by
  have hk : Aside s ((s.promote n f.key).keyUse f.key) := (promote_aside s n _).trans (keyUse_aside _ _)
  unfold State.afterCommit
  simp only
  split
  · exact hk.trans (enterSeq_aside _ _ _ _ _)
  · exact hk

/-- The position of a new frame is committed on its flow. -/
def State.committed (s : State) (n : Nat) (f : Inflight) (p cnt : Nat) : State :=
  s.setFlow n fun x => { x with rep := replayCommit x.rep p cnt f.sec.ts false, lastAt := s.clk }

theorem commitFrame_new (s : State) (n : Nat) (f : Inflight) (p cnt : Nat) (unchecked : Bool) :
    s.commitFrame n f p cnt false unchecked =
      ((((s.committed n f p cnt).afterCommit n f).bump F.GATE_CNT_ACCEPT).flowCount n 0).handOver n f.entry f.fr p unchecked
        false := by
  unfold State.commitFrame
  rfl

/-- The frame is committed on flow `n` with replay state `r`, and counted; what its hand-over reads is as it was. -/
structure Tallied (s w : State) (n : Nat) (r : Replay) : Prop where
  under : w.gate.inflight = s.gate.inflight
  waits : w.gate.changes = s.gate.changes
  rep : (w.flow n).rep = r
  count : w.get F.GATE_CNT_ACCEPT = satAdd F.GATE_CNT_ACCEPT.width (s.get F.GATE_CNT_ACCEPT) 1
  regs : ∀ g ∈ acceptRegs, g.key ≠ F.GATE_CNT_ACCEPT.key → w.get g = s.get g
  queue : w.yard.queue = s.yard.queue

theorem committed_tallied (s : State) (n : Nat) (f : Inflight) (p cnt : Nat) :
    Tallied s ((((s.committed n f p cnt).afterCommit n f).bump F.GATE_CNT_ACCEPT).flowCount n 0) n
      (replayCommit (s.flow n).rep p cnt f.sec.ts false) := by
  have ha := afterCommit_aside (s.committed n f p cnt) n f
  have hrep : ((s.committed n f p cnt).flow n).rep = replayCommit (s.flow n).rep p cnt f.sec.ts false := by
    rw [State.committed, State.setFlow_flow]
  generalize (s.committed n f p cnt).afterCommit n f = v at ha
  have hc := flowCount_aside (v.bump F.GATE_CNT_ACCEPT) n 0
  refine ⟨hc.under.trans ha.under, hc.waits.trans ha.waits, (hc.rep n).trans ((ha.rep n).trans hrep), ?_, fun g hg hne => ?_,
    hc.queue.trans ha.queue⟩
  · rw [flowCount_get, State.get_bump_self, ha.regs _ (by decide)]
    rfl
  · rw [flowCount_get, State.get_bump_ne _ hne, ha.regs g hg]
    rfl

theorem Tallied.handed {s w : State} {n : Nat} {r : Replay} (h : Tallied s w n r) (k : Nat) (e : List Byte) (fr : RxFrame)
    (unchecked : Bool) (m : Option Nat) : w.handed k e fr unchecked m = s.handed k e fr unchecked m := by
  have hb : w.beat = s.beat := h.regs F.BEAT_NUM (by decide) (by decide)
  have ht : w.tq = s.tq := h.regs F.BEAT_TQ_TQ (by decide) (by decide)
  have hc : w.get F.MYARD_CTRL = s.get F.MYARD_CTRL := h.regs _ (by decide) (by decide)
  have hd : w.domState 14 = s.domState 14 := h.regs (F.PWR_DOMd_STAT_STATE.idx 13) (by decide) (by decide)
  simp only [State.handed, hb, ht, State.yardOn, State.bit, hc, hd]

theorem commitFrame_accepts (s : State) (n : Nat) (f : Inflight) (p cnt : Nat) (unchecked : Bool) (hk : f.fr.kind ≠ 4) :
    Accepted s (s.commitFrame n f p cnt false unchecked) n f.entry f.fr unchecked
      (replayCommit (s.flow n).rep p cnt f.sec.ts false) := by
  rw [commitFrame_new]
  have ht := committed_tallied s n f p cnt
  generalize (((s.committed n f p cnt).afterCommit n f).bump F.GATE_CNT_ACCEPT).flowCount n 0 = w at ht
  rcases handOver_cases w n f.entry f.fr p unchecked hk with ⟨hq, h⟩ | ⟨m, h⟩
  · exact ⟨h.under.trans ht.under, h.waits.trans ht.waits, (h.rep n).trans ht.rep, (h.regs _ (by decide)).trans ht.count,
      fun e => by rw [hq] at e; cases e⟩
  · exact ⟨h.under.trans ht.under, h.waits.trans ht.waits, (h.rep n).trans ht.rep, (h.regs _ (by decide)).trans ht.count,
      fun _ => ⟨m, by rw [h.queue, ht.queue, ht.handed]⟩⟩

/-! The verification of a frame whose turn it is (R76). -/

/-- The `i`-th frame `f` has left the engine; the meters count its bits. -/
def State.taken (s : State) (i : Nat) (f : Inflight) : State :=
  let t := s.setGate fun x => { x with inflight := x.inflight.eraseIdx i }
  t.setPwr fun x => { x with gmacBits := t.pwr.gmacBits + if algGmac f.sec.alg then 8 * f.sec.span.length else 0 }

theorem verifyComplete_inTurn (s : State) (i dt : Nat) (f : Inflight) (hi : s.gate.inflight[i]? = some f)
    (ht : s.inTurn i f = f) : verifyComplete i dt s = (((s.elapse dt).taken i f).verify f).settle := by
  have hi' : (s.elapse dt).gate.inflight[i]? = some f := hi
  have ht' : (s.elapse dt).inTurn i f = f := ht
  unfold verifyComplete
  simp only [hi', ht', if_true]
  rfl

theorem settle_none (s : State) (h : s.gate.changes = []) : s.settle = s := by
  rw [State.settle, h]; rfl

/-- A reject for the tag: counted, with its event within the limit. -/
theorem reject_tag (s : State) (n : Nat) : Delivered ((s.bump F.GATE_CNT_TAG).flowCount n 1) (s.reject n 0x7) := by
  have h : s.reject n 0x7 = ((s.bump F.GATE_CNT_TAG).flowCount n 1).limited 0x4009 (n * 16 + 0x7) 1
      fun k t => t.raise 0x4009 105 n 0x7 k 0 := rfl
  rw [h]
  exact limited_delivered _ _ _ _ _ fun _ t => .raiseEv t _

/-- The key of `f` is in time, or device time is not valid (R91, R92). -/
def State.keyTimely (s : State) (f : Inflight) : Prop :=
  timeValid s.tq = true → keyInTime (s.keyE f.key) (s.nowNs / 1000000000) = true

/-- The timestamp of `f` lies within the flow's tolerance, or device time is not valid (stage 7). -/
def State.stampTimely (s : State) (f : Inflight) : Prop :=
  timeValid s.tq = true → s.nowNs ≤ f.sec.ts + feTsTol f.entry * 1000000 ∧ f.sec.ts ≤ s.nowNs + feTsTol f.entry * 1000000

theorem State.keyTimely.test {s : State} {f : Inflight} (h : s.keyTimely f) :
    (timeValid s.tq && !keyInTime (s.keyE f.key) (s.nowNs / 1000000000)) = false := by
  cases hv : timeValid s.tq
  · rfl
  · simp [h hv]

theorem State.stampTimely.test {s : State} {f : Inflight} (h : s.stampTimely f) :
    (timeValid s.tq && (decide (f.sec.ts + feTsTol f.entry * 1000000 < s.nowNs)
      || decide (s.nowNs + feTsTol f.entry * 1000000 < f.sec.ts))) = false := by
  cases hv : timeValid s.tq
  · rfl
  · obtain ⟨h1, h2⟩ := h hv
    simp [Nat.not_lt.mpr h1, Nat.not_lt.mpr h2]

/-- Stage 6: the tag does not match. -/
theorem verify_badTag (s : State) (f : Inflight) (hst : (s.keyE f.key).st ≠ 2) (hkey : s.keyTimely f)
    (htag : Config.checkValue f.sec.alg f.material f.sec.iv f.sec.span ≠ f.sec.tag) : s.verify f = s.reject f.flow 0x7 := by
  simp only [State.verify, hst, hkey.test, htag, ne_eq, not_false_eq_true, Bool.false_eq_true, if_false, if_true]

/-- A frame of a flow whose key, tag and timestamp hold goes on to its position. -/
theorem verify_passes (s : State) (f : Inflight) (hst : (s.keyE f.key).st ≠ 2) (hkey : s.keyTimely f) (hts : s.stampTimely f)
    (htag : Config.checkValue f.sec.alg f.material f.sec.iv f.sec.span = f.sec.tag) (htpl : feTemplate f.entry = false) :
    s.verify f = s.stage8 f.flow f (timeValid s.tq) := by
  simp only [State.verify, hst, hkey.test, hts.test, htag, htpl, ne_eq, not_true_eq_false, Bool.false_eq_true, if_false]

theorem badTag_completes (s : State) (i dt : Nat) (f : Inflight) :
    let u := s.elapse dt
    s.gate.inflight[i]? = some f → s.inTurn i f = f → s.gate.changes = [] → (s.keyE f.key).st ≠ 2 →
    (timeValid s.tq = true → keyInTime (s.keyE f.key) (u.nowNs / 1000000000) = true) →
    Config.checkValue f.sec.alg f.material f.sec.iv f.sec.span ≠ f.sec.tag →
    Completes (.verifyComplete i dt) s fun t => t.gate.inflight = s.gate.inflight.eraseIdx i
      ∧ t.get F.GATE_CNT_TAG = satAdd F.GATE_CNT_TAG.width (s.get F.GATE_CNT_TAG) 1
      ∧ (t.flow f.flow).rep = (s.flow f.flow).rep := by
  intro u hi ht hch hst hkey htag
  have hver := verify_badTag (u.taken i f) f hst hkey htag
  generalize hv : u.taken i f = v at hver
  have hrej := reject_tag v f.flow
  have hgate : (v.reject f.flow 0x7).gate = ((v.bump F.GATE_CNT_TAG).flowCount f.flow 1).gate := by rw [hrej.rest]
  have hset : (v.reject f.flow 0x7).settle = v.reject f.flow 0x7 :=
    settle_none _ ((congrArg GateSt.changes hgate).trans (hv ▸ hch))
  have hvc : verifyComplete i dt s = v.reject f.flow 0x7 := by
    rw [verifyComplete_inTurn s i dt f hi ht, ← hset, ← hver, ← hv]
  refine .of_fin (congrArg fin hvc) ⟨?_, ?_, ?_⟩
  · rw [State.commit_gate, hgate, ← hv]; rfl
  · rw [State.commit_get _ _ (by decide), hrej.keep _ (by decide), flowCount_get, State.get_bump_self, ← hv]
    rfl
  · rw [State.flow, State.commit_gate, hgate, ← State.flow, (flowCount_aside _ _ _).rep, ← hv]
    rfl

/-- Stages 7 to 11 for a new position: a frame passed unchecked is counted first. -/
theorem stage8_new (s : State) (n : Nat) (f : Inflight) (valid : Bool) (p cnt : Nat)
    (hp : framePos f.fr f.entry (s.flow n).rep = (p, cnt)) (hnew : replayCheck (s.flow n).rep p cnt f.sec.ts valid = .new)
    (hk : f.fr.kind ≠ 4) :
    Accepted s (s.stage8 n f valid) n f.entry f.fr (!valid) (replayCommit (s.flow n).rep p cnt f.sec.ts false) := by
  have h7 : Aside s (s.stage7 n valid) := by
    cases valid
    · exact flowCount_aside s n 8
    · exact .refl s
  have h8 : s.stage8 n f valid = (s.stage7 n valid).commitFrame n f p cnt false (!valid) := by
    unfold State.stage8
    simp only [h7.rep n, hp, hnew]
  obtain ⟨hu, hw, hr, hc, hq⟩ := commitFrame_accepts (s.stage7 n valid) n f p cnt (!valid) hk
  rw [h8]
  refine ⟨hu.trans h7.under, hw.trans h7.waits, by rw [hr, h7.rep n], by rw [hc, h7.regs _ (by decide)], fun e => ?_⟩
  obtain ⟨m, hm⟩ := hq e
  exact ⟨m, by rw [hm, h7.queue, State.handed, h7.beat, h7.tq, h7.yardOn, State.handed]⟩

theorem newFrame_completes (s : State) (i dt p cnt : Nat) (f : Inflight) :
    let u := s.elapse dt
    let tol := feTsTol f.entry * 1000000
    s.gate.inflight[i]? = some f → s.inTurn i f = f → s.gate.changes = [] → (s.keyE f.key).st ≠ 2 →
    (timeValid s.tq = true → keyInTime (s.keyE f.key) (u.nowNs / 1000000000) = true ∧ u.nowNs ≤ f.sec.ts + tol ∧
      f.sec.ts ≤ u.nowNs + tol) →
    Config.checkValue f.sec.alg f.material f.sec.iv f.sec.span = f.sec.tag → feTemplate f.entry = false → f.fr.kind ≠ 4 →
    framePos f.fr f.entry (s.flow f.flow).rep = (p, cnt) →
    replayCheck (s.flow f.flow).rep p cnt f.sec.ts (timeValid s.tq) = .new →
    Completes (.verifyComplete i dt) s fun t => t.gate.inflight = s.gate.inflight.eraseIdx i
      ∧ (t.flow f.flow).rep = replayCommit (s.flow f.flow).rep p cnt f.sec.ts false
      ∧ t.get F.GATE_CNT_ACCEPT = satAdd F.GATE_CNT_ACCEPT.width (s.get F.GATE_CNT_ACCEPT) 1
      ∧ (feQuar f.entry = false →
          ∃ m, t.yard.queue = s.yard.queue ++ [⟨f.fr, f.flow, f.entry, s.beat, s.tq, !timeValid s.tq, s.yardOn, m, []⟩]) := by
  intro u tol hi ht hch hst htime htag htpl hk hpos hnew
  have hver : (u.taken i f).verify f = (u.taken i f).stage8 f.flow f (timeValid s.tq) :=
    verify_passes (u.taken i f) f hst (fun hv => (htime hv).1) (fun hv => (htime hv).2) htag htpl
  generalize hv : u.taken i f = v at hver
  obtain ⟨hunder, hwaits, hrep, hcount, hqueue⟩ := stage8_new v f.flow f (timeValid s.tq) p cnt (hv ▸ hpos) (hv ▸ hnew) hk
  have hvc : verifyComplete i dt s = v.stage8 f.flow f (timeValid s.tq) := by
    rw [verifyComplete_inTurn s i dt f hi ht, hv, hver, settle_none _ (hwaits.trans (hv ▸ hch))]
  refine .of_fin (congrArg fin hvc) ⟨?_, ?_, ?_, fun hq => ?_⟩
  · rw [State.commit_gate, hunder, ← hv]; rfl
  · rw [State.flow, State.commit_gate, ← State.flow, hrep, ← hv]; rfl
  · rw [State.commit_get _ _ (by decide), hcount, ← hv]; rfl
  · obtain ⟨m, hm⟩ := hqueue hq
    exact ⟨m, by rw [State.commit_yard, hm, ← hv]; rfl⟩

/-- Settles O18: reception up to admission clause by clause, then the frame whose turn it is at stage 6. -/
theorem frameReception : Obligations.FrameReception :=
  ⟨badFcs_completes, stray_completes, admission_completes, badTag_completes, newFrame_completes⟩

end Sys2Proof.Machine
end

section
/-! SUPPORT. Numbers placed in byte lists: what `leAt` finds where `setLe` wrote. -/

namespace Sys2Proof.Machine

theorem length_leBytes (n v : Nat) : (leBytes n v).length = n := by
  induction n generalizing v with
  | zero => rfl
  | succ n ih => rw [leBytes, List.length_cons, ih]

theorem leNat_leBytes (n v : Nat) : leNat (leBytes n v) = v % 256 ^ n := by
  induction n generalizing v with
  | zero => rw [Nat.pow_zero, Nat.mod_one]; rfl
  | succ n ih => 
    rw [leBytes, leNat, ih, BitVec.toNat_ofNat]
    exact ((congrArg (v % ·) Nat.pow_succ').trans Nat.mod_mul).symm

theorem leBytes_zero (n : Nat) : leBytes n 0 = List.replicate n 0 := by
  induction n with
  | zero => rfl
  | succ n ih => rw [leBytes, Nat.zero_div, ih, List.replicate_succ]; rfl

theorem leNat_zeros (n : Nat) : leNat (List.replicate n 0) = 0 := by
  rw [← leBytes_zero, leNat_leBytes, Nat.zero_mod]

/-- A read inside a number that was written sees that number's bytes. -/
theorem leAt_setLe_inside (bs : List Byte) {o n a k : Nat} (v : Nat) (h : o ≤ a) (hk : a + k ≤ o + n) :
    leAt (setLe bs o n v) a k = leAt (leBytes n v) (a - o) k := by
  unfold leAt setLe
  generalize hp : bs ++ List.replicate (o + n - bs.length) 0 = padded
  have hlen : (padded.take o).length = o := by
    rw [← hp, List.length_take, List.length_append, List.length_replicate]; omega
  rw [List.append_assoc, List.drop_append, List.drop_of_length_le (by omega), List.nil_append, hlen,
    List.drop_append_of_le_length (by rw [length_leBytes]; omega), List.take_append_of_le_length]
  rw [List.length_drop, length_leBytes]; omega

theorem leAt_setLe_self (bs : List Byte) (o n v : Nat) : leAt (setLe bs o n v) o n = v % 256 ^ n := by
  rw [leAt_setLe_inside bs v (Nat.le_refl o) (Nat.le_refl _), Nat.sub_self, leAt, List.drop_zero,
    List.take_of_length_le (Nat.le_of_eq (length_leBytes n v)), leNat_leBytes]

/-- A number inside a range that was zeroed reads zero. -/
theorem leAt_setLe_zero (bs : List Byte) {o n a k : Nat} (h : o ≤ a) (hk : a + k ≤ o + n) :
    leAt (setLe bs o n 0) a k = 0 := by
  rw [leAt_setLe_inside bs 0 h hk, leAt, leBytes_zero, List.drop_replicate, List.take_replicate, leNat_zeros]

theorem bitOf_clearBit_zero (x : Nat) : bitOf (clearBit x 0) 0 = false := by
  unfold bitOf clearBit
  split
  case isTrue h => rw [Nat.testBit_zero, decide_eq_true_eq] at h; rw [Nat.testBit_zero, decide_eq_false_iff_not]; omega
  case isFalse h => exact Bool.eq_false_iff.mpr h

end Sys2Proof.Machine
end

section
/-! The tables of the SEAL block: the write of SEAL_CTRL, the publication access register and the template access register
(R253, R254, R262, R276, R277). -/

namespace Sys2Proof.Machine

/-- A register write that reaches its register completes with its effect. -/
theorem Completes.of_regWrite {i : Instr} {s : State} {m : Master} {a : Nat} {g : State → State} {P : State → Prop}
    (hx : exec i s = fin (s.regWrite m a g)) (h : Reaches s m a) (hP : P (g s).commit) : Completes i s P :=
  .of_fin (hx.trans (congrArg fin (s.regWrite_of m a g h.1 h.2))) hP

/-! SEAL_CTRL.EN (R276). -/

/-- EN = 1 that passes its tests, up to the draw of the IV field. -/
def State.sealStarted (s : State) : State :=
  ((((s.when (!s.bit F.SEAL_CTRL) fun t => t.freshLimits (rateBlock 9)).flag F.SEAL_CTRL).flag F.SEAL_STATUS_RUNNING).put
    F.SEAL_STATUS_CFG_ERR 0).setSeal fun x => { x with
      pubs := x.pubs.map fun p => (p.1, if puValid p.2 then setLe p.2 32 24 0 else p.2), reps := [], changed := [] }

theorem sealCtrlWrite_ok (s : State) {d : Nat} (hd : bitOf d 0 = true) (hok : s.sealOk = true) :
    sealCtrlWrite d s = s.sealStarted.drawIv := by
  simp only [sealCtrlWrite, hd, hok, Bool.not_true, Bool.false_eq_true, if_false, if_true]
  rfl

theorem sealCtrlWrite_refused (s : State) {d : Nat} (hd : bitOf d 0 = true) (hok : s.sealOk = false) :
    sealCtrlWrite d s = s.flag F.SEAL_STATUS_CFG_ERR := by
  simp only [sealCtrlWrite, hd, hok, Bool.not_true, Bool.false_eq_true, if_false]

theorem sealCtrlWrite_off (s : State) {d : Nat} (hd : bitOf d 0 = false) :
    sealCtrlWrite d s = ((s.put F.SEAL_CTRL 0).put F.SEAL_STATUS_RUNNING 0).setSeal fun x => { x with reps := [] } := by
  simp only [sealCtrlWrite, hd, Bool.not_false, if_true]

/-- The draw leaves every other field alone but the count of the table of R401. -/
theorem drawIv_get_ne (s : State) {f : Fld} (hi : f.key ≠ F.SEAL_IV_FIXED.key) (hg : f.key ≠ F.VAULT_GEN_USED.key) :
    s.drawIv.get f = s.get f := by
  rw [State.drawIv, State.get_put_ne _ hi, State.useFree_get, State.setGen, State.get_put_ne _ hg, State.setVault_get]

/-- Bit 0 of the IV field is the strap (R262). -/
theorem drawIv_strap (s : State) : s.drawIv.get F.SEAL_IV_FIXED % 2 = b2n s.pair.strapB := by
  have hb : b2n s.pair.strapB < 2 := by cases s.pair.strapB <;> decide
  have hw : F.SEAL_IV_FIXED.width = 32 := rfl
  have hv : s.freeVal 32 < 2 ^ 32 := Nat.mod_lt _ (by decide)
  rw [State.drawIv, State.get_put_self, hw]
  omega

/-- Every valid publication's hardware fields are zeroed (R276). -/
theorem sealStarted_zeroes (s : State) {p : Nat × List Byte} (hp : p ∈ s.sealStarted.sealSt.pubs) (hv : puValid p.2 = true) :
    puSeqA p.2 = 0 ∧ puSeqB p.2 = 0 ∧ puDcrc p.2 = 0 := by
  obtain ⟨q, -, rfl⟩ := List.mem_map.mp hp
  by_cases hq : puValid q.2 = true
  · simp only [hq, if_true]
    exact ⟨leAt_setLe_zero _ (by decide) (by decide), leAt_setLe_zero _ (by decide) (by decide),
      leAt_setLe_zero _ (by decide) (by decide)⟩
  · simp only [hq] at hv
    exact absurd hv hq

theorem sealEnable_ok (m : Master) (s : State) (d : Nat) (h : Reaches s m 0x900000) (hd : bitOf d 0 = true)
    (hok : s.sealOk = true) :
    Completes (.sealEnable m d) s fun t => t.get F.SEAL_CTRL = 1 ∧ t.get F.SEAL_STATUS_RUNNING = 1
      ∧ t.get F.SEAL_STATUS_CFG_ERR = 0 ∧ t.sealSt.reps = [] ∧ t.get F.SEAL_IV_FIXED % 2 = b2n s.pair.strapB
      ∧ ∀ p ∈ t.sealSt.pubs, puValid p.2 = true → puSeqA p.2 = 0 ∧ puSeqB p.2 = 0 ∧ puDcrc p.2 = 0 := by
  refine .of_regWrite rfl h ?_
  rw [sealCtrlWrite_ok s hd hok]
  refine ⟨?_, ?_, ?_, ?_, ?_, fun p hp hv => ?_⟩
  · rw [State.commit_get _ _ (by decide), drawIv_get_ne _ (by decide) (by decide), State.sealStarted, State.setSeal_get,
      State.get_put_of _ (by decide), State.get_flag_ne _ (by decide), State.get_flag_self _ _ (by decide)]
  · rw [State.commit_get _ _ (by decide), drawIv_get_ne _ (by decide) (by decide), State.sealStarted, State.setSeal_get,
      State.get_put_of _ (by decide), State.get_flag_self _ _ (by decide)]
  · rw [State.commit_get _ _ (by decide), drawIv_get_ne _ (by decide) (by decide), State.sealStarted, State.setSeal_get,
      State.get_put_self, Nat.zero_mod]
  · rw [State.commit_sealSt]; rfl
  · have hstrap : s.sealStarted.pair = s.pair := State.when_keeps (fun t => t.pair) s _ _ fun _ => rfl
    rw [State.commit_get _ _ (by decide), drawIv_strap, hstrap]
  · rw [State.commit_sealSt] at hp
    exact sealStarted_zeroes s hp hv

theorem sealEnable_refused (m : Master) (s : State) (d : Nat) (h : Reaches s m 0x900000) (hd : bitOf d 0 = true)
    (hok : s.sealOk = false) :
    Completes (.sealEnable m d) s fun t => t.get F.SEAL_CTRL = s.get F.SEAL_CTRL ∧ t.get F.SEAL_STATUS_CFG_ERR = 1
      ∧ OnlyFields [F.SEAL_STATUS_CFG_ERR] s t := by
  refine .of_regWrite rfl h ?_
  rw [sealCtrlWrite_refused s hd hok]
  refine ⟨?_, ?_, (OnlyFields.flag s _ (by decide)).commit⟩
  · rw [State.commit_get _ _ (by decide), State.get_flag_ne _ (by decide)]
  · rw [State.commit_get _ _ (by decide), State.get_flag_self _ _ (by decide)]

theorem sealEnable_off (m : Master) (s : State) (d : Nat) (h : Reaches s m 0x900000) (hd : bitOf d 0 = false) :
    Completes (.sealEnable m d) s fun t => t.get F.SEAL_CTRL = 0 ∧ t.get F.SEAL_STATUS_RUNNING = 0
      ∧ t.sealSt = { s.sealSt with reps := [] } := by
  refine .of_regWrite rfl h ?_
  rw [sealCtrlWrite_off s hd]
  refine ⟨?_, ?_, ?_⟩
  · rw [State.commit_get _ _ (by decide), State.setSeal_get, State.get_put_of _ (by decide), State.get_put_self, Nat.zero_mod]
  · rw [State.commit_get _ _ (by decide), State.setSeal_get, State.get_put_self, Nat.zero_mod]
  · rw [State.commit_sealSt]; rfl

/-! The publication access register (R253, R277). -/

/-- What a command of SEAL_PACC_CMD finds: ERR is 0 and all else is as it was. -/
def State.paccStart (s : State) : State := s.put F.SEAL_PACC_CMD_ERR 0

theorem paccStart_get {s : State} {f : Fld} (h : (f.key == F.SEAL_PACC_CMD_ERR.key) = false) : s.paccStart.get f = s.get f :=
  s.get_put_of h 0

theorem paccStart_bit {s : State} {f : Fld} (h : (f.key == F.SEAL_PACC_CMD_ERR.key) = false) : s.paccStart.bit f = s.bit f := by
  rw [State.bit, paccStart_get h, State.bit]

theorem pacc_data_key (i : Nat) : ((F.SEAL_PACC_DATAn.idx i).key == F.SEAL_PACC_CMD_ERR.key) = false := by
  have : (F.SEAL_PACC_DATAn.idx i).key = (0x900040 + 4 * i) * 64 + 0 := rfl
  have : F.SEAL_PACC_CMD_ERR.key = 0x900034 * 64 + 28 := rfl
  rw [beq_eq_false_iff_ne]
  omega

/-- Delivery writes no data register. -/
theorem pacc_data_delivers {i : Nat} (h : i < 16) : delivers (F.SEAL_PACC_DATAn.idx i).key = false := by
  refine delivers_low ?_
  have : (F.SEAL_PACC_DATAn.idx i).key = (0x900040 + 4 * i) * 64 + 0 := rfl
  omega

theorem paccStart_data (s : State) : s.paccStart.getBytes F.SEAL_PACC_DATAn 16 = s.getBytes F.SEAL_PACC_DATAn 16 := by
  simp only [State.getBytes, paccStart_get (pacc_data_key _)]

@[simp] theorem State.setPub_pub (s : State) (p : Nat) (g : List Byte → List Byte) : (s.setPub p g).pub p = g (s.pub p) :=
  Table.at_put_self _ _ _ _

@[simp] theorem State.setPub_get (s : State) (p : Nat) (g : List Byte → List Byte) (f : Fld) : (s.setPub p g).get f = s.get f := rfl

theorem State.commit_pub (s : State) (p : Nat) : s.commit.pub p = s.pub p := by
  rw [State.pub, State.commit_sealSt, State.pub]

/-- A refused command leaves the block's tables alone and reports its code. -/
theorem paccErr_completes {i : Instr} {s : State} {e : Nat} (he : e < 8) (h : exec i s = fin (paccErr e s.paccStart)) :
    Completes i s fun t => t.sealSt = s.sealSt ∧ t.get F.SEAL_PACC_CMD_ERR = e ∧ t.get F.SEAL_STATUS_PACC_ERR = 1 := by
  refine .of_fin h ⟨?_, ?_, ?_⟩
  · rw [State.commit_sealSt]; rfl
  · rw [State.commit_get _ _ (by decide)]
    refine (State.get_put_of _ (by decide) _).trans ((State.get_put_self _ _ _).trans (Nat.mod_eq_of_lt he))
  · rw [State.commit_get _ _ (by decide)]
    exact State.get_flag_self _ _ (by decide)

theorem paccCmd_of {s : State} {m : Master} (h : Reaches s m 0x900034) (g : State → State) :
    paccCmd m g s = g s.paccStart := s.regWrite_of m _ _ h.1 h.2

theorem sealRead_completes (m : Master) (s : State) (h : Reaches s m 0x900034) (i : Nat) (hi : i < 16) :
    Completes (.sealRead m) s fun t => t.sealSt = s.sealSt
      ∧ t.get (F.SEAL_PACC_DATAn.idx i) = leAt (s.pubBytes (s.get F.SEAL_PACC_IDX)) (4 * i) 4 % 2 ^ 32 := by
  have hbytes : s.paccStart.pubBytes (s.paccStart.get F.SEAL_PACC_IDX) = s.pubBytes (s.get F.SEAL_PACC_IDX) := by
    rw [paccStart_get (by decide)]; rfl
  refine .of_fin (congrArg fin (paccCmd_of h sealReadOp)) ⟨?_, ?_⟩
  · rw [State.commit_sealSt]
    exact State.each_keeps (fun t => t.sealSt) _ _ (fun _ _ t => State.put_sealSt t _ _) _
  · rw [State.commit_get _ _ (pacc_data_delivers hi), sealReadOp, hbytes]
    exact State.get_each_put_self _ _ (fun k => leAt (s.pubBytes (s.get F.SEAL_PACC_IDX)) (4 * k) 4) _ _
      (List.mem_range.mpr hi) fun k _ hk => Fld.idx_key_ne _ (by decide) (Ne.symm hk)

theorem sealWrite_legal (s : State) (hen : s.bit F.SEAL_CTRL = false)
    (hok : puValid (s.getBytes F.SEAL_PACC_DATAn 16) = true → puOk (s.getBytes F.SEAL_PACC_DATAn 16) = true) :
    sealWrite s = s.setPub (s.get F.SEAL_PACC_IDX) fun old =>
      setLe (s.getBytes F.SEAL_PACC_DATAn 16) 32 24 (leAt old 32 24) := by
  have hlegal : (puValid (s.getBytes F.SEAL_PACC_DATAn 16) && !puOk (s.getBytes F.SEAL_PACC_DATAn 16)) = false := by
    cases hv : puValid (s.getBytes F.SEAL_PACC_DATAn 16)
    · rfl
    · rw [hok hv]; rfl
  simp only [sealWrite, hen, hlegal, Bool.false_eq_true, if_false]

theorem sealWrite_illegal (s : State) (hen : s.bit F.SEAL_CTRL = false)
    (hv : puValid (s.getBytes F.SEAL_PACC_DATAn 16) = true) (hok : puOk (s.getBytes F.SEAL_PACC_DATAn 16) = false) :
    sealWrite s = paccErr 2 s := by
  simp only [sealWrite, hen, hv, hok, Bool.not_false, Bool.and_self, Bool.false_eq_true, if_false, if_true]

theorem sealWrite_stores (m : Master) (s : State) (h : Reaches s m 0x900034) (hen : s.bit F.SEAL_CTRL = false)
    (hok : puValid (s.getBytes F.SEAL_PACC_DATAn 16) = true → puOk (s.getBytes F.SEAL_PACC_DATAn 16) = true) :
    Completes (.sealWrite m) s fun t =>
      t.pub (s.get F.SEAL_PACC_IDX)
          = setLe (s.getBytes F.SEAL_PACC_DATAn 16) 32 24 (leAt (s.pub (s.get F.SEAL_PACC_IDX)) 32 24)
        ∧ t.get F.SEAL_PACC_CMD_ERR = 0 ∧ OnlyFields [F.SEAL_PACC_CMD_ERR] { s with sealSt := t.sealSt } t := by
  have hw := sealWrite_legal s.paccStart ((paccStart_bit (by decide)).trans hen) (by rw [paccStart_data]; exact hok)
  rw [paccStart_data, paccStart_get (by decide)] at hw
  refine .of_fin (congrArg fin ((paccCmd_of h sealWrite).trans hw)) ⟨?_, ?_, ?_⟩
  · rw [State.commit_pub, State.setPub_pub]; rfl
  · rw [State.commit_get _ _ (by decide), State.setPub_get, State.paccStart, State.get_put_self, Nat.zero_mod]
  · rw [State.commit_sealSt]
    exact (OnlyFields.put { s with sealSt := _ } F.SEAL_PACC_CMD_ERR 0 (by decide)).commit

theorem sealWrite_refuses (m : Master) (s : State) (h : Reaches s m 0x900034) (hen : s.bit F.SEAL_CTRL = false)
    (hv : puValid (s.getBytes F.SEAL_PACC_DATAn 16) = true) (hok : puOk (s.getBytes F.SEAL_PACC_DATAn 16) = false) :
    Completes (.sealWrite m) s fun t =>
      t.sealSt = s.sealSt ∧ t.get F.SEAL_PACC_CMD_ERR = 2 ∧ t.get F.SEAL_STATUS_PACC_ERR = 1 := by
  have hw := sealWrite_illegal s.paccStart ((paccStart_bit (by decide)).trans hen) (by rw [paccStart_data]; exact hv)
    (by rw [paccStart_data]; exact hok)
  exact paccErr_completes (by decide) (congrArg fin ((paccCmd_of h sealWrite).trans hw))

/-- INVALIDATE while EN = 0: the entry is not valid afterwards, whether or not one was stored. -/
theorem sealInvalidate_clears (s : State) (hen : s.bit F.SEAL_CTRL = false) :
    puValid ((sealInvalidate s).pub (s.get F.SEAL_PACC_IDX)) = false := by
  unfold sealInvalidate
  simp only [hen, Bool.false_eq_true, if_false]
  split
  case isTrue hempty => rw [List.isEmpty_iff.mp hempty]; rfl
  case isFalse =>
    rw [State.setPub_pub, puValid, leAt_setLe_self, ← bitOf_clearBit_zero (leAt (s.pub (s.get F.SEAL_PACC_IDX)) 0 1)]
    exact bitOf_mod _ 8 0 (by decide)

theorem sealInvalidate_err (s : State) (hen : s.bit F.SEAL_CTRL = false) :
    (sealInvalidate s).get F.SEAL_PACC_CMD_ERR = s.get F.SEAL_PACC_CMD_ERR := by
  unfold sealInvalidate
  simp only [hen, Bool.false_eq_true, if_false]
  split <;> rfl

theorem sealInvalidate_completes (m : Master) (s : State) (h : Reaches s m 0x900034) (hen : s.bit F.SEAL_CTRL = false) :
    Completes (.sealInvalidate m) s fun t =>
      puValid (t.pub (s.get F.SEAL_PACC_IDX)) = false ∧ t.get F.SEAL_PACC_CMD_ERR = 0 := by
  have hen' : s.paccStart.bit F.SEAL_CTRL = false := (paccStart_bit (by decide)).trans hen
  have hclear := sealInvalidate_clears s.paccStart hen'
  rw [paccStart_get (by decide)] at hclear
  refine .of_fin (congrArg fin (paccCmd_of h sealInvalidate)) ⟨?_, ?_⟩
  · rw [State.commit_pub]; exact hclear
  · rw [State.commit_get _ _ (by decide), sealInvalidate_err _ hen']
    exact State.get_put_self _ _ _

/-- While EN = 1, WRITE and INVALIDATE answer ERR 1. -/
theorem sealChange_enabled (m : Master) (s : State) (h : Reaches s m 0x900034) (hen : s.bit F.SEAL_CTRL = true) (i : Instr)
    (hi : i = .sealWrite m ∨ i = .sealInvalidate m) :
    Completes i s fun t => t.sealSt = s.sealSt ∧ t.get F.SEAL_PACC_CMD_ERR = 1 ∧ t.get F.SEAL_STATUS_PACC_ERR = 1 := by
  have hen' : s.paccStart.bit F.SEAL_CTRL = true := (paccStart_bit (by decide)).trans hen
  rcases hi with rfl | rfl
  · exact paccErr_completes (by decide) (congrArg fin ((paccCmd_of h sealWrite).trans (by simp only [sealWrite, hen', if_true])))
  · exact paccErr_completes (by decide)
      (congrArg fin ((paccCmd_of h sealInvalidate).trans (by simp only [sealInvalidate, hen', if_true])))

/-! The template access register (R254). -/

theorem taccWrite_stores (m : Master) (s : State) (d : Nat) (h : Reaches s m 0x900084) (hen : s.bit F.SEAL_CTRL = false) :
    Completes (.taccDataWrite m d) s fun t => Memory.bytes 0 t.sealSt.tpl (s.get F.SEAL_TACC_ADDR) 4 = leBytes 4 d
      ∧ t.get F.SEAL_TACC_ADDR = (s.get F.SEAL_TACC_ADDR + 4) % 2 ^ F.SEAL_TACC_ADDR.width
      ∧ ∀ a, a < s.get F.SEAL_TACC_ADDR ∨ s.get F.SEAL_TACC_ADDR + 4 ≤ a →
          Memory.byte 0 t.sealSt.tpl a = Memory.byte 0 s.sealSt.tpl a := by
  have hw : taccWrite d s = (s.setSeal fun x => { x with
      tpl := Memory.store 0 x.tpl (s.get F.SEAL_TACC_ADDR) (leBytes 4 d) }).put F.SEAL_TACC_ADDR (s.get F.SEAL_TACC_ADDR + 4) := by
    simp only [taccWrite, hen, Bool.false_eq_true, if_false]
  refine .of_regWrite rfl h ?_
  rw [hw]
  refine ⟨?_, ?_, fun a ha => ?_⟩
  · rw [State.commit_sealSt]
    exact Memory.bytes_store 0 s.sealSt.tpl _ (leBytes 4 d)
  · rw [State.commit_get _ _ (by decide), State.get_put_self]
  · rw [State.commit_sealSt]
    exact Memory.byte_store_ne 0 s.sealSt.tpl _ (leBytes 4 d) a (by rwa [length_leBytes])

theorem taccWrite_ignored (m : Master) (s : State) (d : Nat) (h : Reaches s m 0x900084) (hen : s.bit F.SEAL_CTRL = true) :
    Completes (.taccDataWrite m d) s fun t => t.sealSt = s.sealSt ∧ OnlyFields [] s t := by
  have hw : taccWrite d s = s := by simp only [taccWrite, hen, if_true]
  refine .of_regWrite rfl h ?_
  rw [hw]
  exact ⟨State.commit_sealSt s, (OnlyFields.refl [] s).commit⟩

/-- Settles O37, register by register: SEAL_CTRL, the commands of SEAL_PACC_CMD, and SEAL_TACC_DATA. -/
theorem sealTables : Obligations.SealTables :=
  ⟨fun m s d h => ⟨sealEnable_ok m s d h, sealEnable_refused m s d h, sealEnable_off m s d h⟩,
   fun m s h => ⟨sealRead_completes m s h, sealWrite_stores m s h, sealWrite_refuses m s h, sealInvalidate_completes m s h,
     sealChange_enabled m s h⟩,
   fun m s d h => ⟨taccWrite_stores m s d h, taccWrite_ignored m s d h⟩⟩

end Sys2Proof.Machine
end

section
/-! Frames built with a key at its bound (R90, R262, R263). A key is loaded with the GMAC_COUNT of its blob (R401), so it can be
LOADED with the count 2^32 − 1 already reached; State.egressKeyOk does not ask for the count, and State.keyUse counts no further. -/

namespace Sys2Proof.Machine

/-- The count of a key stays at its bound. -/
theorem keyUse_spent (s : State) (k : Nat) (h : 2 ^ 32 - 1 ≤ (s.keyE k).count) : s.keyUse k = s := by
  unfold State.keyUse
  simp only [decide_eq_true h, Bool.or_true, if_true]

/-- The IV that a frame of publication entry `e` takes (R262). -/
def State.egressIv (s : State) (e : List Byte) : List Byte :=
  if algGmac (puAlg e) then beBytes 4 (s.get F.SEAL_IV_FIXED) ++ beBytes 8 (s.keyE (puKey e)).count else []

theorem build_formed (s : State) (f : SFrame) (bs : List Byte) (hkey : s.egressKeyOk (s.pub f.pub) = true)
    (hf : s.formed f (s.egressIv (s.pub f.pub)) = some bs) :
    s.build f = (s.keyUse (puKey (s.pub f.pub)), { f with st := 1, iv := s.egressIv (s.pub f.pub), frame := bs }) := by
  unfold State.egressIv at hf ⊢
  simp only [State.build, hkey, hf, Bool.not_true, Bool.false_eq_true, if_false]

/-- The next frame, not released, is built with a key that may serve it: the key's use is counted and the frame holds its
bytes. -/
theorem frameBuildDone_builds (s : State) (dt i : Nat) (f : SFrame) (bs : List Byte) (hen : s.bit F.SEAL_CTRL = true)
    (hn : s.nextBuild = some i) (hi : s.sealSt.frames[i]? = some f) (hr : f.released = false)
    (hkey : (s.elapse dt).egressKeyOk (s.pub f.pub) = true)
    (hf : (s.elapse dt).formed f (s.egressIv (s.pub f.pub)) = some bs) :
    frameBuildDone dt s = ((s.elapse dt).keyUse (puKey (s.pub f.pub))).setSeal fun x =>
      { x with frames := x.frames.set i { f with st := 1, iv := s.egressIv (s.pub f.pub), frame := bs } } := by
  have hen' : (s.elapse dt).bit F.SEAL_CTRL = true := hen
  have hn' : (s.elapse dt).nextBuild = some i := hn
  have hi' : (s.elapse dt).sealSt.frames[i]? = some f := hi
  simp only [frameBuildDone, hen', hn', hi', build_formed (s.elapse dt) f bs hkey hf, hr, Bool.not_true, Bool.false_eq_true,
    if_false]
  rfl

/-- A key at its bound still serves a frame, whose invocation is not counted. -/
theorem frameBuildDone_spent (s : State) (dt i : Nat) (f : SFrame) (bs : List Byte) (hen : s.bit F.SEAL_CTRL = true)
    (hn : s.nextBuild = some i) (hi : s.sealSt.frames[i]? = some f) (hr : f.released = false)
    (hkey : (s.elapse dt).egressKeyOk (s.pub f.pub) = true)
    (hf : (s.elapse dt).formed f (s.egressIv (s.pub f.pub)) = some bs)
    (hspent : 2 ^ 32 - 1 ≤ (s.keyE (puKey (s.pub f.pub))).count) :
    Completes (.frameBuildDone dt) s fun t => ∀ k, t.keyE k = s.keyE k := by
  have hb := frameBuildDone_builds s dt i f bs hen hn hi hr hkey hf
  rw [keyUse_spent (s.elapse dt) _ hspent] at hb
  refine .of_fin (congrArg fin hb) fun k => ?_
  rw [State.keyE, State.commit_gate]
  rfl

/-- The frame of an HRS record of publication 0, not yet built and not released. -/
def hrsFrame0 : SFrame := ⟨0, 0, 0, 0, [], 0, 0, 0, 0, 0, false, false, 0, [], [], false⟩

/-- The block runs; publication 0 (HRS, GMAC algorithm 4) names key 0, LOADED for egress with its GMAC_COUNT at 2^32 − 1. -/
def spentKeySt : State :=
  { (State.reset.flag F.SEAL_CTRL).setKey 0 fun x => { x with st := 1, usage := 8, alg := 4, count := 2 ^ 32 - 1 } with
    sealSt := { State.reset.sealSt with pubs := [(0, setLe (setLe [] 0 2 0x301) 14 1 4)], frames := [hrsFrame0] } }

/-- A frame of KIND HRS is always formed: no bound holds for its span (R266). -/
theorem formed_hrs (s : State) (f : SFrame) (iv : List Byte) (hc : f.cls ≠ 8) (hk : puKind (s.pub f.pub) = 3) :
    ∃ bs, s.formed f iv = some bs := by
  unfold State.formed
  simp only [hc, hk, if_false, if_true]
  exact ⟨_, rfl⟩

/-- Refutes O38: `spentKeySt` builds its frame, but the count of its key, 2^32 − 1, does not rise by one. -/
theorem not_framesBuilt : ¬ Obligations.FramesBuilt := by
  rintro ⟨hbuilt, -⟩
  have hen : spentKeySt.bit F.SEAL_CTRL = true := by decide +kernel
  have hn : spentKeySt.nextBuild = some 0 := by decide +kernel
  have hkey : (spentKeySt.elapse 0).egressKeyOk (spentKeySt.pub 0) = true := by decide +kernel
  have hgmac : algGmac (spentKeySt.keyE (puKey (spentKeySt.pub 0))).alg = true := by decide +kernel
  have hcount : (spentKeySt.keyE (puKey (spentKeySt.pub 0))).count = 2 ^ 32 - 1 := by decide +kernel
  obtain ⟨bs, hbs⟩ := formed_hrs (spentKeySt.elapse 0) hrsFrame0 (spentKeySt.egressIv (spentKeySt.pub 0)) (by decide)
    (by decide +kernel)
  obtain ⟨t, ht, -, hcounted⟩ := hbuilt spentKeySt 0 0 hrsFrame0 bs hen hn rfl rfl hkey hbs
  obtain ⟨t', ht', hsame⟩ := frameBuildDone_spent spentKeySt 0 0 hrsFrame0 bs hen hn rfl rfl hkey hbs (Nat.le_of_eq hcount.symm)
  obtain rfl : t = t' := by rw [ht] at ht'; injection ht'
  have hrise := hcounted hgmac
  rw [hsame] at hrise
  omega

end Sys2Proof.Machine
end
